-- ==== Sys2Proof/Word.lean ====
section
/-! DEFINITION. The word types of the model. -/
namespace Sys2Proof

/-- One byte. -/
abbrev Byte := BitVec 8
/-- A 16-bit field. -/
abbrev W16 := BitVec 16
/-- A register DWORD, and a general register of Coresh (R190). -/
abbrev W32 := BitVec 32
/-- A 64-bit little-endian word of a ring, record or context (R162, R264). -/
abbrev W64 := BitVec 64

end Sys2Proof
end

