-- ==== Sys2Proof/Types.lean ====
section
/-! DEFINITION. The kinds of operand that the commands of the module carry: the numbers of its ports,
links, slices, channels and cores, and the data that reach it from outside (packets, line levels,
replies, host memory). -/
namespace Sys2Proof

/-- A root port P0 to P15 (R61). -/
abbrev Port := BitVec 4
/-- A host link HL0 to HL3 (R8). -/
abbrev Link := BitVec 2
/-- A slice S0 to S63 (R356). -/
abbrev Slice := BitVec 6
/-- A DMA channel C0 to C63 (R294). -/
abbrev Chan := BitVec 6
/-- A steward core T0 to T3 (R321). -/
abbrev Core := BitVec 2
/-- A queue number of a slice (R262). -/
abbrev QNum := BitVec 12
/-- A context index in the barn (R158). -/
abbrev CtxIdx := BitVec 23
/-- A device identifier (R159). -/
abbrev DevId := BitVec 19
/-- A steward task (R321). -/
abbrev Task := BitVec 12
/-- An ordered flow (R329). -/
abbrev Flow := BitVec 8
/-- A steward graph (R321). -/
abbrev Graph := BitVec 12
/-- A detector DT000 to DT127 (R517). -/
abbrev Detector := BitVec 7
/-- A general register g0 to g15 (R190). -/
abbrev Reg := BitVec 4
/-- A predicate p0 to p3 (R190). -/
abbrev Pred := BitVec 2
/-- A cycle of the tick, 0 to 12,499 (R7). -/
abbrev Cycle := BitVec 14
/-- A DWORD offset within BAR0, in bytes (R495). -/
abbrev BarOff := BitVec 21

/-- The switched power domains PD1 to PD12 (R456). -/
inductive Dom where
  | pd1 | pd2 | pd3 | pd4 | pd5 | pd6 | pd7 | pd8 | pd9 | pd10 | pd11 | pd12
deriving DecidableEq, Repr

/-- The guard of a Coresh instruction (R193): the instruction executes when predicate `pr` XOR `neg` is 1. -/
structure Guard where
  neg : Bool
  pr : Pred
deriving DecidableEq, Repr

/-- The two kinds of machine that run Coresh (R189, R195): a loom thread, one per root port, and a steward core. -/
inductive CUnit where
  | loom (p : Port)
  | core (c : Core)
deriving DecidableEq, Repr

/-- The operands of RAISE (R194 format E): an event code and a register on a loom, a task and a flag on a steward core. -/
inductive RaiseOp where
  | event (code : Byte) (a : Reg)
  | flag (task : Task) (flag : BitVec 5)
deriving DecidableEq, Repr

/-- What the comparator of a line shows (R77): below 0.8 V, between, above 2.0 V. -/
inductive Level where
  | low | mid | high
deriving DecidableEq, Repr

/-- A data packet received intact (R112): its sequence number, LAST and payload. -/
structure Pkt where
  seq : BitVec 4
  last : Bool
  data : List Byte
deriving DecidableEq, Repr

/-- How the reception of a packet ended (R105, R107): with ED, with AD, or with a code violation before either. -/
inductive RxEnd where
  | ed | ad | violation
deriving DecidableEq, Repr

/-- A packet as a port's receiver delivers it: the bytes after SD, how it ended, the cycles of its first and its last symbol, and the amplitude
in mV and equaliser setting of the front end (R105, R529; log entry 126). -/
structure RxPkt where
  bytes : List Byte
  fin : RxEnd
  first : Cycle
  till : Cycle
  ampl : W16 := 0
  eq : BitVec 5 := 0
deriving DecidableEq, Repr

/-- A completion record of a remote bridge's ticket endpoint (R150). -/
structure TicketRec where
  ticket : W16
  outcome : Byte
  dev : DevId
  ep : BitVec 4
  len : BitVec 17
deriving DecidableEq, Repr

/-- A route: the root port, 0 to 16, and the hub ports on the way, HOP1 first (R109, R110, R164). -/
structure Route where
  port : BitVec 5
  hops : List (BitVec 5)
deriving DecidableEq, Repr

/-- What an uncorrectable error in committed state struck (R48, R184; log entry 40). -/
inductive LostItem where
  | none
  | context (i : CtxIdx)
  | devLine (line : BitVec 16)
deriving DecidableEq, Repr

/-- A value measured by the module in the tick: a snapshot item and its value (R14, R336). -/
structure Meas where
  item : W16
  value : W32
deriving DecidableEq, Repr

/-- The bad outcomes of a module read (R315). -/
inductive ReadError where
  | unsupported | completerAbort | poisoned
deriving DecidableEq, Repr

/-- A direction of a DMA channel (R297). -/
inductive Dir where
  | read | write
deriving DecidableEq, Repr

/-- A time-domain reflection as measured (R524, R526): percent of the pulse, polarity, delay in ps. -/
structure Echo where
  rho : Byte
  inverted : Bool
  delay : W32
deriving DecidableEq, Repr

/-- How a line-probe measurement ended (R100, R525). -/
inductive TdrEnd where
  /-- All shots ran; the reflections, first the nearest. -/
  | done (echoes : List Echo)
  /-- WKP began (R100). -/
  | busy
  /-- A surge during a shot (R525). -/
  | noisy
deriving DecidableEq, Repr

/-- An access to BAR0: its link, offset, size in bytes, whether it is a write, and whether its alignment
and byte enables are accepted (R497). -/
structure BarAccess where
  link : Link
  off : BarOff
  qword : Bool
  write : Bool
  wellSized : Bool
deriving DecidableEq, Repr

/-- A frame of the NM-3 as received (R474), split into its parts. -/
structure MetFrame where
  seq : W16
  pageNo : Nat
  status : W16
  samples : List Byte
  instant : List Byte
  page : List Byte
deriving DecidableEq, Repr

/-- A frame of the watchman port (R531), split into its parts (log entry 79). -/
structure WmFrame where
  addr : Byte
  typ : Byte
  payload : List Byte
  seq : W32
  mac : List Byte
  crc : W16
deriving DecidableEq, Repr

end Sys2Proof
end

