-- ==== Sys2Proof/Syntax.lean ====
section
/-! DEFINITION. The commands of the module: one constructor per row of the opcode table, with what the step
takes from outside (a packet, a line level, a value written, a word read from host memory). -/
namespace Sys2Proof

/-- The operations and events of the module, one per row of opcode_table.json. -/
inductive Instr where
  /-- TICK_BEGIN (R24). At cycle 0 of each tick the tick number increments, and the tick strobe and tick flag are issued. -/
  | tickBegin
  /-- OVERRUN_CHECK (R42). At cycle 12,000 the overrun detector samples every loom thread, shuttle and steward core, and reports any that is busy. -/
  | overrunCheck
  /-- SEGMENT_END_CHECK (R233). At each valid END the overrun detector reports if the program of the ending segment or its wire sequence is still running. -/
  | segmentEndCheck (p : Port) (k : BitVec 3)
  /-- DETECTOR_REPORT (R36). A detector report reaches the registry, is recorded, and signals abandon to every block for the tick it belongs to. -/
  | detectorReport (d : Detector) (unit : Byte) (injected : Bool) (lost : LostItem) (cyc : Cycle)
  /-- SELVAGE (R33). At cycle 12,032 both copies of the commit logic decide, and the tick is then committed (epoch increments) or abandoned (pending-valid bits cleared). -/
  | selvage (split : Bool) (meas : List Meas)
  /-- COMMIT_ESCALATED (R43). After eight consecutive abandons by one detector, the block of its containment class is contained. -/
  | commitEscalated (d : Detector)
  /-- MODULE_RESTART (R44). After 64 consecutive abandoned ticks, the module restarts through the cold-start path. -/
  | moduleRestart
  /-- FOLD_SWEEP (R31). A background sweep visits and folds every versioned item at least once every 1,024 ticks. -/
  | foldSweep
  /-- RECORD_WRITER_FLUSH (R13). In the tick after a commit, the module writes IN payload, completions, event records and the MSI-X message, in that order. -/
  | recordWriterFlush
  /-- JOURNAL_DURABLE (R52). Committed changes are appended to the flash journal and JOURNAL_EPOCH advances. -/
  | journalDurable
  /-- CLOCK_FALLBACK (R54). If the TCXO or PLL is not ready within 200 µs of AON release, the internal oscillator is used and TICK_DEGRADED is set. -/
  | clockFallback (tcxo pll : Bool)
  /-- PPS_EDGE (R57). A 1PPS edge is validated against its window, and a valid edge is stamped and used to steer the TCXO. -/
  | ppsEdge (cyc : Cycle) (falling : Bool)
  /-- PPS_HOLDOVER (R58). After 1.5 s without a valid edge, the state moves to HOLDOVER and the TCXO control value is frozen. -/
  | ppsHoldover (cyc : Cycle)
  /-- TICK_LO_READ (R60). A read of TICK_LO latches tick number [47:32] into TICK_HI. -/
  | tickLoRead (l : Link) (qword : Bool)
  /-- REGISTER_WRITE (R18). A host write to a register without a row of its own is buffered, and takes effect at the next commit if tick-transactional. -/
  | registerWrite (l : Link) (off : BarOff) (v : W32) (hi : Option W32)
  /-- DEBOUNCE_ENTER (R78). A non-absent presence sample moves a DETACHED port to DEBOUNCE, and an absent sample returns it to DETACHED. -/
  | debounceEnter (p : Port) (a b : Level)
  /-- PRESENCE_DECLARED (R78). After 800 matching samples, presence is declared and the port moves to POWERING or INVALID. -/
  | presenceDeclared (p : Port)
  /-- INVALID_RETURN (R79). After 800 absent samples, an INVALID port returns to DETACHED. -/
  | invalidReturn (p : Port)
  /-- PWR_WAIT_END (R80). When PWR_WAIT ticks have passed in POWER_WAIT, the port's reset begins with RST. -/
  | pwrWaitEnd (p : Port)
  /-- RST_PHASE_END (R82). After 16 ticks of RST, the port leaves the line in electrical idle for the chirp window. -/
  | rstPhaseEnd (p : Port)
  /-- CHIRP_D_RECOGNISED (R83). A recognised CHIRP-D with CAB_EN set is answered with CHIRP-H, and Cabinet speed is selected. -/
  | chirpDRecognised (p : Port) (held : Bool)
  /-- RESET_END (R82). At tick r+80 the port starts line activity at the selected speed and enters RECOVERY. -/
  | resetEnd (p : Port)
  /-- RECOVERY_END (R82). 16 ticks after RECOVERY begins, the port moves to ACTIVE. -/
  | recoveryEnd (p : Port)
  /-- DETACH (R86). Presence lost for 32 samples, or undercurrent for 160 ticks, is recognised as detach and the port powers off and returns to DETACHED. -/
  | detach (p : Port)
  /-- LINK_RESET (R82). The RESET bit of LINK_CTL commands a reset of the port. -/
  | linkReset (l : Link) (p : Port) (v : W32)
  /-- LINK_SUSPEND (R90). The SUSPEND bit of LINK_CTL commands a suspend, which puts the line into electrical idle after the commit. -/
  | linkSuspend (l : Link) (p : Port) (v : W32)
  /-- LINK_RESUME (R91). The RESUME bit of LINK_CTL commands a resume, either without RSM or with full RSM. -/
  | linkResume (l : Link) (p : Port) (v : W32)
  /-- LINK_DISABLE (R103). DISABLE written 1 moves the port to DISABLED. -/
  | linkDisable (l : Link) (p : Port) (v : W32)
  /-- LINK_ENABLE (R103). DISABLE written 0 returns a DISABLED port to DETACHED. -/
  | linkEnable (l : Link) (p : Port) (v : W32)
  /-- SUSPEND_COMPLETE (R90). At the commit of tick s+28, a SUSPENDING port enters SUSPENDED. -/
  | suspendComplete (p : Port)
  /-- RSM_END (R92). After 80 ticks of RSM, the port starts line activity and enters RECOVERY. -/
  | rsmEnd (p : Port)
  /-- WKP (R94). The wake logic recognises WKP on a SUSPENDED port, stamps it, wakes the domain and answers with RSM or records WAKE_IGNORED. -/
  | wkp (p : Port) (cyc : Cycle)
  /-- SURGE (R98). A common-mode excursion above 200 V is counted, SURGE is recorded and the receiver is blanked for 2 µs. -/
  | surge (p : Port) (peak : W16) (cyc : Cycle)
  /-- RX_RELOCK (R99). A receiver blanked by a surge regains symbol lock and counts it. -/
  | rxRelock (p : Port)
  /-- RESPONSE_TIMEOUT (R69). No reply arrives within the response timeout, and the shuttle takes the transaction as NO_REPLY. -/
  | responseTimeout (p : Port) (cyc : Cycle)
  /-- WIRE_SEQUENCE_END (R125). A shuttle's wire sequence ends with an outcome, which is recorded in the pending context, retried or written to gD. -/
  | wireSequenceEnd (p : Port) (reply : List RxPkt) (cyc : Cycle)
  /-- POWER_NOTICE (R156). After mains loss, each ACTIVE port's shuttle sends one POWER_NOTICE at the next boundary between instructions. -/
  | powerNotice (p : Port)
  /-- TREE_SERVICE (R234). In each tick's lead, or in the Field phase-7 tick, the port carries due hub and ticket polls, hub-port service, hub requests and enumeration stages. -/
  | treeService (p : Port) (reply : List RxPkt) (cyc : Cycle)
  /-- HUB_PORT_RESET_DUE (R237). PWR_WAIT ticks after a new connection is committed, PORT_SET with RESET is sent to the hub port. -/
  | hubPortResetDue (p : Port)
  /-- DEFER_TIMEOUT (R153). The ticket timeout fires, the transfer completes DEFER_TIMEOUT and the endpoint is halted. -/
  | deferTimeout (c : CtxIdx)
  /-- STAGING_LIST (R179). At cycle 0 the staging unit takes its list of contexts for the next tick and starts filling the cache. -/
  | stagingList
  /-- CONTEXT_FILL_DONE (R179). A context read from the barn through the crypto engine is placed in the cache after a victim has been chosen and written back. -/
  | contextFillDone (c : CtxIdx)
  /-- ENTRY_ELIGIBLE (R12). A fetched entry becomes eligible once its context is resident and its OUT payload is staged. -/
  | entryEligible (sl : Slice) (q : QNum) (pos : BitVec 17)
  /-- ENTRY_BIND (R238). At cycle 0, an eligible entry for a warp-named endpoint is bound to that context as the transfer in progress. -/
  | entryBind (sl : Slice) (q : QNum) (pos : BitVec 17)
  /-- DEVICE_RELEASE (R185). After a detach, the identifier and contexts are released in the commit after the device's last completion. -/
  | deviceRelease (d : DevId)
  /-- LOST_ID_RELEASE (R186). A LOST device's identifier is released if none of its devices is reset within 8,000 ticks. -/
  | lostIdRelease (d : DevId)
  /-- PROGRAM_ENTRY (R231). The loom thread enters the program of segment k at cycle 0 or at END(k-1) with cleared registers. -/
  | programEntry (p : Port) (k : BitVec 3)
  /-- NOP (R195). Instruction that does nothing. -/
  | nop (u : CUnit) (gd : Guard)
  /-- END (R195). Instruction that ends the program or task run. -/
  | endRun (u : CUnit) (gd : Guard)
  /-- ADD (R195). gD := gA + gB. -/
  | add (u : CUnit) (gd : Guard) (d a b : Reg)
  /-- SUB (R195). gD := gA - gB. -/
  | sub (u : CUnit) (gd : Guard) (d a b : Reg)
  /-- AND (R195). gD := gA and gB. -/
  | and (u : CUnit) (gd : Guard) (d a b : Reg)
  /-- OR (R195). gD := gA or gB. -/
  | or (u : CUnit) (gd : Guard) (d a b : Reg)
  /-- XOR (R195). gD := gA xor gB. -/
  | xor (u : CUnit) (gd : Guard) (d a b : Reg)
  /-- SHL (R195). Left shift by gB [4:0]. -/
  | shl (u : CUnit) (gd : Guard) (d a b : Reg)
  /-- SHR (R195). Logical right shift. -/
  | shr (u : CUnit) (gd : Guard) (d a b : Reg)
  /-- SAR (R195). Arithmetic right shift. -/
  | sar (u : CUnit) (gd : Guard) (d a b : Reg)
  /-- MIN (R195). Signed minimum. -/
  | min (u : CUnit) (gd : Guard) (d a b : Reg)
  /-- MAX (R195). Signed maximum. -/
  | max (u : CUnit) (gd : Guard) (d a b : Reg)
  /-- MUL (R195). Low 32 bits of gA × gB. -/
  | mul (u : CUnit) (gd : Guard) (d a b : Reg)
  /-- ADDI (R195). gD := gA + IMM15, sign-extended. -/
  | addi (u : CUnit) (gd : Guard) (d a : Reg) (imm : BitVec 15)
  /-- ANDI (R195). gD := gA and IMM15, zero-extended. -/
  | andi (u : CUnit) (gd : Guard) (d a : Reg) (imm : BitVec 15)
  /-- ORI (R195). gD := gA or IMM15, zero-extended. -/
  | ori (u : CUnit) (gd : Guard) (d a : Reg) (imm : BitVec 15)
  /-- XORI (R195). gD := gA xor IMM15, zero-extended. -/
  | xori (u : CUnit) (gd : Guard) (d a : Reg) (imm : BitVec 15)
  /-- SHLI (R195). Left shift by an immediate. -/
  | shli (u : CUnit) (gd : Guard) (d a : Reg) (imm : BitVec 15)
  /-- SHRI (R195). Logical right shift by an immediate. -/
  | shri (u : CUnit) (gd : Guard) (d a : Reg) (imm : BitVec 15)
  /-- MOVI (R195). gD := IMM16, zero-extended. -/
  | movi (u : CUnit) (gd : Guard) (d : Reg) (imm : W16)
  /-- MOVHI (R195). Loads IMM16 into the upper half of gD and keeps the lower half. -/
  | movhi (u : CUnit) (gd : Guard) (d : Reg) (imm : W16)
  /-- CMP (R196). Sets a predicate from a comparison of two registers. -/
  | cmp (u : CUnit) (gd : Guard) (pd : Pred) (cond : BitVec 3) (a b : Reg)
  /-- CMPI (R196). Sets a predicate from a comparison of a register with an immediate. -/
  | cmpi (u : CUnit) (gd : Guard) (pd : Pred) (cond : BitVec 3) (a : Reg) (imm : BitVec 14)
  /-- PLOG (R196). Combines two predicates into a third. -/
  | plog (u : CUnit) (gd : Guard) (pd pa pb : Pred) (fn : BitVec 2)
  /-- RDS (R197). Reads a special value into gD. -/
  | rds (u : CUnit) (gd : Guard) (d : Reg) (sel : BitVec 4)
  /-- BR (R198). Branches forward under its guard. -/
  | br (u : CUnit) (gd : Guard) (off : W16)
  /-- LOOP (R199). Executes its body N times with an iteration counter. -/
  | loop (u : CUnit) (gd : Guard) (d : Reg) (n : Byte) (len : BitVec 11)
  /-- AWAIT (R200). Waits for a cycle or for the shuttle on a loom, or ends a task run with a flag mask on a steward core. -/
  | await (u : CUnit) (gd : Guard) (mode : BitVec 2) (a : Reg) (cyc : BitVec 14)
  /-- RAISE (R218). Places a pending event record on a loom, or sets a task flag on a steward core. -/
  | raise (u : CUnit) (gd : Guard) (op : RaiseOp)
  /-- SELC (R201). cx := INDEX. -/
  | selc (p : Port) (idx : CtxIdx)
  /-- SELCR (R201). cx := cx + OFF. -/
  | selcr (p : Port) (gd : Guard) (off : W16)
  /-- LDC (R202). Loads half a context word, or a task state word, into gD. -/
  | ldc (u : CUnit) (gd : Guard) (d : Reg) (word : BitVec 4) (h : Bool)
  /-- STC (R202). Stores gA into SCRATCH, TKT_TIMEOUT or a task state word. -/
  | stc (u : CUnit) (gd : Guard) (a : Reg) (word : BitVec 4) (h : Bool)
  /-- POLL (R209). Sends a short IN token and returns up to 4 payload bytes in gE. -/
  | poll (p : Port) (gd : Guard) (d : Reg) (cnt : BitVec 3) (rty : BitVec 2) (e : Reg)
  /-- TAKE (R210). Requests an IN sheaf for the transfer in progress. -/
  | take (p : Port) (gd : Guard) (d : Reg) (cnt : BitVec 3) (rty : BitVec 2) (e : Reg)
  /-- GIVE (R211). Sends an OUT sheaf for the transfer in progress. -/
  | give (p : Port) (gd : Guard) (d : Reg) (cnt : BitVec 3) (rty : BitVec 2) (e : Reg)
  /-- SETUP (R212). Performs the next stage of a control transfer on EP0. -/
  | setup (p : Port) (gd : Guard) (d : Reg) (cnt : BitVec 3) (rty : BitVec 2) (e : Reg)
  /-- PING (R213). Asks an OUT endpoint whether it is ready. -/
  | ping (p : Port) (gd : Guard) (d : Reg) (cnt : BitVec 3) (rty : BitVec 2) (e : Reg)
  /-- DEFER (R214). Posts to, sends control-write data to, or collects from a deferred endpoint, or ends WAITING. -/
  | defer (p : Port) (gd : Guard) (d : Reg) (cnt : BitVec 3) (rty : BitVec 2) (e : Reg)
  /-- SUSPEND (R215). Commands a suspend of the device's segment. -/
  | suspend (p : Port) (gd : Guard) (d : Reg) (cnt : BitVec 3) (rty : BitVec 2) (e : Reg)
  /-- RESUME (R215). Commands a resume of the device's segment. -/
  | resume (p : Port) (gd : Guard) (d : Reg) (cnt : BitVec 3) (rty : BitVec 2) (e : Reg)
  /-- PROBE (R216). Hands the pair to the line probe for a probe slot of VAL µs. -/
  | probe (p : Port) (gd : Guard) (d : Reg) (val : BitVec 14)
  /-- WEAVE (R217). Draws eligible weft entries and issues transactions until cycle VAL. -/
  | weave (p : Port) (gd : Guard) (d : Reg) (val : BitVec 14)
  /-- SNAP (R219). Loads a snapshot item into gD. -/
  | snap (c : Core) (gd : Guard) (d : Reg) (item : W16)
  /-- BOUND (R220). Clamps gA to an owner bound pair. -/
  | bound (c : Core) (gd : Guard) (d a : Reg) (bnd : BitVec 11)
  /-- EMA (R220). Updates an exponential average. -/
  | ema (c : Core) (gd : Guard) (d a : Reg) (k : BitVec 5)
  /-- ACT (R221). Makes a clamped pending decision on an actuator. -/
  | act (c : Core) (gd : Guard) (a : Reg) (actr : BitVec 15)
  /-- TIMER (R222). Arms a flag timer for a task. -/
  | timer (c : Core) (gd : Guard) (t : Task) (flag : BitVec 5) (a : Reg)
  /-- FLOW (R222). Emits a value on an ordered flow. -/
  | flow (c : Core) (gd : Guard) (f : Flow) (a : Reg)
  /-- TRACE (R222). Writes a custom trace record. -/
  | trace (c : Core) (gd : Guard) (a : Reg)
  /-- TASK_DISPATCH (R326). An idle steward core dispatches the next ready entry and begins a task run, capturing and clearing its flags. -/
  | taskDispatch (c : Core)
  /-- FLOW_RELEASE (R330). Once every lower place has been released, the values of a place go to the sink's state words and set flag 30. -/
  | flowRelease (f : Flow) (cyc : Cycle)
  /-- TIMER_FIRE (R332). A timer whose deadline is reached fires at the commit and sets its task's flag. -/
  | timerFire (t : Task) (flag : BitVec 5)
  /-- PORT_ISOLATION (R340). Built-in policy that isolates a port on low insulation or too many surges. -/
  | portIsolation (p : Port)
  /-- POLL_BACKOFF (R342). Built-in policy that doubles or halves the effective interval of weaver registrations. -/
  | pollBackoff (p : Port) (handle : BitVec 23)
  /-- POWER_SHEDDING (R341). Built-in policy that commits the shed order and sheds or restores ports on brownout or overload. -/
  | powerShedding
  /-- THERMAL_DERATING (R343). Built-in policy that lowers or restores ILIM by port temperature. -/
  | thermalDerating (p : Port)
  /-- CONTEXT_PINNING (R344). Built-in policy that pins contexts delayed in staging and unpins idle ones. -/
  | contextPinning (c : CtxIdx)
  /-- RADIO_PACING (R345). Built-in policy that adjusts PACE_RATE of bridge slots every 64 ticks. -/
  | radioPacing (b : BitVec 6)
  /-- LOAD_SHED_NOTICE (R346). Built-in policy that raises LOAD_SHED or LOAD_CLEAR from projected feeder demand. -/
  | loadShedNotice (sl : Slice) (f : BitVec 2)
  /-- TRACE_BLOCK (R351). A trace export stream writes a block of records as one descriptor. -/
  | traceBlock (k : BitVec 3)
  /-- ADMISSION_COMPLETE (R243). The admission unit finishes a request and commits its report. -/
  | admissionComplete
  /-- SWITCH_TICK (R246). At the switch tick the segment table and programs change together and transfers in progress are re-taken. -/
  | switchTick (p : Option Port)
  /-- WEAVER_GENERATE (R256). The weaver places registrations and generates a new program for the slice's weaver segment. -/
  | weaverGenerate (p : Port) (sl : Slice)
  /-- QUEUE_POLL (R271). A due poll makes the fetcher read new entries of the queue under its mode. -/
  | queuePoll (sl : Slice) (q : QNum) (own : List Bool)
  /-- ENTRY_FETCHED (R270). A fetched entry is checked for format and handle, and is accepted or completed MALFORMED. -/
  | entryFetched (sl : Slice) (q : QNum) (raw : List W64)
  /-- QPROD_WRITE (R274). A write of QPROD sets the producer index, or is ignored with BAD_DB. -/
  | qprodWrite (l : Link) (w : BitVec 4) (q : QNum) (v : W32)
  /-- ADMIN_CFG_WRITE (R292). A write of ADMIN_CFG configures the admin queue and starts or stops it. -/
  | adminCfgWrite (l : Link) (w : BitVec 4) (v : W32)
  /-- NOP_ENTRY (R267). Transfer-queue operation 0x00 moves nothing and completes SUCCESS. -/
  | nopEntry (sl : Slice) (q : QNum) (pos : BitVec 17)
  /-- TRANSFER (R267). Transfer-queue operation 0x01 moves LENGTH bytes on the endpoint of HANDLE. -/
  | transfer (sl : Slice) (q : QNum) (pos : BitVec 17)
  /-- CREATE_QUEUE (R287). Admin command that creates a transfer queue. -/
  | createQueue (sl : Slice)
  /-- DESTROY_QUEUE (R288). Admin command that stops a queue and withdraws its fetched and drawn work. -/
  | destroyQueue (sl : Slice)
  /-- QUEUE_MODE (R279). Admin command that sets a queue's mode and whether it runs. -/
  | queueMode (sl : Slice)
  /-- QUEUE_MODE_SWITCH (R279). Once every fetched entry is complete, a waiting mode change switches the queue's mode. -/
  | queueModeSwitch (sl : Slice) (q : QNum)
  /-- QUEUE_SET (R287). Admin command that replaces a queue's interval, priority, CEV and limits. -/
  | queueSet (sl : Slice)
  /-- ADMIT_WARP (R244). Admin command that submits a warp program for admission. -/
  | admitWarp (sl : Slice) (words : List W32)
  /-- WITHDRAW_WARP (R289). Admin command that withdraws the program of a non-weaver segment. -/
  | withdrawWarp (sl : Slice)
  /-- ADMIT_GRAPH (R347). Admin command that submits a steward graph image for admission. -/
  | admitGraph (sl : Slice) (image : List W64)
  /-- WITHDRAW_GRAPH (R349). Admin command that withdraws a graph at a switch tick. -/
  | withdrawGraph (sl : Slice)
  /-- REGISTER_PERIODIC (R253). Admin command that registers an endpoint for periodic service by the weaver. -/
  | registerPeriodic (sl : Slice)
  /-- WITHDRAW_PERIODIC (R289). Admin command that removes a periodic registration. -/
  | withdrawPeriodic (sl : Slice)
  /-- SET_WEFT_MIN (R253). Admin command that sets a port's WEFT_MIN. -/
  | setWeftMin (sl : Slice)
  /-- SET_PORT_SCHED (R230). Warden command that sets a port's segment table, TREE_ALLOW and TREE_POLL. -/
  | setPortSched (sl : Slice) (segs : List W32)
  /-- SET_TKT_TIMEOUT (R289). Admin command that sets an endpoint's ticket timeout. -/
  | setTktTimeout (sl : Slice)
  /-- SET_ADDR_PLAN (R165). Admin command that adds or removes an address plan entry. -/
  | setAddrPlan (sl : Slice)
  /-- PIN (R177). Admin command that pins a context in the cache. -/
  | pin (sl : Slice)
  /-- UNPIN (R177). Admin command that unpins a context. -/
  | unpin (sl : Slice)
  /-- READ_DEVICE (R289). Admin command that returns a device-table entry and the device's contexts. -/
  | readDevice (sl : Slice)
  /-- RESET_SEGMENT (R289). Admin command that resets a device's segment. -/
  | resetSegment (sl : Slice)
  /-- SET_CHANNEL (R296). Admin command that sets a channel's role, share, completion queue and QSHUF. -/
  | setChannel (sl : Slice)
  /-- GO (R308). CH_CTL GO starts or arms the shadow descriptor, or returns a QUEUE channel or a killed channel to IDLE. -/
  | go (l : Link) (w : BitVec 4) (c : Chan) (v : W32)
  /-- GO_CHAIN (R308). CH_CTL GO_CHAIN fetches the descriptor at the shadow's NEXT and then acts as GO. -/
  | goChain (l : Link) (w : BitVec 4) (c : Chan) (v : W32)
  /-- STOP (R310). CH_CTL STOP brings the channel to STOPPED at its next boundary. -/
  | stop (l : Link) (w : BitVec 4) (c : Chan) (v : W32)
  /-- KILL (R311). CH_CTL KILL stops the channel at once, drops its descriptors and owed records, and withdraws queue work. -/
  | kill (l : Link) (w : BitVec 4) (c : Chan) (v : W32)
  /-- SHADOW_WRITE (R308). A write to the shadow set is stored, or ignored with BUSY while ARMED. -/
  | shadowWrite (l : Link) (w : BitVec 4) (c : Chan) (k : BitVec 3) (v : W32)
  /-- CQ_CONS_WRITE (R312). A write of CQ_CONS frees completion-queue room and may release a PAUSED channel. -/
  | cqConsWrite (l : Link) (w : BitVec 4) (c : Chan) (v : W32)
  /-- BURST_ISSUE (R297). The rate limiter lets the channel issue its next burst in a direction. -/
  | burstIssue (c : Chan) (d : Dir) (cyc : Cycle)
  /-- DMA_READ_COMPLETION (R298). Completions of a channel read request return, and their data is placed. -/
  | dmaReadCompletion (c : Chan) (q : QNum) (pos : BitVec 17) (data : List Byte)
  /-- CHAIN_FETCH (R309). The descriptor at NEXT is fetched into the shadow set and ARMED is set, or the chain ends CHAIN_ERROR. -/
  | chainFetch (c : Chan) (d : Option (List W64))
  /-- DESCRIPTOR_END (R314). A descriptor's last write is issued, its record is owed, and an armed shadow starts or the channel pauses. -/
  | descriptorEnd (c : Chan)
  /-- DMA_READ_ERROR (R315). A read completing with an error ends the descriptor with READ_ERROR and stops the channel. -/
  | dmaReadError (c : Chan) (q : QNum) (pos : BitVec 17) (err : ReadError)
  /-- SET_BOUND (R352). Admin command that sets a bound pair. -/
  | setBound (sl : Slice)
  /-- SET_ACT_BOUND (R352). Admin command that sets the bounds of an actuator. -/
  | setActBound (sl : Slice)
  /-- GRAPH_CTL (R349). Admin command that stops or runs a graph. -/
  | graphCtl (sl : Slice)
  /-- SET_FLAG (R323). Admin command that sets a task flag. -/
  | setFlag (sl : Slice)
  /-- READ_TASK (R352). Admin command that returns a task's flags, mask, condition and state words. -/
  | readTask (sl : Slice)
  /-- READ_SNAPSHOT (R352). Admin command that returns items of the last committed snapshot. -/
  | readSnapshot (sl : Slice)
  /-- TRACE_EXPORT (R351). Admin command that starts or stops a trace export stream. -/
  | traceExport (sl : Slice)
  /-- READ_TRACE_STAT (R352). Admin command that returns a stream's TRACE_LOST and export count. -/
  | readTraceStat (sl : Slice)
  /-- DEFINE_SLICE (R360). Warden command that gives a FREE slice its resources and keys; entropy: the health tests of R376 pass. -/
  | defineSlice (sl : Slice) (record : List W64) (entropy : Bool)
  /-- RESIZE_SLICE (R366). Warden command that changes a slice's resources. -/
  | resizeSlice (sl : Slice) (record : List W64)
  /-- BIND_SLICE (R361). Warden command that binds a slice to a host link, window and PASID. -/
  | bindSlice (sl : Slice)
  /-- UNBIND_SLICE (R363). Warden command that unbinds a slice and discards its host-side state. -/
  | unbindSlice (sl : Slice)
  /-- FREEZE_SLICE (R380). Warden command that freezes a RUNNING slice. -/
  | freezeSlice (sl : Slice)
  /-- THAW_SLICE (R381). Warden command that thaws a bound FROZEN slice and extends its deadlines. -/
  | thawSlice (sl : Slice)
  /-- RELEASE_SLICE (R378). Warden command that releases a slice, zeroises its key and returns its resources to S0. -/
  | releaseSlice (sl : Slice)
  /-- SET_ATTACH (R388). Warden command that adds or removes an attach table entry. -/
  | setAttach (sl : Slice)
  /-- SET_IMAGE_KEK (R388). Warden command that loads a slice's image KEK. -/
  | setImageKek (sl : Slice) (data : List Byte)
  /-- SAVE_IMAGE (R385). Warden command that exports a FROZEN slice as an image; entropy: the health tests of R376 pass. -/
  | saveImage (sl : Slice) (entropy : Bool)
  /-- LOAD_IMAGE (R386). Warden command that reads an image into the staging area. -/
  | loadImage (sl : Slice)
  /-- IMAGE_VERIFY (R386). A loaded image is checked and staged as verified, or its record ends FORMAT. -/
  | imageVerify
  /-- RESTORE_IMAGE (R387). Warden command that restores the staged image into the named FREE slice; entropy: the health tests of R376
  pass. -/
  | restoreImage (sl : Slice) (entropy : Bool)
  /-- READ_SLICE (R388). Warden command that returns a slice record and its SLC_TABLE word. -/
  | readSlice (sl : Slice)
  /-- LINK_DOWN (R365). A host link's data link layer goes down and its bound slices are frozen with cause LINK_DOWN. -/
  | linkDown (l : Link) (reset : Bool)
  /-- LINK_UP (R365). A host link's data link layer comes up and slices with AUTO_THAW thaw. -/
  | linkUp (l : Link) (gts width : Nat)
  /-- PASID_ENABLE (R555). A change of PASID Enable holds or resumes the DMA of slices that share the link. -/
  | pasidEnable (l : Link) (on : Bool)
  /-- PAGE_FILL (R371). The gleaner zero-fills a page under its owner's key and the page becomes OWNED. -/
  | pageFill (pg : W16)
  /-- ECC_SCRUB (R373). The scrub reads DRAM lines and writes back corrected ciphertext. -/
  | eccScrub (lines : W16) (corrected : W16)
  /-- CHANNEL_RELEASE (R368). A channel withdrawn by a resize returns to S0 once it is STOPPED and its owed IN writes are issued. -/
  | channelRelease (c : Chan)
  /-- SET_SOURCE (R412). Admin command that sets enable and class of sources. -/
  | setSource (sl : Slice)
  /-- ROUTE_SOURCE (R412). Warden command that routes shared sources to a target slice. -/
  | routeSource (sl : Slice)
  /-- EQ_CONS_WRITE (R398). A write of EQ_CONS acknowledges records and sets the interrupt arm again. -/
  | eqConsWrite (l : Link) (w : BitVec 4) (v : W32)
  /-- EQ_CFG_WRITE (R403). A write of EQ_CFG configures the event queue and starts or stops it. -/
  | eqCfgWrite (l : Link) (w : BitVec 4) (v : W32)
  /-- EQ_CTL_WRITE (R406). A write of EQ_CTL MASK holds or releases the slice interrupt. -/
  | eqCtlWrite (l : Link) (w : BitVec 4) (v : W32)
  /-- GRP_MASK_WRITE (R407). A write of GRP_MASK masks groups at once and withdraws their unissued records. -/
  | grpMaskWrite (l : Link) (w : BitVec 4) (v : W32)
  /-- FB_ACK (R410). A write of FB_ACK frees fast-bank entries and sets the bank's arm again. -/
  | fbAck (l : Link) (v : W32)
  /-- FB_CFG_WRITE (R414). A write of FB_CFG sets FB_MASK and PRIV_EN, and clearing the mask may send the fast vector. -/
  | fbCfgWrite (l : Link) (v : W32)
  /-- D3HOT_ENTRY (R515). The host puts the function into D3hot and its slices' work is suspended. -/
  | d3hotEntry (l : Link) (pmeEn : Bool)
  /-- D0_RETURN (R515). The function returns to D0 and its slices resume as at a thaw. -/
  | d0Return (l : Link)
  /-- SET_PORT_PROFILE (R420). Admin command that sets a port's power setting from a profile. -/
  | setPortProfile (sl : Slice)
  /-- SET_PORT_DIRECT (R420). Admin command that sets a port's power parameters directly. -/
  | setPortDirect (sl : Slice)
  /-- PORT_POWER (R438). Admin command that sets PORT_ON. -/
  | portPower (sl : Slice)
  /-- PORT_REARM (R429). Admin command that ends a latched fault or running delay and moves the port to DETACHED. -/
  | portRearm (sl : Slice)
  /-- PASS_CLEAR (R432). Warden command that closes an open series relay and moves the port to DETACHED. -/
  | passClear (sl : Slice)
  /-- GATE_RAMP (R422). The e-fuse begins the gate ramp of a port committed to POWERING. -/
  | gateRamp (p : Port)
  /-- LIMIT (R423). The limiter engages at the foldback limit and the fault timer starts. -/
  | limit (p : Port) (amps vout vbus : W16) (cyc : Cycle)
  /-- RAMP_END (R424). At the end of RAMP_T the fuse asserts power-good, switches off with RAMP_FAIL, or waits. -/
  | rampEnd (p : Port) (vout vbus : W16) (cyc : Cycle)
  /-- POWER_GOOD (R424). Power-good asserts after the ramp when V_out reaches 90 % with the limiter released. -/
  | powerGood (p : Port) (vout vbus : W16) (cyc : Cycle)
  /-- PG_TIMEOUT (R424). Power-good has not asserted by RAMP_T + FAULT_T, and the gate switches off. -/
  | pgTimeout (p : Port) (cyc : Cycle)
  /-- FAULT_TIMER (R423). The fault timer reaches FAULT_T and the gate switches off. -/
  | faultTimer (p : Port) (cyc : Cycle)
  /-- SHORT_TRIP (R426). Port current above 1.60 A for 2 µs switches the gate off. -/
  | shortTrip (p : Port) (amps ns : W16) (cyc : Cycle)
  /-- OVERLOAD (R426). Power above PWR_MAX in 400 consecutive ticks switches the gate off. -/
  | overload (p : Port) (cyc : Cycle)
  /-- THERMAL (R431). Sensor or model temperature reaching 150.0 °C switches the gate off. -/
  | thermal (p : Port) (sensor board : W16) (amps vout vbus us : W16) (cyc : Cycle)
  /-- PASS_FAIL (R432). An output node above 10 V with the gate off opens the series relay and latches PASS_FAIL. -/
  | passFail (p : Port) (vout : W16) (us : W16) (cyc : Cycle)
  /-- RETRY (R427). After the retry delay, a faulted port moves to DETACHED to try again. -/
  | retry (p : Port)
  /-- RETRY_COUNT_CLEAR (R427). The retry count returns to 0 after the port has stayed powered for 80,000 ticks. -/
  | retryCountClear (p : Port)
  /-- OVERLOAD_SHED (R434). The overload sequencer sheds the next port when total port power exceeds 415 W in 2 ticks. -/
  | overloadShed (cyc : Cycle)
  /-- MAINS_SHED (R435). After mains loss, the sequencer sheds ports as the port bus falls below 47.0 V or 44.5 V. -/
  | mainsShed (bus : W16) (cyc : Cycle)
  /-- MAINS_LOST (R448). Loss of input is declared, the supply enters HOLDUP and POWER_NOTICE falls due. -/
  | mainsLost (bulk : Bool)
  /-- LAST_GASP (R449). The bank first carries the internal rail and listed domains are put into retention. -/
  | lastGasp
  /-- MAINS_BACK (R450). The input is qualified again in HOLDUP or LAST_GASP and the supply returns to NORMAL. -/
  | mainsBack
  /-- POWER_DOWN (R451). The bank falls to 15 J and the module makes its journal durable and switches its domains off. -/
  | powerDown
  /-- BANK_FAULT (R444). The bank has not reached 60 J within 60 s of charging. -/
  | bankFault
  /-- COLD_START (R464). At AON release the module selects its clock, wakes PD9 and PD7 and restores the journal. -/
  | coldStart
  /-- PD_REQUEST (R457). A write of PD_CTL REQ requests a domain state, which is carried out or refused. -/
  | pdRequest (l : Link) (d : Dom) (v : W32)
  /-- PD_RESET (R462). PD_CTL RESET switches the domain and its dependants off and wakes them from OFF. -/
  | pdReset (l : Link) (d : Dom) (v : W32)
  /-- CLEAR_Q (R460). PD_CTL CLEAR_Q ends a quarantine and starts a fresh wake. -/
  | clearQ (l : Link) (d : Dom) (v : W32)
  /-- DOMAIN_WAKE (R458). A wake cause begins a wake of a domain in retention together with the domains it requires. -/
  | domainWake (d : Dom) (cause : BitVec 3) (cyc : Cycle)
  /-- DOMAIN_POWER_GOOD (R459). A waking domain reports power-good within its attempt and becomes ON or RESTORING. -/
  | domainPowerGood (d : Dom) (cyc : Cycle)
  /-- WAKE_ATTEMPT_FAIL (R459). A wake attempt passes 500 µs without power-good and the next attempt follows after a back-off. -/
  | wakeAttemptFail (d : Dom) (clock : Bool) (cyc : Cycle)
  /-- DOMAIN_RESTORED (R461). A RESTORING domain has rebuilt its state and becomes ON. -/
  | domainRestored (d : Dom)
  /-- AUTO_RETENTION (R462). With AUTO set, a domain enters retention after its conditions have held for 64 ticks. -/
  | autoRetention (d : Dom) (l1 : Bool)
  /-- METRO_FRAME (R476). A frame from the NM-3 is received and checked, and its values and any completed page set are taken in. -/
  | metroFrame (bytes : List Byte)
  /-- CARTRIDGE_PRESENT (R476). After 8 consecutive valid frames the cartridge is declared present and P16 is enumerated. -/
  | cartridgePresent
  /-- CARTRIDGE_ABSENT (R476). After 8 ticks without a valid frame the cartridge is declared absent and the P16 device detaches. -/
  | cartridgeAbsent
  /-- P16_TRANSFER (R485). The P16 responder completes an eligible P16 entry from the committed cartridge values. -/
  | p16Transfer (sl : Slice) (q : QNum) (pos : BitVec 17)
  /-- RAW_CTL_WRITE (R489). A write of RAW_CTL starts or stops a raw sample stream, or is refused. -/
  | rawCtlWrite (l : Link) (w : BitVec 4) (v : W32)
  /-- RAW_BLOCK (R489). A raw sample stream writes a 4,096-byte block as one descriptor, or loses it. -/
  | rawBlock (sl : Slice)
  /-- IND_DATA_ACCESS (R506). An access to IND_DATA reads or writes the indirect register at IND_ADDR and increments IND_ADDR. -/
  | indDataAccess (l : Link) (w : Option W32)
  /-- UNSUPPORTED_REQUEST (R498). An access to a reserved or unimplemented location, or of a bad size, receives Unsupported Request and is logged. -/
  | unsupportedRequest (a : BarAccess)
  /-- CLEAR_ON_READ (R504). A read of an RC register clears the returned bits when it comes from the link of the source's target. -/
  | clearOnRead (l : Link) (off : BarOff) (qword : Bool)
  /-- INJ_CTL_WRITE (R521). A warden write of INJ_CTL arms or cancels injection at a detector. -/
  | injCtlWrite (l : Link) (d : Detector) (v : W32)
  /-- INJECTION (R521). An armed injection point forces its fault at cycle CYCLE, or skips the tick. -/
  | injection (d : Detector)
  /-- TDR_PROBE (R525). The line probe runs TDR shots outside slots every TDR_INTERVAL ticks and reports a result. -/
  | tdrProbe (p : Port) (slot : Option (BitVec 14)) (res : TdrEnd) (cyc : Cycle)
  /-- IR_RESULT (R527). The insulation measurement reports a result every 3,200 ticks. -/
  | irResult (p : Port) (kohm : W32)
  /-- SURGE_MAINS (R528). A mains excursion above 1,000 V to earth is counted and logged. -/
  | surgeMains (v : W16)
  /-- WATCHMAN_REQUEST (R532). A watchman frame is received and checked for CRC, address, MAC and SEQ before its command acts. -/
  | watchmanRequest (bytes : List Byte)
  /-- LOCKOUT_END (R532). The 600 s watchman lockout expires. -/
  | lockoutEnd
  /-- BYTE_GAP_TIMEOUT (R531). A gap of more than 20 ms between bytes discards the watchman frame. -/
  | byteGapTimeout
  /-- GET_SEQ (R533). Watchman command that returns WM_SEQ and the serial number. -/
  | getSeq
  /-- READ_DIGEST (R537). Watchman command that returns the 256-byte station digest. -/
  | readDigest
  /-- POWER_CYCLE_PORT (R534). Watchman command that switches a port off with OFF_CMD for a given time. -/
  | powerCyclePort
  /-- POWER_CYCLE_RESTORE (R534). After the off time, PORT_REARM and PORT_ON 1 are committed together. -/
  | powerCycleRestore (p : Port)
  /-- RESET_DOMAIN (R534). Watchman command that resets a domain or clears its quarantine. -/
  | resetDomain
  /-- WARDEN_LINK (R364). Watchman command that moves S0 to another warden link. -/
  | wardenLink
  /-- READ_LOG (R533). Watchman command that returns AON log records. -/
  | readLog
  /-- COMMISSION (R536). Watchman command that sets the warden key and warden link of an uncommissioned module. -/
  | commission
  /-- REKEY (R536). Watchman command that replaces the warden key. -/
  | rekey
  /-- POWER_APPLIED (R464). Power is applied to the mains terminals, AON is powered from the internal rail and the supply enters START. -/
  | powerApplied
  /-- INPUT_QUALIFIED (R446). The input has stayed within the AC or DC range for 50 ms (or leaves it), setting or clearing INPUT_OK and, in START, starting the PFC stage and bank charger. -/
  | inputQualified (ok dc : Bool)
  /-- BANK_READY (R444). The last-gasp bank charges to 60 J, setting BANK_READY in SUP_STAT and SUP_EVENT. -/
  | bankReady
  /-- LIMITER_RELEASE (R423). The port current falls below the foldback limit, the limiter releases and, after 1 ms released without a break, the fault timer returns to 0. -/
  | limiterRelease (p : Port) (amps vout vbus : W16) (cyc : Cycle)
  /-- CODE_VIOLATION (R103). A port receiver sees a code violation, sets CODE_ERR in LINK_EVENT and counts it in CODE_VIOL. -/
  | codeViolation (p : Port)
  /-- COMPLETION_TIMEOUT (R511). A read request issued by the module receives no completion in time, setting CPL_TIMEOUT in LINK_ERR and reporting it through AER. -/
  | completionTimeout (l : Link)
  /-- ECRC_FAILURE (R511). A received TLP fails its ECRC check and is discarded, setting ECRC in LINK_ERR. -/
  | ecrcFailure (l : Link)
  /-- POISONED_WRITE (R511). A poisoned write to BAR0 arrives and is discarded, setting POISONED in LINK_ERR. -/
  | poisonedWrite (l : Link)
deriving DecidableEq, Repr

end Sys2Proof
end

