-- ==== Sys2Proof/WellFormed.lean ====
section
/-! DEFINITION. Which commands are well formed: the field ranges that the spec gives their operands, and for a
Coresh instruction the unit that runs it and the encodings R194 to R197 accept. -/
namespace Sys2Proof

/-- A unit is a loom thread. -/
def CUnit.isLoom : CUnit → Bool
  | .loom _ => true
  | .core _ => false

/-- SEL of RDS is defined for the unit (R197). -/
def selOk (u : CUnit) (sel : BitVec 4) : Bool :=
  match sel.toNat with
  | 0 | 1 | 2 | 4 => true
  | 3 | 5 => u.isLoom
  | 6 | 7 => !u.isLoom
  | _ => false

/-- COND is defined (R196). -/
def condOk (c : BitVec 3) : Bool := decide (c.toNat < 6)

/-- WORD and H of LDC and STC are in range for the unit (R202, R203). -/
def wordOk (u : CUnit) (word : BitVec 4) (h : Bool) : Bool :=
  if u.isLoom then decide (word.toNat < 8) else !h

/-- The operands of RAISE are those of the unit (R194 format E). -/
def raiseOk (u : CUnit) : RaiseOp → Bool
  | .event _ _ => u.isLoom
  | .flag _ _ => !u.isLoom

/-- A Coresh instruction has a valid encoding for its unit (R194 to R197, R206); the other commands are no
Coresh instruction (log entry 71). -/
def Instr.coreshWf : Instr → Bool
  | .nop _ _ | .endRun _ _ => true
  | .add _ _ _ _ _ | .sub _ _ _ _ _ | .and _ _ _ _ _ | .or _ _ _ _ _ | .xor _ _ _ _ _ => true
  | .shl _ _ _ _ _ | .shr _ _ _ _ _ | .sar _ _ _ _ _ | .min _ _ _ _ _ | .max _ _ _ _ _ | .mul _ _ _ _ _ => true
  | .addi _ _ _ _ _ | .andi _ _ _ _ _ | .ori _ _ _ _ _ | .xori _ _ _ _ _ => true
  | .shli _ _ _ _ imm | .shri _ _ _ _ imm => decide (imm.toNat < 32)
  | .movi _ _ _ _ | .movhi _ _ _ _ => true
  | .cmp _ _ _ c _ _ => condOk c
  | .cmpi _ _ _ c _ _ => condOk c
  | .plog _ _ _ _ _ _ => true
  | .rds u _ _ sel => selOk u sel
  | .br _ _ _ | .loop _ _ _ _ _ => true
  | .await u _ mode _ _ => if u.isLoom then decide (mode.toNat < 2) else decide (2 ≤ mode.toNat)
  | .raise u _ op => raiseOk u op
  | .selc _ _ | .selcr _ _ _ => true
  | .ldc u _ _ word h | .stc u _ _ word h => wordOk u word h
  | .poll _ _ _ cnt rty _ | .ping _ _ _ cnt rty _ | .suspend _ _ _ cnt rty _ | .resume _ _ _ cnt rty _ =>
    cnt == 0 && rty == 0
  | .take _ _ _ _ _ _ | .give _ _ _ _ _ _ | .setup _ _ _ _ _ _ | .defer _ _ _ _ _ _ => true
  | .probe _ _ _ _ | .weave _ _ _ _ => true
  | .snap _ _ _ _ | .bound _ _ _ _ _ | .act _ _ _ _ | .ema _ _ _ _ _ | .timer _ _ _ _ _ | .flow _ _ _ _
  | .trace _ _ _ => true
  | _ => false

/-- A command is a Coresh instruction: one of the rows that R195 lists. -/
def Instr.isCoresh : Instr → Bool
  | .nop _ _ | .endRun _ _ => true
  | .add _ _ _ _ _ | .sub _ _ _ _ _ | .and _ _ _ _ _ | .or _ _ _ _ _ | .xor _ _ _ _ _ => true
  | .shl _ _ _ _ _ | .shr _ _ _ _ _ | .sar _ _ _ _ _ | .min _ _ _ _ _ | .max _ _ _ _ _ | .mul _ _ _ _ _ => true
  | .addi _ _ _ _ _ | .andi _ _ _ _ _ | .ori _ _ _ _ _ | .xori _ _ _ _ _ => true
  | .shli _ _ _ _ _ | .shri _ _ _ _ _ => true
  | .movi _ _ _ _ | .movhi _ _ _ _ => true
  | .cmp _ _ _ _ _ _ | .cmpi _ _ _ _ _ _ | .plog _ _ _ _ _ _ | .rds _ _ _ _ => true
  | .br _ _ _ | .loop _ _ _ _ _ | .await _ _ _ _ _ | .raise _ _ _ | .selc _ _ | .selcr _ _ _ => true
  | .ldc _ _ _ _ _ | .stc _ _ _ _ _ => true
  | .poll _ _ _ _ _ _ | .ping _ _ _ _ _ _ | .suspend _ _ _ _ _ _ | .resume _ _ _ _ _ _ => true
  | .take _ _ _ _ _ _ | .give _ _ _ _ _ _ | .setup _ _ _ _ _ _ | .defer _ _ _ _ _ _ => true
  | .probe _ _ _ _ | .weave _ _ _ _ => true
  | .snap _ _ _ _ | .bound _ _ _ _ _ | .act _ _ _ _ | .ema _ _ _ _ _ | .timer _ _ _ _ _ | .flow _ _ _ _
  | .trace _ _ _ => true
  | _ => false

/-- A cycle of the tick, 0 to 12,499 (R7). -/
def cycOk (c : Cycle) : Bool := decide (c.toNat < 12500)

/-- The operands of a command lie in the ranges the spec gives them. -/
def Instr.wf (i : Instr) : Bool :=
  if i.isCoresh then i.coreshWf else
  match i with
  | .ppsEdge c _ | .ppsHoldover c | .wkp _ c | .surge _ _ c | .flowRelease _ c | .responseTimeout _ c | .wireSequenceEnd _ _ c | .detectorReport _ _ _ _ c => cycOk c
  | .treeService _ _ c | .burstIssue _ _ c | .limit _ _ _ _ c | .rampEnd _ _ _ c | .powerGood _ _ _ c | .pgTimeout _ c => cycOk c
  | .faultTimer _ c | .shortTrip _ _ _ c | .overload _ c | .thermal _ _ _ _ _ _ _ c | .passFail _ _ _ c => cycOk c
  | .overloadShed c | .mainsShed _ c | .limiterRelease _ _ _ _ c | .tdrProbe _ _ _ c => cycOk c
  | .domainWake _ _ c | .domainPowerGood _ c | .wakeAttemptFail _ _ c => cycOk c
  | .linkReset _ _ v => v.getLsbD 0
  | .linkSuspend _ _ v => v.getLsbD 1
  | .linkResume _ _ v => v.getLsbD 2
  | .linkDisable _ _ v => v.getLsbD 5
  | .linkEnable _ _ v => !v.getLsbD 5
  | .go _ _ _ v => v.getLsbD 0
  | .goChain _ _ _ v => v.getLsbD 1
  | .stop _ _ _ v => v.getLsbD 2
  | .kill _ _ _ v => v.getLsbD 3
  | .pdReset _ _ v => v.getLsbD 3
  | .clearQ _ _ v => v.getLsbD 4
  | .defineSlice _ r _ | .resizeSlice _ r => r.length == 16
  | .setPortSched _ s => s.length == 8
  | .setImageKek _ d => d.length == 48
  | .chainFetch _ (some d) => d.length == 4
  | _ => true

end Sys2Proof
end

