-- ==== Sys2Proof/Decode.lean ====
section
/-! DEFINITION. Reading and writing of words: `decodeTableWord` over the opcode table (whose rows give no bits),
and the 32-bit instruction word of Coresh (R193 to R195), which the admission unit checks and the machines run. -/
namespace Sys2Proof

/-- No row of spec/opcode_table.json gives bits (every `fields` is empty), so no word spells a command (log entry 1). -/
def decodeTableWord (nbits w : Nat) : Option Instr :=
  match nbits, w with
  | _, _ => none

/-- Bits [lo + n - 1 : lo] of a word. -/
def bitsAt (w : W32) (lo n : Nat) : BitVec n := BitVec.ofNat n (w.toNat / 2 ^ lo)

/-- Bit [lo] of a word. -/
def bitAt (w : W32) (lo : Nat) : Bool := w.toNat / 2 ^ lo % 2 == 1

/-- The number of a bit. -/
def bitNat (b : Bool) : Nat := if b then 1 else 0

/-- The word of an opcode, its guard and its operand bits [22:0] (R193). -/
def coreshWord (op : Nat) (gd : Guard) (low : Nat) : W32 :=
  BitVec.ofNat 32 (op * 2 ^ 26 + bitNat gd.neg * 2 ^ 25 + gd.pr.toNat * 2 ^ 23 + low)

/-- The operand bits of format R (R194). -/
def lowR (d a b : Reg) : Nat := d.toNat * 2 ^ 19 + a.toNat * 2 ^ 15 + b.toNat * 2 ^ 11
/-- The operand bits of format I (R194). -/
def lowI (d a : Reg) (imm : BitVec 15) : Nat := d.toNat * 2 ^ 19 + a.toNat * 2 ^ 15 + imm.toNat
/-- The operand bits of format B (R194). -/
def lowB (d : Reg) (cnt : BitVec 3) (rty : BitVec 2) (e : Reg) : Nat :=
  d.toNat * 2 ^ 19 + cnt.toNat * 2 ^ 16 + rty.toNat * 2 ^ 14 + e.toNat * 2 ^ 10
/-- The operand bits of format T (R194). -/
def lowT (d : Reg) (val : BitVec 14) : Nat := d.toNat * 2 ^ 19 + val.toNat

/-- The instruction word of a Coresh instruction (R193 to R195); none for the other commands. -/
def encodeCoresh : Instr → Option W32
  | .nop _ gd => some (coreshWord 0x00 gd 0)
  | .endRun _ gd => some (coreshWord 0x01 gd 0)
  | .add _ gd d a b => some (coreshWord 0x02 gd (lowR d a b))
  | .sub _ gd d a b => some (coreshWord 0x03 gd (lowR d a b))
  | .and _ gd d a b => some (coreshWord 0x04 gd (lowR d a b))
  | .or _ gd d a b => some (coreshWord 0x05 gd (lowR d a b))
  | .xor _ gd d a b => some (coreshWord 0x06 gd (lowR d a b))
  | .shl _ gd d a b => some (coreshWord 0x07 gd (lowR d a b))
  | .shr _ gd d a b => some (coreshWord 0x08 gd (lowR d a b))
  | .sar _ gd d a b => some (coreshWord 0x09 gd (lowR d a b))
  | .min _ gd d a b => some (coreshWord 0x0A gd (lowR d a b))
  | .max _ gd d a b => some (coreshWord 0x0B gd (lowR d a b))
  | .mul _ gd d a b => some (coreshWord 0x0C gd (lowR d a b))
  | .addi _ gd d a imm => some (coreshWord 0x0D gd (lowI d a imm))
  | .andi _ gd d a imm => some (coreshWord 0x0E gd (lowI d a imm))
  | .ori _ gd d a imm => some (coreshWord 0x0F gd (lowI d a imm))
  | .xori _ gd d a imm => some (coreshWord 0x10 gd (lowI d a imm))
  | .shli _ gd d a imm => some (coreshWord 0x11 gd (lowI d a imm))
  | .shri _ gd d a imm => some (coreshWord 0x12 gd (lowI d a imm))
  | .movi _ gd d imm => some (coreshWord 0x13 gd (d.toNat * 2 ^ 19 + imm.toNat))
  | .movhi _ gd d imm => some (coreshWord 0x14 gd (d.toNat * 2 ^ 19 + imm.toNat))
  | .cmp _ gd pd cond a b => some (coreshWord 0x15 gd (pd.toNat * 2 ^ 21 + cond.toNat * 2 ^ 18 + a.toNat * 2 ^ 14 + b.toNat * 2 ^ 10))
  | .cmpi _ gd pd cond a imm => some (coreshWord 0x16 gd (pd.toNat * 2 ^ 21 + cond.toNat * 2 ^ 18 + a.toNat * 2 ^ 14 + imm.toNat))
  | .plog _ gd pd pa pb fn => some (coreshWord 0x17 gd (pd.toNat * 2 ^ 21 + pa.toNat * 2 ^ 19 + pb.toNat * 2 ^ 17 + fn.toNat * 2 ^ 15))
  | .rds _ gd d sel => some (coreshWord 0x18 gd (d.toNat * 2 ^ 19 + sel.toNat))
  | .br _ gd off => some (coreshWord 0x19 gd off.toNat)
  | .loop _ gd d n len => some (coreshWord 0x1A gd (d.toNat * 2 ^ 19 + n.toNat * 2 ^ 11 + len.toNat))
  | .await _ gd mode a cyc => some (coreshWord 0x1B gd (mode.toNat * 2 ^ 21 + a.toNat * 2 ^ 15 + cyc.toNat))
  | .raise _ gd (.event code a) => some (coreshWord 0x1C gd (code.toNat * 2 ^ 15 + a.toNat * 2 ^ 11))
  | .raise _ gd (.flag t flag) => some (coreshWord 0x1C gd (t.toNat * 2 ^ 11 + flag.toNat * 2 ^ 6))
  | .selc _ idx => some (BitVec.ofNat 32 (0x1D * 2 ^ 26 + idx.toNat))
  | .selcr _ gd off => some (coreshWord 0x1E gd off.toNat)
  | .ldc _ gd d word h => some (coreshWord 0x1F gd (d.toNat * 2 ^ 19 + word.toNat * 2 ^ 3 + bitNat h * 2 ^ 2))
  | .stc _ gd a word h => some (coreshWord 0x20 gd (a.toNat * 2 ^ 15 + word.toNat * 2 ^ 3 + bitNat h * 2 ^ 2))
  | .poll _ gd d cnt rty e => some (coreshWord 0x21 gd (lowB d cnt rty e))
  | .take _ gd d cnt rty e => some (coreshWord 0x22 gd (lowB d cnt rty e))
  | .give _ gd d cnt rty e => some (coreshWord 0x23 gd (lowB d cnt rty e))
  | .setup _ gd d cnt rty e => some (coreshWord 0x24 gd (lowB d cnt rty e))
  | .ping _ gd d cnt rty e => some (coreshWord 0x25 gd (lowB d cnt rty e))
  | .defer _ gd d cnt rty e => some (coreshWord 0x26 gd (lowB d cnt rty e))
  | .suspend _ gd d cnt rty e => some (coreshWord 0x27 gd (lowB d cnt rty e))
  | .resume _ gd d cnt rty e => some (coreshWord 0x28 gd (lowB d cnt rty e))
  | .probe _ gd d val => some (coreshWord 0x29 gd (lowT d val))
  | .weave _ gd d val => some (coreshWord 0x2A gd (lowT d val))
  | .snap _ gd d item => some (coreshWord 0x30 gd (d.toNat * 2 ^ 19 + item.toNat))
  | .bound _ gd d a bnd => some (coreshWord 0x31 gd (d.toNat * 2 ^ 19 + a.toNat * 2 ^ 15 + bnd.toNat))
  | .act _ gd a actr => some (coreshWord 0x32 gd (a.toNat * 2 ^ 15 + actr.toNat))
  | .ema _ gd d a k => some (coreshWord 0x33 gd (d.toNat * 2 ^ 19 + a.toNat * 2 ^ 15 + k.toNat))
  | .timer _ gd t flag a => some (coreshWord 0x34 gd (t.toNat * 2 ^ 11 + flag.toNat * 2 ^ 6 + a.toNat * 2 ^ 2))
  | .flow _ gd f a => some (coreshWord 0x35 gd (f.toNat * 2 ^ 15 + a.toNat * 2 ^ 11))
  | .trace _ gd a => some (coreshWord 0x36 gd (a.toNat * 2 ^ 15))
  | _ => none

/-- The instruction of opcode `op` that both units run, its fields taken from the word (R194, R195). -/
def fieldsBoth (u : CUnit) (op : Nat) (w : W32) (gd : Guard) (d a b : Reg) : Option Instr :=
  match op with
  | 0 => some (.nop u gd)
  | 1 => some (.endRun u gd)
  | 2 => some (.add u gd d a b)
  | 3 => some (.sub u gd d a b)
  | 4 => some (.and u gd d a b)
  | 5 => some (.or u gd d a b)
  | 6 => some (.xor u gd d a b)
  | 7 => some (.shl u gd d a b)
  | 8 => some (.shr u gd d a b)
  | 9 => some (.sar u gd d a b)
  | 10 => some (.min u gd d a b)
  | 11 => some (.max u gd d a b)
  | 12 => some (.mul u gd d a b)
  | 13 => some (.addi u gd d a (bitsAt w 0 15))
  | 14 => some (.andi u gd d a (bitsAt w 0 15))
  | 15 => some (.ori u gd d a (bitsAt w 0 15))
  | 16 => some (.xori u gd d a (bitsAt w 0 15))
  | 17 => some (.shli u gd d a (bitsAt w 0 15))
  | 18 => some (.shri u gd d a (bitsAt w 0 15))
  | 19 => some (.movi u gd d (bitsAt w 0 16))
  | 20 => some (.movhi u gd d (bitsAt w 0 16))
  | 21 => some (.cmp u gd (bitsAt w 21 2) (bitsAt w 18 3) (bitsAt w 14 4) (bitsAt w 10 4))
  | 22 => some (.cmpi u gd (bitsAt w 21 2) (bitsAt w 18 3) (bitsAt w 14 4) (bitsAt w 0 14))
  | 23 => some (.plog u gd (bitsAt w 21 2) (bitsAt w 19 2) (bitsAt w 17 2) (bitsAt w 15 2))
  | 24 => some (.rds u gd d (bitsAt w 0 4))
  | 25 => some (.br u gd (bitsAt w 0 16))
  | 26 => some (.loop u gd d (bitsAt w 11 8) (bitsAt w 0 11))
  | 27 => some (.await u gd (bitsAt w 21 2) a (bitsAt w 0 14))
  | 31 => some (.ldc u gd d (bitsAt w 3 4) (bitAt w 2))
  | 32 => some (.stc u gd a (bitsAt w 3 4) (bitAt w 2))
  | _ => none

/-- The instruction of opcode `op` that only a loom runs, or that takes loom operands (R194, R195). -/
def fieldsLoom (p : Port) (op : Nat) (w : W32) (gd : Guard) (d : Reg) : Option Instr :=
  match op with
  | 28 => some (.raise (.loom p) gd (.event (bitsAt w 15 8) (bitsAt w 11 4)))
  | 29 => some (.selc p (bitsAt w 0 23))
  | 30 => some (.selcr p gd (bitsAt w 0 16))
  | 33 => some (.poll p gd d (bitsAt w 16 3) (bitsAt w 14 2) (bitsAt w 10 4))
  | 34 => some (.take p gd d (bitsAt w 16 3) (bitsAt w 14 2) (bitsAt w 10 4))
  | 35 => some (.give p gd d (bitsAt w 16 3) (bitsAt w 14 2) (bitsAt w 10 4))
  | 36 => some (.setup p gd d (bitsAt w 16 3) (bitsAt w 14 2) (bitsAt w 10 4))
  | 37 => some (.ping p gd d (bitsAt w 16 3) (bitsAt w 14 2) (bitsAt w 10 4))
  | 38 => some (.defer p gd d (bitsAt w 16 3) (bitsAt w 14 2) (bitsAt w 10 4))
  | 39 => some (.suspend p gd d (bitsAt w 16 3) (bitsAt w 14 2) (bitsAt w 10 4))
  | 40 => some (.resume p gd d (bitsAt w 16 3) (bitsAt w 14 2) (bitsAt w 10 4))
  | 41 => some (.probe p gd d (bitsAt w 0 14))
  | 42 => some (.weave p gd d (bitsAt w 0 14))
  | _ => none

/-- The instruction of opcode `op` that only a steward core runs, or that takes steward operands (R194, R195). -/
def fieldsCore (c : Core) (op : Nat) (w : W32) (gd : Guard) (d a : Reg) : Option Instr :=
  match op with
  | 28 => some (.raise (.core c) gd (.flag (bitsAt w 11 12) (bitsAt w 6 5)))
  | 48 => some (.snap c gd d (bitsAt w 0 16))
  | 49 => some (.bound c gd d a (bitsAt w 0 11))
  | 50 => some (.act c gd a (bitsAt w 0 15))
  | 51 => some (.ema c gd d a (bitsAt w 0 5))
  | 52 => some (.timer c gd (bitsAt w 11 12) (bitsAt w 6 5) (bitsAt w 2 4))
  | 53 => some (.flow c gd (bitsAt w 15 8) (bitsAt w 11 4))
  | 54 => some (.trace c gd a)
  | _ => none

/-- The fields of a word under the opcode in bits [31:26] (R193), before the checks of R194 to R197. -/
def coreshFields (u : CUnit) (w : W32) : Option Instr :=
  let op := (bitsAt w 26 6).toNat
  let gd : Guard := { neg := bitAt w 25, pr := bitsAt w 23 2 }
  let d := bitsAt w 19 4
  let a := bitsAt w 15 4
  let b := bitsAt w 11 4
  match fieldsBoth u op w gd d a b with
  | some i => some i
  | none =>
    match u with
    | .loom p => fieldsLoom p op w gd d
    | .core c => fieldsCore c op w gd d a

/-- The Coresh decoder of a unit: the instruction whose word is exactly `w`, so that every bit shown as 0 is 0
(R194), with its fields in range for the unit (R195 to R197). Reserved opcodes give none. -/
def decodeCoresh (u : CUnit) (w : W32) : Option Instr :=
  match coreshFields u w with
  | some i => if encodeCoresh i = some w ∧ i.coreshWf = true then some i else none
  | none => none

end Sys2Proof
end

