-- ==== Sys2Proof/Machine/Store.lean ====
section
/-! DEFINITION. How the model keeps numbered things and things in two versions: `Tab`, a table by number that
lists only the entries something has set, and `Ver`, an item with a committed and a pending slot (R28, R30). -/
namespace Sys2Proof.Machine

/-- A table by number: pairs of number and value, numbers strictly rising. A number not listed holds the default
that its reader names. -/
abbrev Tab (α : Type) := List (Nat × α)

/-- The entry of number `k`, or `d` where the table lists none. -/
def Tab.get {α : Type} (d : α) : Tab α → Nat → α
  | [], _ => d
  | (j, x) :: t, k => if j = k then x else Tab.get d t k

/-- The entry of number `k`, if the table lists one. -/
def Tab.find {α : Type} : Tab α → Nat → Option α
  | [], _ => none
  | (j, x) :: t, k => if j = k then some x else Tab.find t k

/-- Sets the entry of number `k`, keeping the numbers in rising order. -/
def Tab.set {α : Type} : Tab α → Nat → α → Tab α
  | [], k, x => [(k, x)]
  | (j, y) :: t, k, x =>
    if k < j then (k, x) :: (j, y) :: t
    else if k = j then (k, x) :: t
    else (j, y) :: Tab.set t k x

/-- Takes the entry of number `k` out of the table. -/
def Tab.del {α : Type} (t : Tab α) (k : Nat) : Tab α := t.filter (fun e => e.1 != k)

/-- Changes the entry of number `k` by `f`, starting from `d` where the table lists none. -/
def Tab.upd {α : Type} (d : α) (t : Tab α) (k : Nat) (f : α → α) : Tab α := t.set k (f (t.get d k))

/-- Applies `f` to every listed entry. -/
def Tab.mapV {α β : Type} (f : α → β) (t : Tab α) : Tab β := t.map (fun e => (e.1, f e.2))

/-- Applies `f`, which also sees the number, to every listed entry. -/
def Tab.mapK {α β : Type} (f : Nat → α → β) (t : Tab α) : Tab β := t.map (fun e => (e.1, f e.1 e.2))

/-- The numbers of a table are strictly rising. -/
def Tab.wf {α : Type} (t : Tab α) : Bool :=
  match t with
  | [] => true
  | [_] => true
  | a :: b :: t => decide (a.1 < b.1) && Tab.wf (b :: t)

/-- An item held in two versions (R30): the committed slot, and the pending slot with its tag when the
pending-valid bit is set (log entry 70). -/
structure Ver (α : Type) where
  com : α
  pend : Option (W16 × α) := none
deriving DecidableEq, Repr

/-- The pending tag of an epoch: its low 16 bits (R30). -/
def tagOf (epoch : W32) : W16 := epoch.setWidth 16

/-- What the module itself works on: the pending slot when valid, else the committed slot (R28, R30). -/
def Ver.cur {α : Type} (v : Ver α) : α :=
  match v.pend with
  | some (_, x) => x
  | none => v.com

/-- The committed version at an epoch (R30): a pending slot of another tag counts as folded. -/
def Ver.comAt {α : Type} (e : W32) (v : Ver α) : α :=
  match v.pend with
  | some (t, x) => if t = tagOf e then v.com else x
  | none => v.com

/-- Folding (R30, R31): a pending slot whose tag differs from the epoch becomes the committed slot. -/
def Ver.fold {α : Type} (e : W32) (v : Ver α) : Ver α :=
  match v.pend with
  | some (t, x) => if t = tagOf e then v else { com := x, pend := none }
  | none => v

/-- A write of the item in the tick (R30): fold first, then the pending slot with the epoch's tag. -/
def Ver.put {α : Type} (e : W32) (x : α) (v : Ver α) : Ver α :=
  { com := v.comAt e, pend := some (tagOf e, x) }

/-- A change of the item in the tick: the working value changed by `f`. -/
def Ver.upd {α : Type} (e : W32) (f : α → α) (v : Ver α) : Ver α := v.put e (f v.cur)

/-- The flash clear of an abandoned tick (R30): the pending slot written in this epoch is dropped.
DEDUCED: a slot of an earlier epoch that has not been folded yet is committed state and stays (log entry 4). -/
def Ver.drop {α : Type} (e : W32) (v : Ver α) : Ver α :=
  match v.pend with
  | some (t, _) => if t = tagOf e then { com := v.com, pend := none } else v
  | none => v

/-- A change of both versions, for what is not rolled back (R29). -/
def Ver.both {α : Type} (f : α → α) (v : Ver α) : Ver α :=
  { com := f v.com, pend := v.pend.map (fun p => (p.1, f p.2)) }

/-- An item that holds `x` committed and nothing pending. -/
def Ver.of {α : Type} (x : α) : Ver α := { com := x, pend := none }

/-- The working value of entry `k` of a table of versioned items. -/
def Tab.cur {α : Type} (d : α) (t : Tab (Ver α)) (k : Nat) : α := (t.get (.of d) k).cur

/-- The committed value of entry `k` at an epoch. -/
def Tab.comAt {α : Type} (d : α) (e : W32) (t : Tab (Ver α)) (k : Nat) : α := (t.get (.of d) k).comAt e

/-- Writes the pending version of entry `k`. -/
def Tab.put {α : Type} (d : α) (e : W32) (t : Tab (Ver α)) (k : Nat) (x : α) : Tab (Ver α) :=
  t.set k ((t.get (.of d) k).put e x)

/-- Changes the pending version of entry `k` by `f`. -/
def Tab.putBy {α : Type} (d : α) (e : W32) (t : Tab (Ver α)) (k : Nat) (f : α → α) : Tab (Ver α) :=
  t.put d e k (f (t.cur d k))

end Sys2Proof.Machine
end

