-- ==== Sys2Proof/Machine/PartsHost.lean ====
section
/-! DEFINITION. The parts of the state that belong to the tick (02), the slices (11), the events (12) and the host
links (16), and `Out`, what the module sends. -/
namespace Sys2Proof.Machine

/-- PPS_STATE of TICK_STATUS (R60). -/
inductive Pps where
  | absent | acquiring | locked | holdover
deriving DecidableEq, Repr

/-- A detector report as the registry records it (R36, R518). -/
structure Report where
  det : Detector
  unit : Byte
  injected : Bool
deriving DecidableEq, Repr

/-- Tick counter, epoch, commit logic and their registers (R24 to R60). -/
structure TickS where
  /-- Tick number (R24). -/
  n : BitVec 48 := 0
  /-- TICK_HI as latched (R60). -/
  hiLatch : W16 := 0
  /-- The epoch register of each copy of the commit logic (R30, R33). -/
  epochA : W32 := 0
  epochB : W32 := 0
  /-- From the decision of cycle 12,032 until the next TICK_BEGIN (R34). -/
  selvage : Bool := false
  /-- The reports that belong to the current tick, in order of arrival (R33), and those of the next (R34). -/
  reports : List Report := []
  late : List Report := []
  /-- Committed items that an uncorrectable error has lost, until a commit takes the loss (R48). -/
  lost : List LostItem := []
  /-- Abandon is signalled to the blocks for the rest of the tick (R36). -/
  stopped : Bool := false
  abandons : W32 := 0
  /-- CONSEC, NDET, FIRST_DT, TICK of ABANDON_LAST and ABANDON_TICK (R60). -/
  lastConsec : Byte := 0
  lastNdet : Byte := 0
  lastFirst : BitVec 7 := 0
  lastTick : W32 := 0
  /-- Consecutive abandoned ticks (R44), and consecutive ticks abandoned by each detector (R43). -/
  consec : Nat := 0
  perDet : Tab Nat := []
  /-- Detectors whose eighth consecutive abandon awaits COMMIT_ESCALATED, with the UNIT of their last report (R43, R519). -/
  escalate : List (Nat × Byte) := []
  /-- 64 consecutive abandons await MODULE_RESTART (R44, or R43 for the class module). -/
  restartDue : Bool := false
  degraded : Bool := false
  tcxoFail : Bool := false
  pllFail : Bool := false
  pps : Pps := .absent
  ppsCtl : W32 := 0
  ppsStamp : W32 := 0
  ppsCycle : BitVec 14 := 0
  ppsPhase : W32 := 0
  ppsFreq : W32 := 0
  ppsReject : W32 := 0
  /-- System clocks since cold start at the last valid edge, if there was one (R57, R58). -/
  ppsLast : Option Nat := none
  /-- Consecutive valid edges within 100 ns (R57). -/
  ppsRun : Nat := 0
  journalEpoch : W32 := 0
deriving DecidableEq, Repr

/-- Source classes and enable (R396), and the target of a shared source (R395). -/
structure SrcCfg where
  enabled : Bool := true
  fast : Bool := false
  /-- The target set by ROUTE_SOURCE; none: the default target of R393. -/
  target : Option Slice := none
deriving DecidableEq, Repr

/-- Where the outstanding record of a source is (R397, R398, R402, R410). -/
inductive Where where
  | none
  /-- Generated for this slice, not written yet. -/
  | owed (sl : Slice)
  /-- In the event queue of the slice, at this index. -/
  | queue (sl : Slice) (idx : BitVec 17)
  /-- In an entry of the fast bank of the link. -/
  | bank (l : Link) (e : BitVec 3)
  /-- Dropped on the full event queue of the slice (R402). -/
  | dropped (sl : Slice)
  /-- Dropped from the full fast bank of the link (R410). -/
  | bankDropped (l : Link)
deriving DecidableEq, Repr

/-- An event source (R393 to R400): its outstanding record, and the held level and payload of a message. -/
structure Src where
  out : Where := .none
  level : Bool := false
  payload : W64 := 0
deriving DecidableEq, Repr

/-- An occurrence of a message source, raised in the tick (R397); `keep` for one that an abandon does not drop (R400). -/
structure Occ where
  src : Nat
  payload : W64
  keep : Bool := false
deriving DecidableEq, Repr

/-- An event record (R392), before PHASE is known. -/
structure EvRec where
  src : Nat
  tick : W32
  id : BitVec 12
  group : BitVec 5
  fast : Bool
  spilled : Bool
  slice : Slice
  payload : W64
deriving DecidableEq, Repr

/-- The event queue and the interrupt of a slice (R401 to R407, R413). -/
structure EqS where
  base : W64 := 0
  log2 : BitVec 5 := 4
  run : Bool := false
  prod : BitVec 17 := 0
  cons : BitVec 17 := 0
  mask : Bool := false
  grpMask : W32 := 0
  armed : Bool := true
  coalesced : Bool := false
  lost : Bool := false
  evtLost : Ver W32 := .of 0
  coal : W32 := 0
  /-- HOLDOFF and hold-off timer of each group, and the pending bits (R405). -/
  holdoff : Tab Byte := []
  timer : Tab Byte := []
  pend : W32 := 0
  /-- A message is due in the next step 4 whatever the timers (R405 item 4). -/
  sendNext : Bool := false
deriving DecidableEq, Repr

/-- What a buffered host write writes (R18, R35). -/
inductive HwTarget where
  /-- A register of the global page or a window of the link, by BAR0 offset. -/
  | bar (off : BarOff)
  /-- A register of the indirect space, by indirect address. -/
  | ind (addr : BitVec 24)
deriving DecidableEq, Repr

/-- A host write in the host-write buffer of its link (R18, R35). `guarded` when it came through the warden link
as committed at its arrival (R501). `sl` is the slice whose window it came through. -/
structure HWrite where
  tgt : HwTarget
  val : W32
  sl : Option Slice
  warden : Bool
deriving DecidableEq, Repr

/-- A host link HL0 to HL3: the registers kept for each link (R505), its PCI Express function (R512 to R515),
its host-write buffer (R35) and its fast bank (R414). -/
structure LinkS where
  up : Bool := true
  /-- The data link layer went down in this tick (R365). -/
  downNow : Bool := false
  d3hot : Bool := false
  pmeEn : Bool := false
  pmeSent : Bool := false
  pasidEn : Bool := false
  /-- Max_Payload_Size and Max_Read_Request_Size of Device Control, in bytes (R513; log entry 11). -/
  mps : Nat := 128
  mrrs : Nat := 512
  /-- Negotiated lane rate in GT/s and width (R297). -/
  gts : Nat := 8
  width : Nat := 4
  indAddr : BitVec 24 := 0
  err : Byte := 0
  errAddr : BitVec 21 := 0
  errCnt : W32 := 0
  errInd : BitVec 22 := 0
  commitStat : BitVec 5 := 0
  buf : List HWrite := []
  withheld : List HWrite := []
  fbEntry : Tab EvRec := []
  fbArmed : Bool := true
  fbSpilled : W16 := 0
  fbMask : Bool := false
  privEn : BitVec 2 := 3
  fbAcked : List Nat := []
  msixEnable : Bool := true
  msixFnMask : Bool := false
  /-- The MSI-X table by DWORD number (R509); a vector is masked when bit 0 of its fourth DWORD is 1. -/
  msixTable : Tab W32 := []
  pba : BitVec 66 := 0
deriving DecidableEq, Repr

/-- The states of a slice (R356). -/
inductive SlState where
  | free | defined | running | frozen
deriving DecidableEq, Repr

/-- The slice record of R358. -/
structure SlRec where
  idblk : W64 := 0
  chan : W64 := 0
  probe : W16 := 0
  pinWays : Nat := 0
  queues : Nat := 0
  tasks : Nat := 0
  flows : Nat := 0
  share : List Nat := [0, 0, 0, 0]
  pages : Nat := 0
  /-- Barn ranges, first block and count. -/
  barn : List (Nat × Nat) := []
deriving DecidableEq, Repr

/-- A slice: state, binding and record (R356 to R363, R390). -/
structure SliceS where
  st : SlState := .free
  linkDown : Bool := false
  link : Link := 0
  window : BitVec 4 := 0
  bound : Bool := false
  autoThaw : Bool := false
  pasid : BitVec 20 := 0
  res : SlRec := {}
deriving DecidableEq, Repr

/-- STATE of a page owner table entry (R370). -/
inductive PgState where
  | owned | fill | module
deriving DecidableEq, Repr

/-- An entry of the page owner table (R370). -/
structure Page where
  st : PgState
  sl : Slice
deriving DecidableEq, Repr

/-- What a slice holds beside its versioned configuration: registers that act at once (R389), the tick from which
its work is held (R380, R555, R515), and its keys (R374). -/
structure SliceX where
  event : BitVec 5 := 0
  /-- Suspended because the function is in D3hot (R515). -/
  d3 : Bool := false
  /-- Held under R555. -/
  pasidHold : Bool := false
  /-- The tick from whose end the slice's work is held (R380, R381). -/
  since : Option (BitVec 48) := none
  /-- The draw of the memory key. -/
  memKey : Option Nat := none
  journalKey : Option (List Byte) := none
  kekId : Option W64 := none
  /-- The image KEK, of the KEK_ID. -/
  kek : List Byte := []
  /-- Pages in FILL were nonzero at the last look (R389 FILLED). -/
  filling : Bool := false
deriving DecidableEq, Repr

/-- What a port drives on its line beside packets (R64, R66): the line states that a port drives, the line activity of its speed, and
the Field keep-alive. -/
inductive LineSig where
  | idle | rst | rsm | chirpH | activity | keepAlive
deriving DecidableEq, Repr

/-- What a port sends of a packet, in order of transmission (R105, R106): at Field speed bits and bit times without a mid-bit transition,
at positive or negative Vd; at Plant speed code groups before NRZI; at Cabinet speed 10-bit characters. -/
inductive LineSym where
  | bit (b : Bool)
  | hold (positive : Bool)
  | group (g : BitVec 5)
  | char (c : BitVec 10)
deriving DecidableEq, Repr

/-- What the module sends (R13, R498, R404, R408, R472, R66, R531). Reads that it issues are here too (R497, R12; log entry 3). -/
inductive Out where
  /-- A write to host memory of 64-bit words: completion, event record, answer of a command. -/
  | words (l : Link) (pasid : Option (BitVec 20)) (addr : W64) (ws : List W64)
  /-- A write to host memory of payload bytes. -/
  | bytes (l : Link) (pasid : Option (BitVec 20)) (addr : W64) (bs : List Byte)
  /-- A read request to host memory. -/
  | read (l : Link) (pasid : Option (BitVec 20)) (addr : W64) (len : Nat)
  | msix (l : Link) (vec : Nat)
  | pme (l : Link)
  /-- Completion of an MMIO read, one value per DWORD. -/
  | readCpl (l : Link) (vals : List W32)
  /-- Unsupported Request completion of a read (R498). -/
  | ur (l : Link)
  /-- Error reported through AER (R514). -/
  | aer (l : Link) (err : Byte)
  /-- The 1 µs strobe to the NM-3 (R472). -/
  | strobe
  /-- A packet that a port's shuttle sends: its bytes, and the symbols on the line, framing included (R105, R106). -/
  | wire (p : Port) (bs : List Byte) (line : List LineSym)
  /-- The abort delimiter in place of ED of the packet that a port is sending (R36, R105). -/
  | abort (p : Port) (line : List LineSym)
  /-- Line signalling of a port (R64, R66). -/
  | line (p : Port) (sig : LineSig)
  /-- A frame of the watchman port (R531). -/
  | watchman (bs : List Byte)
  /-- A wake signal to a switched domain (R458). -/
  | wake (d : Nat)
  /-- The measurement pulses of a line probe (R524). -/
  | tdr (p : Port)
deriving DecidableEq, Repr

end Sys2Proof.Machine
end

