-- ==== Sys2Proof/Machine/PartsBus.lean ====
section
/-! DEFINITION. The parts of the state that belong to the ports and the bus: link layer (03), wire (04), contexts,
cache and enumeration (05), Coresh threads (06), the schedule (07), work queues (08) and DMA channels (09). -/
namespace Sys2Proof.Machine

/-- The states of a root port, by their codes of R71. -/
inductive PState where
  | disabled | detached | debounce | powering | powerWait | resetting | recovery | active
  | suspending | suspended | resuming | invalid | fault | contained
deriving DecidableEq, Repr

/-- SPEED of LINK_STATUS (R103). -/
inductive Speed where
  | none | field | plant | cabinet
deriving DecidableEq, Repr

/-- WAKE_CAUSE of LINK_STATUS (R103). -/
inductive WakeCause where
  | none | host | device | both
deriving DecidableEq, Repr

/-- The presence decode of R77. -/
inductive Presence where
  | absent | field | plant | invalid
deriving DecidableEq, Repr

/-- The commands to a port (R73, R75). -/
inductive PCmd where
  | reset | suspend | resume | enable | disable
deriving DecidableEq, Repr

/-- The outcome of the chirp window (R83, R84). -/
inductive Chirp where
  | none | answered | failed
deriving DecidableEq, Repr

/-- A root port's link layer (R61 to R104; log entry 70). -/
structure PortL where
  /-- The state in which the port acts (R72). -/
  st : PState := .detached
  /-- The committed state, speed and wake cause, as LINK_STATUS shows them (R71, R72). -/
  shown : PState := .detached
  speed : Speed := .none
  shownSpeed : Speed := .none
  cause : WakeCause := .none
  shownCause : WakeCause := .none
  /-- LINK_CTL (R103). -/
  pwrWait : BitVec 10 := 0x0A0
  disable : Bool := false
  wakeEn : Bool := true
  cabEn : Bool := true
  dbCount : BitVec 10 := 0
  decode : Presence := .absent
  presA : Bool := false
  presB : Bool := false
  event : BitVec 13 := 0
  codeViol : W16 := 0
  rxRelock : W16 := 0
  wakeStamp : W32 := 0
  /-- The decode declared at attach (R78). -/
  declared : Presence := .absent
  /-- Consecutive absent samples and consecutive ticks of undercurrent (R86). -/
  absent : Nat := 0
  under : Nat := 0
  /-- First tick of the timed state the port is in (R80, R82, R90, R92). -/
  since : BitVec 48 := 0
  chirp : Chirp := .none
  /-- RECOVERY follows a reset, not a resume (R103 RESET_DONE, RESUMED). -/
  afterReset : Bool := false
  /-- The reset in progress has left its RST phase (R82). -/
  rstDone : Bool := false
  /-- WKP was recognised and no RSM for it has begun (R95, R96). -/
  wkp : Bool := false
  /-- System clocks of the onsets of the surges of this tick and the last: the receiver is blanked for 2 µs from each (R98). -/
  blanks : List Nat := []
  /-- A blanked receiver has not regained symbol lock (R99). -/
  relock : Bool := false
  /-- The port has sent a packet in the current frame (R64). -/
  sent : Bool := false
  /-- The running disparity of the line at Cabinet speed is positive (R106). -/
  rd : Bool := false
  /-- Commands of Coresh bus instructions and of RESET_SEGMENT in this tick with the slice that gave them (R73), dropped with it. -/
  cmds : List (Nat × PCmd) := []
  /-- How many of these were given when the last write of LINK_CTL arrived (R75). -/
  hostAt : Nat := 0
  /-- Commands of the last LINK_CTL write applied in this selvage (R73, R75). -/
  hostCmds : List PCmd := []
  /-- The command taken at the last commit, whose signalling begins at the next tick (R73). -/
  accepted : Option PCmd := Option.none
  /-- A detach of R86 has been recognised and awaits the commit that carries it out (R72, R87). -/
  gone : Bool := false
  /-- A power fault, a loss or a containment has taken the port's devices in the tick (R75, R428). -/
  detachNow : Bool := false
  disableNow : Bool := false
deriving DecidableEq, Repr

/-- STATE of a context (R162). -/
inductive CtxSt where
  | free | configuring | active | halted | detached | lost
deriving DecidableEq, Repr

/-- A context: the fields of W0 to W7 (R162). -/
structure Ctx where
  handle : BitVec 23 := 0
  defTok : Bool := false
  depth : BitVec 3 := 0
  hops : BitVec 25 := 0
  port : BitVec 5 := 0
  speed : BitVec 2 := 0
  typ : BitVec 2 := 0
  dirIn : Bool := false
  slice : Slice := 0
  mps : BitVec 11 := 0
  st : CtxSt := .free
  pin : Bool := false
  deferred : Bool := false
  rwake : Bool := false
  seq : BitVec 4 := 0
  tag : BitVec 4 := 0
  tktValid : Bool := false
  ticket : W16 := 0
  late : Byte := 0
  tktTimeout : W32 := 0
  tktDeadline : BitVec 48 := 0
  queue : QNum := 0
  entry : W16 := 0
  remain : W32 := 0
  moved : W32 := 0
  sbOff : W16 := 0
  lastSvc : BitVec 48 := 0
  nakRun : Byte := 0
  errRun : Byte := 0
  scratch : W64 := 0
deriving DecidableEq, Repr

/-- STATE of a device-table entry (R161). -/
inductive DevSt where
  | free | configuring | assigned | quarantine | lost
deriving DecidableEq, Repr

/-- A device-table entry (R161). -/
structure Dev where
  base : CtxIdx := 0
  nep : BitVec 4 := 0
  slice : Slice := 0
  st : DevSt := .free
  hub : Bool := false
  bridge : Bool := false
  tier : BitVec 3 := 0
  ports : BitVec 5 := 0
deriving DecidableEq, Repr

/-- What the module keeps of a device beside its table entry: its records as read (R168, R169, R184), the detach
that awaits release (R185), and the tick at which it was lost (R186). -/
structure DevX where
  ident : List Byte := []
  table : List Byte := []
  leaving : Bool := false
  /-- It leaves because it was withdrawn (R367). -/
  withdrawn : Bool := false
  lostAt : Option (BitVec 48) := none
  /-- The last CONFIGURE that the device completed activated its endpoints (R132, R136). -/
  configured : Bool := false
deriving DecidableEq, Repr

/-- One valid way of the context cache (R174, R175): `dev` for a device-table line. -/
structure CWay where
  tag : Nat
  dev : Bool := false
  claimCur : Bool := false
  claimNext : Bool := false
  dirty : Bool := false
  /-- A fill of the way is in progress (R176, R179). -/
  filling : Bool := false
  lastUse : W16 := 0
deriving DecidableEq, Repr

/-- An item of the staging list (R179): a context, and the pass over it (warp, weft or collection). -/
structure Stage where
  ctx : CtxIdx
  warp : Bool
  done : Bool := false
deriving DecidableEq, Repr

/-- The requests of R171 and R237 that the module makes of a device. -/
inductive EStep where
  | idle
  | ident | assign | table | configure | tier
  | portSet (n : Nat)
  | wake
deriving DecidableEq, Repr

/-- RESULT of ENUM_STAT (R188). -/
inductive EResult where
  | none | attach | fail | noSpace | conflict
deriving DecidableEq, Repr

/-- The stage of a control transfer (R130, R212). -/
inductive CtlStage where
  | setup | data | status
deriving DecidableEq, Repr

/-- A control transfer of the module's own in progress (R130, R171, R237): the eight bytes of its request, its next stage, the data read and
the number of the next packet of the data stage. -/
structure OwnX where
  req : List Byte
  stage : CtlStage := .setup
  got : List Byte := []
  seq : BitVec 4 := 0
deriving DecidableEq, Repr

/-- The enumeration sequencer of one root port's tree (R170 to R173, R188). -/
structure EnumS where
  step : EStep := .idle
  route : Route := { port := 0, hops := [] }
  attempts : Nat := 0
  tag : BitVec 4 := 0
  dev : Option DevId := Option.none
  ident : List Byte := []
  table : List Byte := []
  waiting : List Route := []
  result : EResult := .none
  lastId : DevId := 0
  /-- Tick in which a control transfer last ended or was answered NAK: one in a tick (R170, R234). -/
  last : Option (BitVec 48) := Option.none
  /-- The control transfer in progress. -/
  x : Option OwnX := Option.none
deriving DecidableEq, Repr

/-- A poll of a hub's EP1 or of a bridge's ticket endpoint (R234 item 1). -/
structure Poll where
  dev : DevId
  ep : BitVec 4
  due : BitVec 48
  /-- It did not fit the lead of a tick and goes ahead of the others (R234). -/
  carried : Bool := false
deriving DecidableEq, Repr

/-- The requests of hub-port service (R237). -/
inductive SvcStep where
  | readPort
  /-- PORT_CLEAR that acknowledges the changes of the word read. -/
  | ack
  /-- PORT_CLEAR with POWER, and with SUSPEND. -/
  | powerOff | resume
  /-- PORT_SET with RESET. -/
  | reset
deriving DecidableEq, Repr

/-- Hub-port service of one port (R237): the word READ_PORT returned and the tick in which it did, the requests to come, the control transfer
in progress, the attempts of the first request, and the tick in which an attempt failed or was answered NAK. -/
structure HubSvc where
  hub : DevId
  port : BitVec 5
  word : W32 := 0
  readAt : BitVec 48 := 0
  todo : List SvcStep := [.readPort, .ack]
  x : Option OwnX := none
  attempts : Nat := 0
  last : Option (BitVec 48) := none
  /-- Its service has begun, or it did not fit a lead: it is taken ahead of the others (R234, R237). -/
  begun : Bool := false
deriving DecidableEq, Repr

/-- A hub-port request of a SUSPEND or RESUME bus instruction (R215, R234 item 3): the tick of the instruction, the control transfer in
progress, and the tick in which it was answered NAK. -/
structure HubReq where
  hub : DevId
  port : BitVec 5
  suspend : Bool
  since : BitVec 48
  x : Option OwnX := none
  last : Option (BitVec 48) := none
deriving DecidableEq, Repr

/-- A PORT_SET with RESET that waits PWR_WAIT ticks (R237). -/
structure HubReset where
  hub : DevId
  port : BitVec 5
  due : BitVec 48
deriving DecidableEq, Repr

/-- Tree service of one root port (R234, R237) with the last word read of each hub port (R144). -/
structure TreeS where
  polls : List Poll := []
  service : List HubSvc := []
  reqs : List HubReq := []
  resets : List HubReset := []
  words : Tab W32 := []
  /-- Hub ports that showed SPEED_MISMATCH, by their numbers in `words`: nothing further until their disconnection (R237). -/
  mismatch : List Nat := []
  /-- Segments whose reset this commit carries out, after its detaches (R187). -/
  resetNow : List (List (BitVec 5)) := []
deriving DecidableEq, Repr

/-- How a fetched entry stands in service (R238, R241). -/
inductive EntSt where
  | waiting | eligible | bound | drawn
deriving DecidableEq, Repr

/-- A fetched entry that is not complete, with the transfer it asks for (R265 to R272, R212, R151). -/
structure Entry where
  pos : BitVec 17
  units : Nat
  q0 : W64
  q1 : W64
  q2 : W64
  q3 : W64
  frags : List (W64 × Nat) := []
  tick : BitVec 48
  /-- Payload or fragment table read (R12, R269). -/
  staged : Bool := false
  /-- QSHUF of the channel when the move of its payload began (R296). -/
  qshuf : Byte := 0
  /-- OUT payload as read from the owner's buffers. -/
  data : List Byte := []
  /-- Bytes of payload or table still to be requested and still to return (R12, R298). -/
  toRead : Nat := 0
  inFlight : Nat := 0
  st : EntSt := .waiting
  draw : Nat := 0
  stage : CtlStage := .setup
  /-- Bytes of the control data stage done, or collected of a ticket. -/
  stageDone : Nat := 0
  /-- The DONE record of the ticket, committed and to be collected (R151). -/
  record : Option TicketRec := none
  outcome : BitVec 4 := 0xF
  attempts : BitVec 3 := 0
  lastTicket : W16 := 0
  /-- Tick of the post that its outstanding ticket answered (R336). -/
  posted : BitVec 48 := 0
  /-- The reading of a transfer, or the command of an admin entry, has begun and its completion awaits (R12, R286). -/
  begun : Bool := false
  /-- Where its completion record goes: its first unit (R281). -/
  place : W64 := 0
deriving DecidableEq, Repr

/-- A mode change that waits for fetched entries (R279): the new mode and RUN, and the admin entry it answers. -/
structure ModeWait where
  own : Bool
  run : Bool
  entry : Entry
deriving DecidableEq, Repr

/-- A work queue (R262 to R280, R292). -/
structure QueueS where
  live : Bool := false
  legacy : Bool := false
  entryMax : Nat := 1
  own : Bool := true
  interval : Byte := 1
  prio : BitVec 3 := 0
  port : BitVec 5 := 0
  chan : Chan := 0
  cev : BitVec 2 := 0
  errLimit : Byte := 0
  nakLimit : Byte := 0
  base : W64 := 0
  log2 : BitVec 5 := 3
  run : Bool := false
  start : BitVec 48 := 0
  prod : BitVec 17 := 0
  cons : BitVec 17 := 0
  fetch : BitVec 17 := 0
  /-- The last poll carried out, by tick (R271). -/
  polled : Option (BitVec 48) := none
  /-- The tick of the last poll was abandoned: the queue is polled again in the next (R290). -/
  again : Bool := false
  /-- Slots a speculative read of this tick showed with OWN 1, by unit (R277). -/
  seen : List Nat := []
  entries : List Entry := []
  /-- Commands in progress of an admin queue that has been started anew since they were fetched (R292). -/
  old : List Entry := []
  /-- Positions complete whose records await earlier ones (R275). -/
  doneAt : List (BitVec 17 × Nat) := []
  wait : Option ModeWait := none
  /-- A DESTROY_QUEUE committed; its completion follows in the next commit (R288). -/
  dying : Option Entry := none
deriving DecidableEq, Repr

/-- A completion record (R281) with where it goes. -/
structure Cpl where
  slice : Slice
  queue : QNum
  pos : BitVec 17
  units : Nat
  addr : W64
  c0 : W64
  c1 : W64
  c2 : W64
  c3 : W64
  evt : Bool
deriving DecidableEq, Repr

/-- IN payload of a committed tick to be written to the owner's buffers (R13, R299). -/
structure Pay where
  slice : Slice
  queue : QNum
  pos : BitVec 17
  chan : Chan
  port : BitVec 5
  runs : List (W64 × List Byte)
deriving DecidableEq, Repr

/-- The staging buffer of a root port: bytes in use of each half (R11). -/
structure Halves where
  outNext : Nat := 0
  outCur : Nat := 0
  inCur : Nat := 0
  inPrev : Nat := 0
deriving DecidableEq, Repr

/-- ROLE of a channel (R294). -/
inductive Role where
  | none | queue | copy | xport
deriving DecidableEq, Repr

/-- STATE of a channel (R307). -/
inductive ChSt where
  | idle | running | paused | stopping | stopped | killed
deriving DecidableEq, Repr

/-- A descriptor (R300) with how it was started: its address in host memory, 0 when started from the shadow. -/
structure Desc where
  w0 : W64 := 0
  w1 : W64 := 0
  w2 : W64 := 0
  w3 : W64 := 0
  addr : W64 := 0
deriving DecidableEq, Repr

/-- STATUS of a channel record (R317). -/
inductive ChStatus where
  | done | readError | format | chainError
deriving DecidableEq, Repr

/-- A record of a channel's completion queue, owed (R317). -/
structure ChRec where
  tag : W16
  status : ChStatus
  last : Bool
  bytes : W32
  tick : W32
  desc : W32
  evt : Bool
deriving DecidableEq, Repr

/-- What the commit of the current tick makes due to the owners, to be issued in the next tick (R9, R13). -/
structure Owed where
  pay : List Pay := []
  words : List (Slice × W64 × List Byte) := []
  cpl : List Cpl := []
  recs : List (Chan × ChRec) := []
  ev : List EvRec := []
deriving DecidableEq, Repr

/-- What a channel in EXPORT role carries (R294): a trace stream, an image save or load, a raw stream (log entry 66). -/
inductive Export where
  | trace (k : Nat)
  | save (sl : Slice)
  | load (sl : Slice)
  | raw (sl : Slice)
deriving DecidableEq, Repr

/-- A DMA channel: configuration and position (R294 to R319). -/
structure ChS where
  role : Role := .none
  share : Nat := 0
  cqLog2 : Nat := 0
  qshuf : Byte := 0
  cqBase : W64 := 0
  st : ChSt := .stopped
  armed : Bool := false
  shadow : Desc := {}
  active : Option Desc := Option.none
  /-- ACT_DONE: bytes of the active descriptor moved (R314). -/
  done : W32 := 0
  /-- Bytes read of each plane of the input and written of each plane of the output; one plane but where a descriptor reshuffles (R303,
  R306). -/
  read : List Nat := []
  wrote : List Nat := []
  /-- The channel's buffer: input bytes read and not written yet, by their offset in the input (R306). -/
  buf : Tab Byte := []
  /-- The data of an export, which the module holds, or of an image as read (R294). -/
  data : List Byte := []
  /-- A read of the descriptor failed: what was read before it is still written (R315). -/
  failed : Bool := false
  owed : List ChRec := []
  prod : BitVec 13 := 0
  cons : BitVec 13 := 0
  count : W32 := 0
  /-- The shadow set starts at the beginning of the next tick (R308, R312). -/
  starts : Bool := false
  /-- The address of a descriptor that is to be fetched and started: of a GO_CHAIN, or of a chain at its boundary (R308, R309). -/
  chain : Option W64 := Option.none
  /-- The fetch of the chain failed while a descriptor was active (R309). -/
  chainFail : Bool := false
  job : Option Export := Option.none
  /-- Withdrawn by a resize of this slice (R368). -/
  leaving : Option Slice := Option.none
deriving DecidableEq, Repr

/-- A read request of a channel that has not returned (R298): of a descriptor, of queue payload or of descriptor data, with the bytes that
are still to come. One whose data nothing wants any more is `stale`. -/
structure ReadReq where
  fetch : Option W64 := Option.none
  q : QNum := 0
  pos : BitVec 17 := 0
  lane : Nat := 0
  off : Nat := 0
  n : Nat := 0
  stale : Bool := false
deriving DecidableEq, Repr

/-- What of a channel acts at once (R319 CH_EVENT) or is the limiter's (R297, R298). -/
structure ChX where
  event : BitVec 7 := 0
  /-- First clock at which the next read and the next write burst may issue. -/
  nextRead : Nat := 0
  nextWrite : Nat := 0
  /-- The read requests outstanding, oldest first. -/
  reqs : List ReadReq := []
  /-- KILL arrived and its commit has not come (R311), and the transfers whose payload it dropped. -/
  killNow : Bool := false
  lost : List (Slice × QNum × BitVec 17) := []
deriving DecidableEq, Repr

/-- A loop in progress (R199). -/
structure LoopS where
  first : Nat
  last : Nat
  ctr : Reg
  i : Nat
  n : Nat
deriving DecidableEq, Repr

/-- What a WEAVE in progress has done (R241, R242). -/
structure WeaveS where
  count : Nat := 0
  passed : List (BitVec 23) := []
  /-- Queue of the transaction issued last in this pass. -/
  lastQ : Option QNum := none
deriving DecidableEq, Repr

/-- A Coresh machine: a loom thread or a steward core (R190 to R192, R226). -/
structure Thread where
  running : Bool := false
  code : List W32 := []
  pc : Nat := 0
  g : Tab W32 := []
  /-- p0 is bit 0, which reads 1 whatever it holds. -/
  p : BitVec 4 := 0
  /-- Context pointer of a loom; null is none (R191). -/
  cx : Option CtxIdx := none
  cycle : Nat := 0
  loops : List LoopS := []
  weave : Option WeaveS := none
  slice : Slice := 0
  /-- Log2 of the period of the program or graph (R197). -/
  period : Nat := 0
  /-- Loom: segment. -/
  seg : BitVec 3 := 0
  /-- Steward core: running task, and its flags as they stood at dispatch (R191, R197). -/
  task : Task := 0
  flags : W32 := 0
  /-- Steward core: the place of a flow member's run (R329), and the cycle at which the run began. -/
  place : Option W32 := none
  begun : Nat := 0
  /-- Cycle at which an ended wire sequence last wrote a register, by register; 16 + i for one that named context i (R202, R226). -/
  ready : Tab Nat := []
deriving DecidableEq, Repr

/-- The kinds of wire sequence (R204, R216, R234). -/
inductive WKind where
  | poll | take | give | setup | ping | defer | probe (us : Nat)
deriving DecidableEq, Repr

/-- The form of one attempt on the wire (R224). -/
inductive Attempt where
  | inSheaf (n : Nat)
  | outSheaf (pkts : List (List Byte))
  | ping
  | setupStage
  | statusIn
  | statusOut
  | slot
deriving DecidableEq, Repr

/-- A wire sequence issued by a thread and not ended (R205, R226). -/
structure WSeq where
  kind : WKind
  ctx : CtxIdx
  d : Reg
  e : Reg
  cnt : Nat
  retries : Nat
  attempts : Nat := 1
  form : Attempt
  /-- Sequence number of the first packet of the current attempt (R556). -/
  first : BitVec 4 := 0
  /-- Bytes to gE of a POLL gathered so far. -/
  got : List Byte := []
  /-- Issued by WEAVE. -/
  weft : Bool := false
  /-- Cycle at which the instruction's issue ended, from which the shuttle may start it (R226). -/
  issued : Nat := 0
  /-- The shuttle has started it, and the cycle at which it did. -/
  started : Bool := false
  start : Nat := 0
  /-- Cycle at which the packets of the current attempt have been sent (R69). -/
  sentAt : Nat := 0
deriving DecidableEq, Repr

/-- A port's shuttle (R10, R156, R226): sequences issued and not ended, oldest first, the cycle of the tick at which the last
one ended, and the wire clocks used in the tick (R336). -/
structure Shuttle where
  seqs : List WSeq := []
  ended : Nat := 0
  /-- Cycle from which the shuttle serves programs: the end of the lead (R231). -/
  lead : Nat := 0
  /-- Cycle at which tree service can start its next transaction (R234). -/
  treeAt : Nat := 0
  /-- POWER_NOTICE went out in this tick: its allowance is used up (R232). -/
  noticed : Bool := false
  used : Nat := 0
  /-- Cycle at which the last sequence started. -/
  lastStart : Nat := 0
  /-- Cycle until which the packets sent last are on the line (R36). -/
  txEnd : Nat := 0
  /-- POWER_NOTICE due (R156), with the tick of the mains loss. -/
  notice : Option W32 := none
deriving DecidableEq, Repr

/-- A segment of a port's table (R230). -/
structure Seg where
  weaver : Bool
  slice : Slice
  stop : Nat
deriving DecidableEq, Repr

/-- An admitted program (R243 to R245): its code, log2 of its period, its figures and what it names. -/
structure Prog where
  slice : Slice
  code : List W32
  period : Nat
  speed : Speed
  /-- MPS charged for each context named (R204). -/
  named : Tab Nat
  /-- The contexts named in each phase (R178, R179). -/
  phases : List (List Nat)
  loom : Nat
  finish : Nat
  wire : Nat
deriving DecidableEq, Repr

/-- An admitted change that waits for its switch tick (R246). -/
inductive Change where
  | install (seg : Nat) (p : Prog)
  | remove (seg : Nat)
  | table (segs : Tab Seg) (allow : Nat) (poll : Byte)
deriving DecidableEq, Repr

/-- A periodic registration (R253), with the lowest phase of its placement. -/
structure PReg where
  slice : Slice
  handle : BitVec 23
  interval : Nat
  cnt : Nat
  rty : Nat
  phase : Option Nat := none
deriving DecidableEq, Repr

/-- The schedule of one root port (R229 to R260). -/
structure SchedS where
  treePoll : Byte := 0x08
  /-- TREE_ALLOW set by the warden (R235). -/
  wardenAllow : Option Nat := none
  /-- The segment table set by the warden; none: the default of R230. -/
  segs : Option (Tab Seg) := none
  progs : Tab Prog := []
  changes : List (BitVec 48 × Change) := []
  regs : List PReg := []
  weftMin : Tab Nat := []
  /-- Last queue of each slice that WEAVE served (R241). -/
  lastQ : Tab Nat := []
  lastSpeed : Speed := .none
  /-- A change of the port's schedule has taken effect since it was last default (R260; log entry 96). -/
  changed : Bool := false
deriving DecidableEq, Repr

/-- A request in the admission unit's order (R243): the slice and the queue entry, its arrival. -/
structure AdmReq where
  slice : Slice
  entry : Entry
  /-- What the command read from host memory. -/
  words : List W64
deriving DecidableEq, Repr

end Sys2Proof.Machine
end

