-- ==== Sys2Proof/Machine/PartsPlant.lean ====
section
/-! DEFINITION. The parts of the state that belong to the steward (10), port power (13), supply and domains (14),
metrology (15), detectors, probes and the watchman port (17). -/
namespace Sys2Proof.Machine

/-! ## Port power (13) -/

/-- The causes of a switch-off (R427). -/
inductive Cause where
  | none | rampFail | pgTimeout | faultTimer | shortTrip | overload | thermal | offCmd | shed | mainsShed
  | isolated | passFail | disabled | domainOff
deriving DecidableEq, Repr

/-- The committed power setting and commands of a port (R418, R420, R433). -/
structure PortSet where
  direct : Bool := false
  profile : BitVec 3 := 0
  pwrMax : Nat := 15
  /-- ILIM_SET in 10 mA. -/
  ilimSet : Nat := 40
  /-- RAMP_T and FAULT_T in ms. -/
  rampT : Nat := 5
  faultT : Nat := 20
  retryMax : Nat := 8
  /-- RETRY_DELAY in 10 ms. -/
  retryDelay : Nat := 100
  on : Bool := true
  shedPrio : Nat := 8
  /-- The cause with which PORT_ON 0 switches the port off (R427). -/
  offCause : Cause := .offCmd
  /-- PORT_ON was set for the commit of this tick, by the owner, a decision or the watchman (R428, R437). -/
  onSet : Bool := false
  /-- PORT_REARM and PASS_CLEAR that the commit of this tick carries out (R429, R432). -/
  rearm : Bool := false
  passClear : Bool := false
  /-- The ILIM actuator in mA: the limit in force (R421). -/
  ilim : Nat := 400
deriving DecidableEq, Repr

/-- PSTATE of PWR_STAT (R439). -/
inductive PwrSt where
  | off | standby | ramping | on | wait | latched | relayOpen
deriving DecidableEq, Repr

/-- The electronic fuse of a port (R422 to R439; log entry 70). -/
structure PortP where
  st : PwrSt := .off
  gate : Bool := false
  limiting : Bool := false
  pg : Bool := false
  cause : Cause := .none
  retries : Nat := 0
  event : BitVec 12 := 0
  vout : W16 := 0
  iout : W16 := 0
  model : W16 := 0
  sensor : W16 := 0
  faults : W16 := 0
  retryCnt : W16 := 0
  /-- Clock at which the ramp began, and the fault timer in clocks with the clock from which it last ran (R423). -/
  rampAt : Nat := 0
  timer : Nat := 0
  timerFrom : Nat := 0
  /-- Clocks at which power-good asserted and the limiter engaged last (R425), and RAMP_T has ended (R424). -/
  pgAt : Option Nat := Option.none
  limitAt : Option Nat := Option.none
  ramped : Bool := false
  /-- Clock at which the limiter was released (R423). -/
  released : Option Nat := Option.none
  /-- RAMP_T and FAULT_T in ms taken for the ramp in progress (R420). -/
  rampT : Nat := 5
  faultT : Nat := 20
  /-- FAULT_T in ms as taken at the start of the ramp, for its PG_TIMEOUT (R420, R424). -/
  pgFault : Nat := 20
  /-- The rises of the thermal model in nK: junction to case, and case to board (R430; log entry 128). -/
  riseJc : Nat := 0
  riseCb : Nat := 0
  /-- Tick at which a retry is due (R427), and tick since which the port has stayed powered (R427). -/
  retryAt : Option (BitVec 48) := Option.none
  poweredAt : Option (BitVec 48) := Option.none
  /-- Consecutive ticks of power above PWR_MAX (R426). -/
  overFor : Nat := 0
  /-- Clock since which the gate has been off (R432). -/
  offAt : Nat := 0
  /-- A protection switched the port off in this tick (R17, R437). -/
  tripped : Bool := false
  /-- The draw of the port before it was shed, in 0.1 W (R341). -/
  shedDraw : Nat := 0
deriving DecidableEq, Repr

/-! ## Supply and domains (14) -/

/-- Supply states (R445). -/
inductive SupSt where
  | start | normal | holdup | lastGasp | powerDown
deriving DecidableEq, Repr

/-- The supply and its monitor (R443 to R452, R465; log entries 7, 70). -/
structure SupplyS where
  st : SupSt := .normal
  dc : Bool := false
  inputOk : Bool := false
  bankReady : Bool := false
  bankFault : Bool := false
  input : W16 := 0
  bulk : W16 := 0
  energy : Byte := 0
  load : W16 := 0
  event : BitVec 6 := 0
  losses : W16 := 0
  rides : W16 := 0
  /-- The tick in which MAINS_LOST was declared (R435). -/
  lostAt : BitVec 48 := 0
  /-- MAINS_BACK was declared and its commit awaits (R450). -/
  back : Bool := false
  /-- R449 holds its domains in retention. -/
  hold : Bool := false
  /-- The tick in which the bank reached 15 J (R451). -/
  downAt : Option (BitVec 48) := none
  /-- Steps of the switch-off of R451 that have been carried out. -/
  downStep : Nat := 0
  /-- A cold start in progress restores the journal (R464). -/
  restoring : Bool := false
  /-- The cold start that AON release begins: its cause (R454). -/
  release : Option Nat := none
  /-- Consecutive ticks with total port power above 415 W (R434), total and bus of the last window. -/
  overRun : Nat := 0
  total : W16 := 0
  bus : W16 := 0
  shedding : Bool := false
  /-- The tick in which the sequencer shed last (R434, R435). -/
  shedAt : Option (BitVec 48) := none
deriving DecidableEq, Repr

/-- The states of a switched domain (R455). -/
inductive DomSt where
  | off | waking | restoring | on | retention | quarantined
deriving DecidableEq, Repr

/-- The requests of PD_CTL (R465). -/
inductive DomReq where
  | on | retention | off
deriving DecidableEq, Repr

/-- A switched power domain PD1 to PD12 (R455 to R465). -/
structure DomS where
  st : DomSt := .off
  /-- The committed state, as PD_STAT shows it. -/
  shown : DomSt := .off
  /-- PD_CTL. -/
  auto : Bool := false
  req : DomReq := .on
  attempts : BitVec 2 := 0
  cause : BitVec 3 := 0
  refuse : BitVec 4 := 0
  wakes : W16 := 0
  event : Byte := 0
  /-- The state before the wake (R460), and whether it wakes only because another requires it. -/
  before : DomSt := .off
  forOther : Bool := false
  /-- Clock at which the attempt or the back-off began. -/
  since : Nat := 0
  /-- Power-good arrived within the attempt and awaits its commit (R459). -/
  good : Bool := false
  /-- A wake cause of R458 reached the domain in this tick while it was on (R463). -/
  wakeNow : Bool := false
  /-- The link stayed in L1 through the ticks of AUTO, or the domain needs no link for it (R462). -/
  autoNow : Bool := false
  /-- R449 placed the domain in retention. -/
  held : Bool := false
  /-- Consecutive ticks in which the retention conditions held (R462). -/
  idle : Nat := 0
  /-- The request to act on from the next tick (R457). -/
  act : Bool := false
  reset : Bool := false
  resetRun : Bool := false
  clearQ : Bool := false
deriving DecidableEq, Repr

/-! ## The steward (10) -/

/-- A task (R321, R347). -/
structure TaskS where
  live : Bool := false
  f : W32 := 0
  m : W32 := 0
  all : Bool := false
  words : Tab W32 := []
  last : Core := 0
  graph : Graph := 0
  home : Core := 0
  limit : Nat := 1
  ticksub : Bool := false
  member : Option Flow := none
  entry : Nat := 0
  /-- Worst run in cycles (R227, R252). -/
  worst : Nat := 0
  slice : Slice := 0
deriving DecidableEq, Repr

/-- An entry of a ready queue or spill ring: task, captured flags and place of a flow member (R325). -/
structure ReadyE where
  task : Task
  flags : W32 := 0
  place : Option W32 := none
  /-- System clock at which it was queued (R326, R350). -/
  since : Nat := 0
deriving DecidableEq, Repr

/-- An ordered flow (R329, R330): values held by place, and places ended. -/
structure FlowS where
  live : Bool := false
  slice : Slice := 0
  graph : Graph := 0
  sink : Task := 0
  place : W32 := 0
  /-- Next place to release. -/
  next : W32 := 0
  vals : List (W32 × W32) := []
  ended : List W32 := []
deriving DecidableEq, Repr

/-- A timer of a delay list (R222, R331). -/
structure TimerS where
  task : Task
  flag : BitVec 5
  deadline : BitVec 48
deriving DecidableEq, Repr

/-- An admitted graph (R347 to R349). -/
structure GraphS where
  live : Bool := false
  slice : Slice := 0
  tasks : List Task := []
  flows : List Flow := []
  spillMode : Bool := false
  log2 : Nat := 0
  period : Nat := 0
  code : List W32 := []
  stopped : Bool := false
  spill : List (Core × ReadyE) := []
  /-- The pool pages that hold its spill ring (R328). -/
  pages : List Nat := []
  image : List W64 := []
deriving DecidableEq, Repr

/-- What a graph change does at its switch tick (R246, R349). -/
inductive GChange where
  | start (g : Graph)
  | withdraw (g : Graph)
  | stop (g : Graph)
  | run (g : Graph)
deriving DecidableEq, Repr

/-- A steward core's queues (R326, R327, R331, R353). -/
structure CoreS where
  ready : List ReadyE := []
  bitmap : List Task := []
  /-- Raising tasks held, with the tasks they back-pressured (R327). -/
  held : List (Task × Task) := []
  timers : List TimerS := []
  /-- Runs begun per task in this tick (R252). -/
  runs : Tab Nat := []
  used : Nat := 0
  /-- Ready entries of the built-in policies, the policy whose run is in progress, what it has looked at, and the cycles that the
  policies of this core have used in the tick (R326, R334, R340; log entry 106). -/
  policies : List Task := []
  run : Option Task := none
  done : List Nat := []
  polUsed : Nat := 0
deriving DecidableEq, Repr

/-- A decision by ACT in the tick (R221): actuator, task and value. -/
structure Decision where
  actr : BitVec 15
  core : Core
  task : Task
  slice : Slice
  val : W32
deriving DecidableEq, Repr

/-- A record of the scheduling trace (R350; log entry 92). -/
structure TraceRec where
  tick : W32
  cycle : BitVec 14
  core : Core
  kind : BitVec 4
  task : Task
  slice : Slice
  arg : W16
  cause : Byte
  val : W32
deriving DecidableEq, Repr

/-- A trace export stream (R351; log entry 111). -/
structure Stream where
  run : Bool := false
  slice : Slice := 0
  all : Bool := false
  chan : Chan := 0
  log2 : Nat := 8
  base : W64 := 0
  held : List TraceRec := []
  block : Nat := 0
  lost : W32 := 0
  written : W32 := 0
  since : BitVec 48 := 0
deriving DecidableEq, Repr

/-- A bridge slot (R337, R345). -/
structure Bridge where
  dev : Option DevId := none
  pace : Nat := 64
  /-- Credit in 1/64 of a post. -/
  credit : Nat := 0
  /-- Latency in ticks of the last 64 records. -/
  latency : List Nat := []
  /-- A DEFER_TIMEOUT occurred in the period. -/
  timedOut : Bool := false
deriving DecidableEq, Repr

/-- The history that the built-in policies keep (R341 to R346). -/
structure PolicyS where
  brownRun : Nat := 0
  restoredAt : Option (BitVec 48) := none
  /-- Effective interval, last change and run of DONE of a registered handle (R342). -/
  backoff : Tab (Nat × BitVec 48 × Nat) := []
  /-- Tick of the last raise of each port by the thermal policy (R343). -/
  raised : Tab (BitVec 48) := []
  /-- Handles pinned by the policy, and recent delays of a context by tick (R344). -/
  pinned : List Nat := []
  delays : Tab (List (BitVec 48)) := []
  /-- By slice and feeder: shed is in force, and the demand intervals in which LOAD_SHED and LOAD_CLEAR were raised last (R346). -/
  loadShed : Tab (Bool × Option W32 × Option W32) := []
  /-- The tick in which the shedding policy ran last, and the ports that count as shed by it (R341, R436). -/
  shedRan : Option (BitVec 48) := none
  shedPorts : List Nat := []
deriving DecidableEq, Repr

/-! ## Slice changes that a commit carries out (11) -/

/-- A slice command's effect, carried out at the commit of the tick in which it executes (R360 to R388). -/
inductive SliceAct where
  | define (sl : Slice) (r : SlRec)
  | resize (sl : Slice) (r : SlRec)
  | bind (sl : Slice) (link : Link) (window : BitVec 4) (pasid : BitVec 20) (auto : Bool)
  | unbind (sl : Slice)
  | freeze (sl : Slice)
  | thaw (sl : Slice)
  | release (sl : Slice)
  /-- An attach entry by route: the slice and WAKE, or none to remove it. -/
  | attach (port : BitVec 5) (hops : List (BitVec 5)) (e : Option (Slice × Bool))
  /-- RESET_SEGMENT of a segment behind a hub (R289). -/
  | reset (port : BitVec 5) (hops : List (BitVec 5))
  /-- What hub-port service found gone (R237). -/
  | detach (port : BitVec 5) (hops : List (BitVec 5))
  /-- A slice's image KEK with its KEK_ID (R374). -/
  | kek (sl : Slice) (id : W64) (key : List Byte)
  /-- RESTORE_IMAGE of the verified image, and the admin entry that it answers. -/
  | restore (sl : Slice) (body : List W64) (entry : Entry)
deriving DecidableEq, Repr

/-! ## Metrology (15) -/

/-- The published content of the NM-3 (R475, R477): versioned as a whole. -/
structure MetPub where
  present : Bool := false
  ep1 : List Byte := []
  ep2 : List Byte := []
  ep3 : List Byte := []
  ep5 : List Byte := []
  /-- The mirror of the legal log by ring index (R483). -/
  log : Tab (List Byte) := []
deriving DecidableEq, Repr

/-- The metrology receiver (R474 to R477, R492). -/
structure MetS where
  status : W16 := 0
  event : BitVec 5 := 0
  setsLost : W16 := 0
  crcErr : W16 := 0
  valid : Nat := 0
  silent : Nat := 0
  lastSeq : Option W16 := none
  /-- Pages of the set being collected, and the strobe tick of its latch (R475). -/
  pages : List (List Byte) := []
  latch : BitVec 48 := 0
  got : Bool := false
  /-- Received values that wait for the next commit (R477), and what they publish. -/
  fresh : Option MetPub := none
  presentAt : Option (BitVec 48) := none
  /-- Presence was declared: P16 is enumerated from the next tick (R478). -/
  enumerate : Bool := false
  /-- Absence was declared in this tick: the P16 device detaches at the commit (R478). -/
  gone : Bool := false
  /-- PD10 was not ON since presence was declared: it is to be declared afresh (R491). -/
  stale : Bool := false
  /-- The SEQ from which log entries are new: of the first EP5 set, then past each new entry (R490). -/
  nextLog : Option Nat := none
  /-- A page 0 has been received since presence or cold start, so that a change of INTERVAL shows an interval's end (R490; log entry 76). -/
  dated : Bool := false
  /-- P16 transfers completed in this tick, the queue of the last of them, and that of the last tick that served one (R241, R485). -/
  served : Nat := 0
  p16Pass : Option Nat := none
  p16Last : Nat := 4095
deriving DecidableEq, Repr

/-- A raw sample stream of a slice (R488, R489, R493). -/
structure RawS where
  run : Bool := false
  chan : Chan := 0
  log2 : Nat := 0
  base : W64 := 0
  lost : W16 := 0
  refused : Bool := false
  index : Nat := 0
  first : BitVec 48 := 0
  sets : List (List Byte) := []
  /-- Sets of the block that are valid, and the flags of its header. -/
  validSets : Nat := 0
  free : Bool := false
  gap : Bool := false
  held : List (List Byte) := []
deriving DecidableEq, Repr

/-! ## Detectors, probes and watchman (17) -/

/-- A detector's registers and its injection arming (R518, R521, R523). -/
structure DetS where
  unit : Byte := 0
  injected : Bool := false
  count : BitVec 23 := 0
  last : W32 := 0
  arm : Bool := false
  injCount : Byte := 1
  cycle : BitVec 14 := 0
  injTick : W32 := 0
  made : Nat := 0
  /-- Tick number [31:0] from which the armed point injects (R521). -/
  start : W32 := 0
  /-- The tick in which the point last injected or was skipped. -/
  doneAt : Option W32 := none
deriving DecidableEq, Repr

/-- A line probe (R524 to R529). -/
structure ProbeS where
  interval : W16 := 0
  vf : BitVec 14 := 6600
  irEn : Bool := true
  tdr : W32 := 0
  tdrTick : W32 := 0
  ir : W32 := 0
  irTick : W32 := 0
  surges : W32 := 0
  /-- Ticks of the surges of the last 1,024 ticks. -/
  window : List (BitVec 48) := []
  peak : W16 := 0
  surgeTick : W32 := 0
  event : BitVec 5 := 0
  ampl : W16 := 0
  eq : Byte := 0
  probed : BitVec 48 := 0
  irAt : BitVec 48 := 0
  irHalf : Bool := false
deriving DecidableEq, Repr

/-- The commands of the watchman port (R533). -/
inductive WmCmd where
  | getSeq | readDigest
  | powerCycle (p : BitVec 8) (secs : BitVec 8)
  | resetDomain (d : BitVec 8)
  | wardenLink (l : BitVec 8)
  | readLog (first : W16) (count : BitVec 8)
  | commission (key : List Byte) (l : BitVec 8)
  | rekey (wrapped : List Byte)
deriving DecidableEq, Repr

/-- The watchman port (R530 to R538). -/
structure WatchS where
  addr : Byte := 1
  baud : BitVec 3 := 3
  commissioned : Bool := false
  seq : W32 := 0
  accepted : W16 := 0
  failed : W16 := 0
  event : BitVec 6 := 0
  run : Nat := 0
  /-- The tick at which the lockout ends (R532). -/
  locked : Option (BitVec 48) := none
  /-- An accepted request whose command has not acted. -/
  req : Option (WmCmd × W32) := none
  /-- A command that waits for its commit, with its SEQ (R534). -/
  wait : Option (WmCmd × W32) := none
  /-- Ports whose power cycle runs: port, and the tick from which it ends (R534). -/
  cycles : List (Nat × BitVec 48) := []
  restore : List Nat := []
  /-- The warden key (R374, R536; log entry 25). -/
  key : List Byte := []
  /-- The bytes of a frame in reception (R531; log entry 79), and its station address where WM_CFG has been written since (R538). -/
  rx : List Byte := []
  station : Option Byte := none
deriving DecidableEq, Repr

/-- A record of the AON log (R454). -/
structure AonRec where
  boot : W16
  tick : BitVec 48
  code : Byte
  unit : Byte
  value : W32
deriving DecidableEq, Repr

end Sys2Proof.Machine
end

