-- ==== Sys2Proof/Machine/State.lean ====
section
/-! DEFINITION. The state of the module, what can stop a step, and the state after reset. Every piece of state is
plain data; tables by number list only the entries something has set. -/
namespace Sys2Proof.Machine

/-- What is wrong with a command that can never occur. -/
inductive Fault where
  /-- A Coresh instruction that the admission unit never accepts (R193 to R200, R228): no unit ever runs it.
  Raised by every Coresh meaning. Safe: the module runs no such instruction. -/
  | notAdmitted
deriving DecidableEq, Repr

/-- Why a command has no meaning in the model. -/
inductive Refusal where
  /-- Not modelled yet. Raised by no arm of `exec` that has a meaning. Safe. -/
  | notModelled (mnemonic : String)
deriving DecidableEq, Repr

/-- What the journal holds of the module's configuration (R51): the committed values by number (log entries 7, 14). -/
structure Journal where
  slices : Tab SliceS := []
  /-- The journal keys, wrapped under the device key, and the identifiers of the image KEKs (R374, R377). -/
  keys : Tab (Option (List Byte) × Option (W64 × List Byte)) := []
  /-- The owners of the pages that are not S0's (R370). -/
  pages : Tab Slice := []
  attach : Tab (Slice × Bool) := []
  plan : Tab DevId := []
  /-- Pinned handles with the slice that pins. -/
  pins : Tab Slice := []
  power : Tab PortSet := []
  bounds : Tab (W32 × W32) := []
  actBounds : Tab (W32 × W32) := []
  graphs : Tab GraphS := []
  /-- The tasks and flows of the graphs, as admitted. -/
  tasks : Tab TaskS := []
  flows : Tab FlowS := []
  sched : Tab SchedS := []
  queues : Tab QueueS := []
  chans : Tab ChS := []
  eqs : Tab (W64 × BitVec 5 × Tab Byte) := []
  srcs : Tab SrcCfg := []
  domCtl : Tab (Bool × DomReq) := []
  probes : Tab (W16 × BitVec 14 × Bool) := []
  relay : W16 := 0
  warden : Link := 0
  wmAddr : Byte := 1
  wmBaud : BitVec 3 := 3
deriving DecidableEq, Repr

/-- The state of the module NH-4816. -/
structure State where
  /-- Tick, epoch, commit logic, PPS (02). -/
  tick : TickS
  /-- Commit decided in this selvage, and it was a commit (R33). -/
  committed : Bool
  /-- Host links HL0 to HL3 (16 R505). -/
  links : Tab LinkS
  /-- The warden link (R364), and slices S0 to S63 (11). -/
  warden : Ver Link
  slices : Tab (Ver SliceS)
  sliceX : Tab SliceX
  attach : Tab (Ver (Option (Slice × Bool)))
  plan : Tab (Ver (Option DevId))
  /-- Slice commands whose effect the commit carries out. -/
  sliceActs : Ver (List SliceAct)
  /-- Page owner table: pages whose entry differs from the cold-start entry (R370, R377). -/
  pot : Tab (Ver Page)
  scrubPos : Nat
  /-- Bytes that the gleaner may still write and the scrub may still read in this tick (R23, R373). -/
  fillRoom : Nat
  scrubRoom : Nat
  /-- The draw of the module memory key (R374). -/
  moduleKey : Option Nat
  scrubPasses : W32
  eccCorrected : W32
  /-- The verified image in the staging area, and the target a load named (R386). -/
  stagedImage : Option (Slice × List W64)
  loadTarget : Option Slice
  /-- The 12 CONTEXT entries kept by a restore (R387; log entry 59): handle, timeout, scratch. -/
  keptCtx : Ver (List (Nat × W32 × W64))
  /-- Event sources, queues and records (12). -/
  srcCfg : Tab (Ver SrcCfg)
  srcs : Tab Src
  raised : List Occ
  eqs : Tab EqS
  owedEv : List EvRec
  /-- Ports: link layer (03). -/
  ports : Tab PortL
  /-- Contexts, device table, cache, staging, enumeration, tree service (05, 07). -/
  ctxs : Tab (Ver Ctx)
  devs : Tab (Ver Dev)
  devX : Tab (Ver DevX)
  cache : Tab CWay
  staging : List Stage
  /-- Contexts whose ticket's deadline was reached in this tick (R153, R154). -/
  timeouts : List CtxIdx
  stageLate : W16
  stagePeak : Nat
  stagedNow : Nat
  ctxLost : W32
  /-- Pinned handles with the slice that pins (R177). -/
  pins : Tab (Ver (Option Slice))
  enums : Tab (Ver EnumS)
  trees : Tab (Ver TreeS)
  /-- Loom threads and steward cores: 0 to 15 the threads of P0 to P15, 16 to 19 T0 to T3 (06). -/
  threads : Tab Thread
  shuttles : Tab Shuttle
  /-- Schedule and admission (07). -/
  sched : Tab (Ver SchedS)
  admission : Ver (List AdmReq)
  /-- Queues, completions and payload (08). -/
  queues : Tab (Ver QueueS)
  /-- QCONS as the record writer shows it (R275), and QUEUE_STAT (R292). -/
  qcons : Tab (BitVec 17)
  qstat : Tab (BitVec 2)
  drawn : Ver Nat
  halves : Tab Halves
  cplPend : List Cpl
  payPend : List Pay
  owedCpl : List Cpl
  owedPay : List Pay
  /-- What commands write to a buffer of the slice, to be issued before their completion (R289, R352, R388). -/
  wordsPend : List (Slice × W64 × List Byte)
  owedWords : List (Slice × W64 × List Byte)
  /-- DMA channels (09). -/
  chans : Tab (Ver ChS)
  chanX : Tab ChX
  /-- Completion-queue records whose tick has committed (R316). -/
  owedRec : List (Chan × ChRec)
  /-- What the commit of this tick made due (R9, R13). -/
  due : Owed
  /-- The steward (10). -/
  tasks : Tab (Ver TaskS)
  flows : Tab (Ver FlowS)
  graphs : Tab (Ver GraphS)
  gchanges : Ver (List (BitVec 48 × GChange))
  cores : Tab (Ver CoreS)
  corePeak : Tab Nat
  coreContained : Tab Bool
  decisions : List Decision
  /-- Flags that SET_FLAG sets at the commit of this tick (R323). -/
  flagSets : List (Task × BitVec 5)
  /-- Values that an owner's command sets in this tick, by actuator (R19). -/
  ownerSet : List (BitVec 15)
  bounds : Tab (Ver (Option (W32 × W32)))
  actBounds : Tab (Ver (Option (W32 × W32)))
  bridges : Tab (Ver Bridge)
  policy : Ver PolicyS
  shedOrder : Ver (List (BitVec 4))
  trace : List TraceRec
  streams : Tab (Ver Stream)
  snapshot : Tab W32
  /-- Measurements of abandoned ticks not yet given to the graphs, by item in order of the ticks, and how many ticks (R39). -/
  merging : Tab (List W32)
  mergeTicks : Nat
  /-- Traffic counted in the tick, by snapshot item: an abandoned tick drops it (R14, R28). -/
  traffic : Tab W32
  /-- Surges, code violations and relocks of the tick, by snapshot item: not rolled back (R29, R336). -/
  tickCounts : Tab W32
  stwStat : Tab (W16 × W16)
  stwEvent : Tab (BitVec 5)
  /-- Port power (13), supply, domains and AON log (14). -/
  pset : Tab (Ver PortSet)
  power : Tab PortP
  relay : W16
  supply : SupplyS
  doms : Tab DomS
  domPorts : Tab (List Nat)
  aonLog : Tab AonRec
  aonNext : BitVec 12
  boot : W16
  /-- Metrology (15). -/
  met : MetS
  metPub : Ver MetPub
  raws : Tab RawS
  /-- Detectors, probes, watchman (17). -/
  dets : Tab DetS
  dtPend : BitVec 128
  injSkipped : W16
  injMade : W16
  probes : Tab ProbeS
  surgeMainsCnt : W16
  surgeMainsPeak : W16
  watch : WatchS
  /-- The journal as durable in flash, and the committed changes that wait for it, oldest first (R51, R52). -/
  durable : Journal
  jwait : List (W32 × Journal)
  /-- Model's own: what the module has sent, in order (log entry 3). -/
  out : List Out
  /-- Model's own: how many free values have been used (log entry 6). -/
  freeCount : Nat
  /-- The commands that wait, first in, first out. -/
  pending : List Instr
deriving DecidableEq, Repr

/-- The warden slice S0 after reset: RUNNING, bound to window 0 of HL0 (R357, R536; log entry 7). -/
def sliceS0 : SliceS := { st := .running, bound := true }

/-- The module right after a cold start with an empty journal: tick 0, epoch 0, every port DETACHED, every page
in FILL, every register at the reset value of its table (log entries 7, 10). -/
def State.reset : State where
  tick := {}
  committed := false
  links := []
  warden := .of 0
  slices := [(0, .of sliceS0)]
  sliceX := [(0, { memKey := some 0, filling := true })]
  attach := []
  plan := []
  sliceActs := .of []
  pot := []
  scrubPos := 0
  fillRoom := 56250
  scrubRoom := 18750
  moduleKey := some 1
  scrubPasses := 0
  eccCorrected := 0
  stagedImage := none
  loadTarget := none
  keptCtx := .of []
  srcCfg := []
  srcs := []
  raised := []
  eqs := []
  owedEv := []
  ports := []
  ctxs := []
  devs := []
  devX := []
  cache := []
  staging := []
  timeouts := []
  stageLate := 0
  stagePeak := 0
  stagedNow := 0
  ctxLost := 0
  pins := []
  enums := []
  trees := []
  threads := []
  shuttles := []
  sched := []
  admission := .of []
  queues := []
  qcons := []
  qstat := []
  drawn := .of 0
  halves := []
  cplPend := []
  payPend := []
  owedCpl := []
  owedPay := []
  wordsPend := []
  owedWords := []
  chans := []
  chanX := []
  owedRec := []
  due := {}
  tasks := []
  flows := []
  graphs := []
  gchanges := .of []
  cores := []
  corePeak := []
  coreContained := []
  decisions := []
  flagSets := []
  ownerSet := []
  bounds := []
  actBounds := []
  bridges := []
  policy := .of {}
  shedOrder := .of []
  trace := []
  streams := []
  snapshot := []
  merging := []
  mergeTicks := 0
  traffic := []
  tickCounts := []
  stwStat := []
  stwEvent := []
  pset := []
  power := []
  relay := 0
  supply := { release := some 1 }
  doms := []
  domPorts := []
  aonLog := []
  aonNext := 0
  boot := 0
  met := {}
  metPub := .of {}
  raws := []
  dets := []
  dtPend := 0
  injSkipped := 0
  injMade := 0
  probes := []
  surgeMainsCnt := 0
  surgeMainsPeak := 0
  watch := {}
  durable := { slices := [(0, sliceS0)] }
  jwait := []
  out := []
  freeCount := 2
  pending := []

end Sys2Proof.Machine
end

