-- ==== Sys2Proof/Machine/Access.lean ====
section
/-! DEFINITION. Access to the parts of the state by number, and the changes of them: every change of an item held in
two versions goes through its pending slot (R28, R30). -/
namespace Sys2Proof.Machine

/-- The epoch (R30). -/
def State.e (s : State) : W32 := s.tick.epochA

/-- Entry `k` of `slices` as the module works on it: pending if written in this tick (R28). -/
def State.slice (s : State) (k : Nat) : SliceS := Tab.cur {} s.slices k
/-- The committed version of entry `k` of `slices` (R28, R30). -/
def State.comSlice (s : State) (k : Nat) : SliceS := Tab.comAt {} s.e s.slices k
/-- A pending change of entry `k` of `slices` (R30). -/
def State.updSlice (s : State) (k : Nat) (f : SliceS → SliceS) : State :=
  { s with slices := Tab.putBy {} s.e s.slices k f }

/-- Entry `k` of `attach` as the module works on it: pending if written in this tick (R28). -/
def State.attachAt (s : State) (k : Nat) : Option (Sys2Proof.Slice × Bool) := Tab.cur none s.attach k
/-- The committed version of entry `k` of `attach` (R28, R30). -/
def State.comAttach (s : State) (k : Nat) : Option (Sys2Proof.Slice × Bool) := Tab.comAt none s.e s.attach k
/-- A pending change of entry `k` of `attach` (R30). -/
def State.updAttach (s : State) (k : Nat) (f : Option (Sys2Proof.Slice × Bool) → Option (Sys2Proof.Slice × Bool)) : State :=
  { s with attach := Tab.putBy none s.e s.attach k f }

/-- Entry `k` of `plan` as the module works on it: pending if written in this tick (R28; log entry 81). -/
def State.planAt (s : State) (k : Nat) : Option DevId := Tab.cur none s.plan k
/-- The committed version of entry `k` of `plan` (R28, R30). -/
def State.comPlan (s : State) (k : Nat) : Option DevId := Tab.comAt none s.e s.plan k
/-- A pending change of entry `k` of `plan` (R30; log entry 81). -/
def State.updPlan (s : State) (k : Nat) (f : Option DevId → Option DevId) : State :=
  { s with plan := Tab.putBy none s.e s.plan k f }

/-- Entry `k` of `srcCfg` as the module works on it: pending if written in this tick (R28). -/
def State.srcCfgAt (s : State) (k : Nat) : SrcCfg := Tab.cur {} s.srcCfg k
/-- The committed version of entry `k` of `srcCfg` (R28, R30). -/
def State.comSrcCfg (s : State) (k : Nat) : SrcCfg := Tab.comAt {} s.e s.srcCfg k
/-- A pending change of entry `k` of `srcCfg` (R30). -/
def State.updSrcCfg (s : State) (k : Nat) (f : SrcCfg → SrcCfg) : State :=
  { s with srcCfg := Tab.putBy {} s.e s.srcCfg k f }

/-- Entry `k` of `ctxs` as the module works on it: pending if written in this tick (R28). -/
def State.ctx (s : State) (k : Nat) : Ctx := Tab.cur {} s.ctxs k
/-- The committed version of entry `k` of `ctxs` (R28, R30). -/
def State.comCtx (s : State) (k : Nat) : Ctx := Tab.comAt {} s.e s.ctxs k
/-- A pending change of entry `k` of `ctxs` (R30). -/
def State.updCtx (s : State) (k : Nat) (f : Ctx → Ctx) : State :=
  { s with ctxs := Tab.putBy {} s.e s.ctxs k f }

/-- Entry `k` of `devs` as the module works on it: pending if written in this tick (R28). -/
def State.dev (s : State) (k : Nat) : Dev := Tab.cur {} s.devs k
/-- The committed version of entry `k` of `devs` (R28, R30). -/
def State.comDev (s : State) (k : Nat) : Dev := Tab.comAt {} s.e s.devs k
/-- A pending change of entry `k` of `devs` (R30). -/
def State.updDev (s : State) (k : Nat) (f : Dev → Dev) : State :=
  { s with devs := Tab.putBy {} s.e s.devs k f }

/-- Entry `k` of `devX` as the module works on it: pending if written in this tick (R28). -/
def State.devXAt (s : State) (k : Nat) : DevX := Tab.cur {} s.devX k
/-- The committed version of entry `k` of `devX` (R28, R30). -/
def State.comDevX (s : State) (k : Nat) : DevX := Tab.comAt {} s.e s.devX k
/-- A pending change of entry `k` of `devX` (R30). -/
def State.updDevX (s : State) (k : Nat) (f : DevX → DevX) : State :=
  { s with devX := Tab.putBy {} s.e s.devX k f }

/-- Entry `k` of `pins` as the module works on it: pending if written in this tick (R28). -/
def State.pinAt (s : State) (k : Nat) : Option Sys2Proof.Slice := Tab.cur none s.pins k
/-- The committed version of entry `k` of `pins` (R28, R30). -/
def State.comPin (s : State) (k : Nat) : Option Sys2Proof.Slice := Tab.comAt none s.e s.pins k
/-- A pending change of entry `k` of `pins` (R30). -/
def State.updPin (s : State) (k : Nat) (f : Option Sys2Proof.Slice → Option Sys2Proof.Slice) : State :=
  { s with pins := Tab.putBy none s.e s.pins k f }

/-- Entry `k` of `enums` as the module works on it: pending if written in this tick (R28). -/
def State.enum (s : State) (k : Nat) : EnumS := Tab.cur {} s.enums k
/-- The committed version of entry `k` of `enums` (R28, R30). -/
def State.comEnum (s : State) (k : Nat) : EnumS := Tab.comAt {} s.e s.enums k
/-- A pending change of entry `k` of `enums` (R30). -/
def State.updEnum (s : State) (k : Nat) (f : EnumS → EnumS) : State :=
  { s with enums := Tab.putBy {} s.e s.enums k f }

/-- Entry `k` of `trees` as the module works on it: pending if written in this tick (R28). -/
def State.tree (s : State) (k : Nat) : TreeS := Tab.cur {} s.trees k
/-- The committed version of entry `k` of `trees` (R28, R30). -/
def State.comTree (s : State) (k : Nat) : TreeS := Tab.comAt {} s.e s.trees k
/-- A pending change of entry `k` of `trees` (R30). -/
def State.updTree (s : State) (k : Nat) (f : TreeS → TreeS) : State :=
  { s with trees := Tab.putBy {} s.e s.trees k f }

/-- Entry `k` of `sched` as the module works on it: pending if written in this tick (R28). -/
def State.schedAt (s : State) (k : Nat) : SchedS := Tab.cur {} s.sched k
/-- The committed version of entry `k` of `sched` (R28, R30). -/
def State.comSched (s : State) (k : Nat) : SchedS := Tab.comAt {} s.e s.sched k
/-- A pending change of entry `k` of `sched` (R30). -/
def State.updSched (s : State) (k : Nat) (f : SchedS → SchedS) : State :=
  { s with sched := Tab.putBy {} s.e s.sched k f }

/-- Entry `k` of `queues` as the module works on it: pending if written in this tick (R28). -/
def State.queue (s : State) (k : Nat) : QueueS := Tab.cur {} s.queues k
/-- The committed version of entry `k` of `queues` (R28, R30). -/
def State.comQueue (s : State) (k : Nat) : QueueS := Tab.comAt {} s.e s.queues k
/-- A pending change of entry `k` of `queues` (R30). -/
def State.updQueue (s : State) (k : Nat) (f : QueueS → QueueS) : State :=
  { s with queues := Tab.putBy {} s.e s.queues k f }

/-- Entry `k` of `chans` as the module works on it: pending if written in this tick (R28). -/
def State.chan (s : State) (k : Nat) : ChS := Tab.cur {} s.chans k
/-- The committed version of entry `k` of `chans` (R28, R30). -/
def State.comChan (s : State) (k : Nat) : ChS := Tab.comAt {} s.e s.chans k
/-- A pending change of entry `k` of `chans` (R30). -/
def State.updChan (s : State) (k : Nat) (f : ChS → ChS) : State :=
  { s with chans := Tab.putBy {} s.e s.chans k f }

/-- Entry `k` of `tasks` as the module works on it: pending if written in this tick (R28). -/
def State.task (s : State) (k : Nat) : TaskS := Tab.cur {} s.tasks k
/-- The committed version of entry `k` of `tasks` (R28, R30). -/
def State.comTask (s : State) (k : Nat) : TaskS := Tab.comAt {} s.e s.tasks k
/-- A pending change of entry `k` of `tasks` (R30). -/
def State.updTask (s : State) (k : Nat) (f : TaskS → TaskS) : State :=
  { s with tasks := Tab.putBy {} s.e s.tasks k f }

/-- Entry `k` of `flows` as the module works on it: pending if written in this tick (R28). -/
def State.flowAt (s : State) (k : Nat) : FlowS := Tab.cur {} s.flows k
/-- The committed version of entry `k` of `flows` (R28, R30). -/
def State.comFlow (s : State) (k : Nat) : FlowS := Tab.comAt {} s.e s.flows k
/-- A pending change of entry `k` of `flows` (R30). -/
def State.updFlow (s : State) (k : Nat) (f : FlowS → FlowS) : State :=
  { s with flows := Tab.putBy {} s.e s.flows k f }

/-- Entry `k` of `graphs` as the module works on it: pending if written in this tick (R28). -/
def State.graph (s : State) (k : Nat) : GraphS := Tab.cur {} s.graphs k
/-- The committed version of entry `k` of `graphs` (R28, R30). -/
def State.comGraph (s : State) (k : Nat) : GraphS := Tab.comAt {} s.e s.graphs k
/-- A pending change of entry `k` of `graphs` (R30). -/
def State.updGraph (s : State) (k : Nat) (f : GraphS → GraphS) : State :=
  { s with graphs := Tab.putBy {} s.e s.graphs k f }

/-- Entry `k` of `cores` as the module works on it: pending if written in this tick (R28). -/
def State.coreAt (s : State) (k : Nat) : CoreS := Tab.cur {} s.cores k
/-- The committed version of entry `k` of `cores` (R28, R30). -/
def State.comCore (s : State) (k : Nat) : CoreS := Tab.comAt {} s.e s.cores k
/-- A pending change of entry `k` of `cores` (R30). -/
def State.updCore (s : State) (k : Nat) (f : CoreS → CoreS) : State :=
  { s with cores := Tab.putBy {} s.e s.cores k f }

/-- Entry `k` of `bounds` as the module works on it: pending if written in this tick (R28). -/
def State.boundAt (s : State) (k : Nat) : Option (W32 × W32) := Tab.cur none s.bounds k
/-- The committed version of entry `k` of `bounds` (R28, R30). -/
def State.comBound (s : State) (k : Nat) : Option (W32 × W32) := Tab.comAt none s.e s.bounds k
/-- A pending change of entry `k` of `bounds` (R30). -/
def State.updBound (s : State) (k : Nat) (f : Option (W32 × W32) → Option (W32 × W32)) : State :=
  { s with bounds := Tab.putBy none s.e s.bounds k f }

/-- Entry `k` of `actBounds` as the module works on it: pending if written in this tick (R28). -/
def State.actBoundAt (s : State) (k : Nat) : Option (W32 × W32) := Tab.cur none s.actBounds k
/-- The committed version of entry `k` of `actBounds` (R28, R30). -/
def State.comActBound (s : State) (k : Nat) : Option (W32 × W32) := Tab.comAt none s.e s.actBounds k
/-- A pending change of entry `k` of `actBounds` (R30). -/
def State.updActBound (s : State) (k : Nat) (f : Option (W32 × W32) → Option (W32 × W32)) : State :=
  { s with actBounds := Tab.putBy none s.e s.actBounds k f }

/-- Entry `k` of `bridges` as the module works on it: pending if written in this tick (R28). -/
def State.bridge (s : State) (k : Nat) : Bridge := Tab.cur {} s.bridges k
/-- The committed version of entry `k` of `bridges` (R28, R30). -/
def State.comBridge (s : State) (k : Nat) : Bridge := Tab.comAt {} s.e s.bridges k
/-- A pending change of entry `k` of `bridges` (R30). -/
def State.updBridge (s : State) (k : Nat) (f : Bridge → Bridge) : State :=
  { s with bridges := Tab.putBy {} s.e s.bridges k f }

/-- Entry `k` of `streams` as the module works on it: pending if written in this tick (R28). -/
def State.stream (s : State) (k : Nat) : Stream := Tab.cur {} s.streams k
/-- The committed version of entry `k` of `streams` (R28, R30). -/
def State.comStream (s : State) (k : Nat) : Stream := Tab.comAt {} s.e s.streams k
/-- A pending change of entry `k` of `streams` (R30). -/
def State.updStream (s : State) (k : Nat) (f : Stream → Stream) : State :=
  { s with streams := Tab.putBy {} s.e s.streams k f }

/-- Entry `k` of `pset` as the module works on it: pending if written in this tick (R28). -/
def State.psetAt (s : State) (k : Nat) : PortSet := Tab.cur {} s.pset k
/-- The committed version of entry `k` of `pset` (R28, R30). -/
def State.comPSet (s : State) (k : Nat) : PortSet := Tab.comAt {} s.e s.pset k
/-- A pending change of entry `k` of `pset` (R30). -/
def State.updPSet (s : State) (k : Nat) (f : PortSet → PortSet) : State :=
  { s with pset := Tab.putBy {} s.e s.pset k f }

/-- Entry `k` of `links`. -/
def State.link (s : State) (k : Nat) : LinkS := Tab.get {} s.links k
/-- A change of entry `k` of `links`, which acts at once. -/
def State.updLink (s : State) (k : Nat) (f : LinkS → LinkS) : State :=
  { s with links := Tab.upd {} s.links k f }

/-- Entry `k` of `sliceX`. -/
def State.sliceXAt (s : State) (k : Nat) : SliceX := Tab.get {} s.sliceX k
/-- A change of entry `k` of `sliceX`, which acts at once. -/
def State.updSliceX (s : State) (k : Nat) (f : SliceX → SliceX) : State :=
  { s with sliceX := Tab.upd {} s.sliceX k f }

/-- Entry `k` of `srcs`. -/
def State.src (s : State) (k : Nat) : Src := Tab.get {} s.srcs k
/-- A change of entry `k` of `srcs`, which acts at once. -/
def State.updSrc (s : State) (k : Nat) (f : Src → Src) : State :=
  { s with srcs := Tab.upd {} s.srcs k f }

/-- Entry `k` of `eqs`. -/
def State.eq (s : State) (k : Nat) : EqS := Tab.get {} s.eqs k
/-- A change of entry `k` of `eqs`, which acts at once. -/
def State.updEq (s : State) (k : Nat) (f : EqS → EqS) : State :=
  { s with eqs := Tab.upd {} s.eqs k f }

/-- Entry `k` of `ports`. -/
def State.port (s : State) (k : Nat) : PortL := Tab.get {} s.ports k
/-- A change of entry `k` of `ports`, which acts at once. -/
def State.updPort (s : State) (k : Nat) (f : PortL → PortL) : State :=
  { s with ports := Tab.upd {} s.ports k f }

/-- Entry `k` of `threads`. -/
def State.thread (s : State) (k : Nat) : Thread := Tab.get {} s.threads k
/-- A change of entry `k` of `threads`, which acts at once. -/
def State.updThread (s : State) (k : Nat) (f : Thread → Thread) : State :=
  { s with threads := Tab.upd {} s.threads k f }

/-- Entry `k` of `shuttles`. -/
def State.shuttle (s : State) (k : Nat) : Shuttle := Tab.get {} s.shuttles k
/-- A change of entry `k` of `shuttles`, which acts at once. -/
def State.updShuttle (s : State) (k : Nat) (f : Shuttle → Shuttle) : State :=
  { s with shuttles := Tab.upd {} s.shuttles k f }

/-- Entry `k` of `halves`. -/
def State.half (s : State) (k : Nat) : Halves := Tab.get {} s.halves k
/-- A change of entry `k` of `halves`, which acts at once. -/
def State.updHalf (s : State) (k : Nat) (f : Halves → Halves) : State :=
  { s with halves := Tab.upd {} s.halves k f }

/-- Entry `k` of `chanX`. -/
def State.chanXAt (s : State) (k : Nat) : ChX := Tab.get {} s.chanX k
/-- A change of entry `k` of `chanX`, which acts at once. -/
def State.updChanX (s : State) (k : Nat) (f : ChX → ChX) : State :=
  { s with chanX := Tab.upd {} s.chanX k f }

/-- Entry `k` of `power`. -/
def State.fuse (s : State) (k : Nat) : PortP := Tab.get {} s.power k
/-- A change of entry `k` of `power`, which acts at once. -/
def State.updFuse (s : State) (k : Nat) (f : PortP → PortP) : State :=
  { s with power := Tab.upd {} s.power k f }

/-- Entry `k` of `doms`. -/
def State.dom (s : State) (k : Nat) : DomS := Tab.get {} s.doms k
/-- A change of entry `k` of `doms`, which acts at once. -/
def State.updDom (s : State) (k : Nat) (f : DomS → DomS) : State :=
  { s with doms := Tab.upd {} s.doms k f }

/-- Entry `k` of `raws`. -/
def State.raw (s : State) (k : Nat) : RawS := Tab.get {} s.raws k
/-- A change of entry `k` of `raws`, which acts at once. -/
def State.updRaw (s : State) (k : Nat) (f : RawS → RawS) : State :=
  { s with raws := Tab.upd {} s.raws k f }

/-- Entry `k` of `dets`. -/
def State.det (s : State) (k : Nat) : DetS := Tab.get {} s.dets k
/-- A change of entry `k` of `dets`, which acts at once. -/
def State.updDet (s : State) (k : Nat) (f : DetS → DetS) : State :=
  { s with dets := Tab.upd {} s.dets k f }

/-- Entry `k` of `probes`. -/
def State.probe (s : State) (k : Nat) : ProbeS := Tab.get {} s.probes k
/-- A change of entry `k` of `probes`, which acts at once. -/
def State.updProbe (s : State) (k : Nat) (f : ProbeS → ProbeS) : State :=
  { s with probes := Tab.upd {} s.probes k f }

/-- `warden` as the module works on it (R28). -/
def State.wardenNow (s : State) : Link := s.warden.cur
/-- A pending change of `warden` (R30). -/
def State.updWarden (s : State) (f : Link → Link) : State := { s with warden := s.warden.upd s.e f }

/-- `admission` as the module works on it (R28). -/
def State.admitting (s : State) : List AdmReq := s.admission.cur
/-- A pending change of `admission` (R30). -/
def State.updAdmission (s : State) (f : List AdmReq → List AdmReq) : State := { s with admission := s.admission.upd s.e f }

/-- `drawn` as the module works on it (R28). -/
def State.drawCount (s : State) : Nat := s.drawn.cur
/-- A pending change of `drawn` (R30). -/
def State.updDrawn (s : State) (f : Nat → Nat) : State := { s with drawn := s.drawn.upd s.e f }

/-- `gchanges` as the module works on it (R28). -/
def State.gchange (s : State) : List (BitVec 48 × GChange) := s.gchanges.cur
/-- A pending change of `gchanges` (R30). -/
def State.updGChanges (s : State) (f : List (BitVec 48 × GChange) → List (BitVec 48 × GChange)) : State := { s with gchanges := s.gchanges.upd s.e f }

/-- `policy` as the module works on it (R28). -/
def State.policyNow (s : State) : PolicyS := s.policy.cur
/-- A pending change of `policy` (R30). -/
def State.updPolicy (s : State) (f : PolicyS → PolicyS) : State := { s with policy := s.policy.upd s.e f }

/-- `shedOrder` as the module works on it (R28). -/
def State.shedNow (s : State) : List (BitVec 4) := s.shedOrder.cur
/-- A pending change of `shedOrder` (R30). -/
def State.updShedOrder (s : State) (f : List (BitVec 4) → List (BitVec 4)) : State := { s with shedOrder := s.shedOrder.upd s.e f }

/-- `metPub` as the module works on it (R28). -/
def State.metNow (s : State) : MetPub := s.metPub.cur
/-- A pending change of `metPub` (R30). -/
def State.updMetPub (s : State) (f : MetPub → MetPub) : State := { s with metPub := s.metPub.upd s.e f }

/-- `sliceActs` as the module works on it (R28). -/
def State.sliceActsNow (s : State) : List SliceAct := s.sliceActs.cur
/-- A pending change of `sliceActs` (R30). -/
def State.updSliceActs (s : State) (f : List SliceAct → List SliceAct) : State := { s with sliceActs := s.sliceActs.upd s.e f }

/-- `keptCtx` as the module works on it (R28). -/
def State.kept (s : State) : List (Nat × W32 × W64) := s.keptCtx.cur
/-- A pending change of `keptCtx` (R30). -/
def State.updKept (s : State) (f : List (Nat × W32 × W64) → List (Nat × W32 × W64)) : State := { s with keptCtx := s.keptCtx.upd s.e f }

/-- Applies an operation on versioned items to every one the module holds (R28). -/
def State.mapVer (s : State) (f : {α : Type} → Ver α → Ver α) : State :=
  { s with
    slices := s.slices.mapV f
    attach := s.attach.mapV f
    plan := s.plan.mapV f
    srcCfg := s.srcCfg.mapV f
    ctxs := s.ctxs.mapV f
    devs := s.devs.mapV f
    devX := s.devX.mapV f
    pins := s.pins.mapV f
    enums := s.enums.mapV f
    trees := s.trees.mapV f
    sched := s.sched.mapV f
    queues := s.queues.mapV f
    chans := s.chans.mapV f
    tasks := s.tasks.mapV f
    flows := s.flows.mapV f
    graphs := s.graphs.mapV f
    cores := s.cores.mapV f
    bounds := s.bounds.mapV f
    actBounds := s.actBounds.mapV f
    bridges := s.bridges.mapV f
    streams := s.streams.mapV f
    pset := s.pset.mapV f
    pot := s.pot.mapV f
    warden := f s.warden
    admission := f s.admission
    drawn := f s.drawn
    gchanges := f s.gchanges
    policy := f s.policy
    shedOrder := f s.shedOrder
    metPub := f s.metPub
    sliceActs := f s.sliceActs
    keptCtx := f s.keptCtx
    eqs := s.eqs.mapV (fun q => { q with evtLost := f q.evtLost }) }

end Sys2Proof.Machine
end

