-- ==== Sys2Proof/Config.lean ====
section
/-! DEFINITION. What a module fixes for its life, and the free values: values the spec leaves open, which nothing
in the model can evaluate. -/
namespace Sys2Proof.Config

/-- A value the spec leaves undefined, by the number of its use (R6; log entry 6). -/
opaque freeValue : Nat → BitVec 64

/-- The words of a key drawn by the random bit generator, by the number of the draw (R376; log entry 25). -/
opaque keyWord : Nat → Nat → BitVec 64

/-- The words of the device key, set at manufacture (R374; log entry 25). -/
opaque deviceKey : Nat → BitVec 64

/-- The serial number of the module (R510, per module). -/
opaque serial : BitVec 64

end Sys2Proof.Config
end

