-- ==== Sys2Proof/Machine/Crypto.lean ====
section
/-! DEFINITION. The ciphers that the spec names by their standards (11 R374, R375, R383; 17 R531): AES-256, XTS on a DRAM line, AES key wrap,
GCM, and HMAC with SHA-256. PRESUMED: what the standards lay down (log entry 119). -/
namespace Sys2Proof.Machine

open Sys2Proof

/-- The low `n` bytes of a number, least significant first. -/
def leBytes (n v : Nat) : List Byte :=
  match n with
  | 0 => []
  | k + 1 => BitVec.ofNat 8 v :: leBytes k (v / 256)

/-- The number that bytes spell, least significant first. -/
def leNat : List Byte → Nat
  | [] => 0
  | b :: bs => b.toNat + 256 * leNat bs

/-- Bytes added without carry, as long as the shorter list. -/
def xorBytes (a b : List Byte) : List Byte := List.zipWith (· ^^^ ·) a b

/-- The number that bytes spell, most significant first. -/
def beNat (bs : List Byte) : Nat := bs.foldl (fun n b => n * 256 + b.toNat) 0

/-- The low `n` bytes of a number, most significant first. -/
def beOf (n v : Nat) : List Byte := (List.range n).map (fun i => BitVec.ofNat 8 (v / 256 ^ (n - 1 - i)))

/-- A list in pieces of `k`, at most `n` of them. -/
def pieces {α : Type} (k : Nat) : Nat → List α → List (List α)
  | 0, _ => []
  | n + 1, l => if l.isEmpty then [] else l.take k :: pieces k n (l.drop k)

/-! ## AES-256 (FIPS 197) -/

/-- Multiplication by x of the field of AES. -/
def gfDouble (b : Byte) : Byte := (b <<< 1) ^^^ (if b.getLsbD 7 then 0x1B else 0)

/-- `b` doubled `n` times. -/
def gfPow : Nat → Byte → Byte
  | 0, b => b
  | n + 1, b => gfPow n (gfDouble b)

/-- Multiplication in the field of AES. -/
def gfMul (a b : Byte) : Byte := (List.range 8).foldl (fun r i => if a.getLsbD i then r ^^^ gfPow i b else r) 0

/-- The S-box of AES (FIPS 197, figure 7): byte `a` of the number is the substitute of `a`. -/
def sTable : Nat :=
  0x16bb54b00f2d99416842e6bf0d89a18cdf2855cee9871e9b948ed9691198f8e1 * 2 ^ 1792 +
  0x9e1dc186b95735610ef6034866b53e708a8bbd4b1f74dde8c6b4a61c2e2578ba * 2 ^ 1536 +
  0x08ae7a65eaf4566ca94ed58d6d37c8e779e4959162acd3c25c2406490a3a32e0 * 2 ^ 1280 +
  0xdb0b5ede14b8ee4688902a22dc4f816073195d643d7ea7c41744975fec130ccd * 2 ^ 1024 +
  0xd2f3ff1021dab6bcf5389d928f40a351a89f3c507f02f94585334d43fbaaefd0 * 2 ^ 768 +
  0xcf584c4a39becb6a5bb1fc20ed00d153842fe329b3d63b52a05a6e1b1a2c8309 * 2 ^ 512 +
  0x75b227ebe28012079a059618c323c7041531d871f1e5a534ccf73f362693fdb7 * 2 ^ 256 +
  0xc072a49cafa2d4adf04759fa7dc982ca76abd7fe2b670130c56f6bf27b777c63

/-- The inverse S-box of AES (FIPS 197, figure 14), laid out alike. -/
def sTableInv : Nat :=
  0x7d0c2155631469e126d677ba7e042b17619953833cbbebc8b0f52aae4d3be0a0 * 2 ^ 1792 +
  0xef9cc9939f7ae52d0d4ab519a97f51605fec8027591012b131c7078833a8dd1f * 2 ^ 1536 +
  0xf45acd78fec0db9a2079d2c64b3e56fc1bbe18aa0e62b76f89c5291d711af147 * 2 ^ 1280 +
  0x6edf751ce837f9e28535ade72274ac9673e6b4f0cecff297eadc674f4111913a * 2 ^ 1024 +
  0x6b8a130103bdafc1020f3fca8f1e2cd00645b3b80558e4f70ad3bc8c00abd890 * 2 ^ 768 +
  0x849d8da75746155edab9edfd5048706c92b6655dcc5ca4d41698688664f6f872 * 2 ^ 512 +
  0x25d18b6d49a25b76b224d92866a12e084ec3fa420b954cee3d23c2a632947b54 * 2 ^ 256 +
  0xcbe9dec444438e3487ff2f9b8239e37cfbd7f3819ea340bf38a53630d56a0952

/-- The substitution of AES and its inverse. -/
def sBox (a : Byte) : Byte := BitVec.ofNat 8 (sTable >>> (8 * a.toNat))
def sBoxInv (a : Byte) : Byte := BitVec.ofNat 8 (sTableInv >>> (8 * a.toNat))

/-- The next word of the key schedule: `i` is its number, `old` the words before it, last first. -/
def nextKeyWord (i : Nat) (old : List (List Byte)) : List Byte :=
  let t := old.headD []
  let t :=
    if i % 8 = 0 then xorBytes ((t.drop 1 ++ t.take 1).map sBox) [gfPow (i / 8 - 1) 1, 0, 0, 0]
    else if i % 8 = 4 then t.map sBox else t
  xorBytes (old.getD 7 []) t

/-- The 15 round keys of a 32-byte key. -/
def roundKeys (key : List Byte) : List (List Byte) :=
  let ws := (List.range 52).foldl (fun acc i => nextKeyWord (i + 8) acc :: acc) (pieces 4 8 key).reverse
  (pieces 4 15 ws.reverse).map List.flatten

/-- Byte `i` of the state after the rows have shifted by their number, and back. -/
def shiftRows (b : List Byte) : List Byte := (List.range 16).map (fun i => b.getD ((i + 4 * (i % 4)) % 16) 0)
def unshiftRows (b : List Byte) : List Byte := (List.range 16).map (fun i => b.getD ((i + 12 * (i % 4)) % 16) 0)

/-- One column times a circulant matrix. -/
def mixColumn (m : List Byte) (c : List Byte) : List Byte :=
  (List.range 4).map (fun r => (List.range 4).foldl (fun acc k => acc ^^^ gfMul (m.getD ((k + 4 - r) % 4) 0) (c.getD k 0)) 0)
def mixColumns (m b : List Byte) : List Byte := ((pieces 4 4 b).map (mixColumn m)).flatten

/-- AES-256 on one block. -/
def aesEncrypt (key blk : List Byte) : List Byte :=
  let ks := roundKeys key
  let s := (List.range 13).foldl (fun s i => xorBytes (mixColumns [2, 3, 1, 1] (shiftRows (s.map sBox))) (ks.getD (i + 1) []))
    (xorBytes blk (ks.headD []))
  xorBytes (shiftRows (s.map sBox)) (ks.getD 14 [])

/-- Its inverse. -/
def aesDecrypt (key blk : List Byte) : List Byte :=
  let ks := roundKeys key
  let s := (List.range 13).foldl (fun s i =>
      mixColumns [14, 11, 13, 9] (xorBytes ((unshiftRows s).map sBoxInv) (ks.getD (13 - i) [])))
    (xorBytes blk (ks.getD 14 []))
  xorBytes ((unshiftRows s).map sBoxInv) (ks.headD [])

/-! ## XTS-AES-256 on a DRAM line (R375, IEEE 1619) -/

/-- The tweak of the next block. -/
def nextTweak (t : List Byte) : List Byte :=
  let v := leNat t * 2
  leBytes 16 (if 2 ^ 128 ≤ v then (v % 2 ^ 128) ^^^ 0x87 else v)

/-- The blocks of a line under their tweaks. -/
def xtsBlocks (f : List Byte → List Byte) : List Byte → List (List Byte) → List Byte
  | _, [] => []
  | t, b :: r => xorBytes (f (xorBytes b t)) t ++ xtsBlocks f (nextTweak t) r

/-- A line of DRAM as stored: `key` is the 64-byte memory key, Key1 its low half; the tweak is the line's number (R375). -/
def xtsEncrypt (key : List Byte) (line : Nat) (bs : List Byte) : List Byte :=
  xtsBlocks (aesEncrypt (key.take 32)) (aesEncrypt (key.drop 32) (leBytes 16 line)) (pieces 16 4 bs)

/-- A line as read. -/
def xtsDecrypt (key : List Byte) (line : Nat) (bs : List Byte) : List Byte :=
  xtsBlocks (aesDecrypt (key.take 32)) (aesEncrypt (key.drop 32) (leBytes 16 line)) (pieces 16 4 bs)

/-! ## AES key wrap (R374, RFC 3394) -/

/-- One step of wrapping: the register and the blocks, `t` the number of the step of `n` blocks. -/
def wrapStep (kek : List Byte) (n : Nat) (x : List Byte × List (List Byte)) (t : Nat) : List Byte × List (List Byte) :=
  let b := aesEncrypt kek (x.1 ++ x.2.getD (t % n) [])
  (xorBytes (b.take 8) (beOf 8 (t + 1)), x.2.set (t % n) (b.drop 8))

/-- A key wrapped under a key. -/
def keyWrap (kek key : List Byte) : List Byte :=
  let n := key.length / 8
  let r := (List.range (6 * n)).foldl (wrapStep kek n) (List.replicate 8 0xA6, pieces 8 n key)
  r.1 ++ r.2.flatten

/-- One step of unwrapping. -/
def unwrapStep (kek : List Byte) (n : Nat) (x : List Byte × List (List Byte)) (t : Nat) : List Byte × List (List Byte) :=
  let b := aesDecrypt kek (xorBytes x.1 (beOf 8 (t + 1)) ++ x.2.getD (t % n) [])
  (b.take 8, x.2.set (t % n) (b.drop 8))

/-- A key unwrapped; none when the integrity check fails. -/
def keyUnwrap (kek bs : List Byte) : Option (List Byte) :=
  let n := bs.length / 8 - 1
  let r := ((List.range (6 * n)).reverse).foldl (unwrapStep kek n) (bs.take 8, pieces 8 n (bs.drop 8))
  if r.1 = List.replicate 8 0xA6 ∧ bs.length = 8 * (n + 1) then some r.2.flatten else none

/-! ## AES-256-GCM (R383, SP 800-38D) -/

/-- A product of GHASH: bit 127 of a number is the first bit of its block. -/
def ghashMul (x y : Nat) : Nat :=
  ((List.range 128).foldl (fun (a : Nat × Nat) i =>
    (if x.testBit (127 - i) then a.1 ^^^ a.2 else a.1,
     if a.2 % 2 = 1 then a.2 / 2 ^^^ 0xE1 * 2 ^ 120 else a.2 / 2)) (0, y)).1

/-- The blocks of a string, the last filled with zeros. -/
def gcmBlocks (bs : List Byte) : List Nat := (pieces 16 (bs.length / 16 + 1) bs).map (fun b => beNat (b ++ List.replicate (16 - b.length) 0))

/-- GHASH of the additional data and the ciphertext. -/
def ghash (h : Nat) (aad ct : List Byte) : Nat :=
  (gcmBlocks aad ++ gcmBlocks ct ++ [8 * aad.length * 2 ^ 64 + 8 * ct.length]).foldl (fun y x => ghashMul (y ^^^ x) h) 0

/-- The counter mode of GCM from counter 2. -/
def gcmCrypt (key iv bs : List Byte) : List Byte :=
  ((pieces 16 (bs.length / 16 + 1) bs).zipIdx.map (fun x => xorBytes x.1 (aesEncrypt key (iv ++ beOf 4 (x.2 + 2))))).flatten

/-- The tag of a ciphertext. -/
def gcmTag (key iv aad ct : List Byte) : List Byte :=
  xorBytes (beOf 16 (ghash (beNat (aesEncrypt key (List.replicate 16 0))) aad ct)) (aesEncrypt key (iv ++ beOf 4 1))

/-! ## HMAC with SHA-256 (R531, FIPS 180-4 and 198-1) -/

/-- The constants of SHA-256. -/
def shaK : List W32 :=
  [0x428A2F98, 0x71374491, 0xB5C0FBCF, 0xE9B5DBA5, 0x3956C25B, 0x59F111F1, 0x923F82A4, 0xAB1C5ED5,
   0xD807AA98, 0x12835B01, 0x243185BE, 0x550C7DC3, 0x72BE5D74, 0x80DEB1FE, 0x9BDC06A7, 0xC19BF174] ++
  [0xE49B69C1, 0xEFBE4786, 0x0FC19DC6, 0x240CA1CC, 0x2DE92C6F, 0x4A7484AA, 0x5CB0A9DC, 0x76F988DA,
   0x983E5152, 0xA831C66D, 0xB00327C8, 0xBF597FC7, 0xC6E00BF3, 0xD5A79147, 0x06CA6351, 0x14292967] ++
  [0x27B70A85, 0x2E1B2138, 0x4D2C6DFC, 0x53380D13, 0x650A7354, 0x766A0ABB, 0x81C2C92E, 0x92722C85,
   0xA2BFE8A1, 0xA81A664B, 0xC24B8B70, 0xC76C51A3, 0xD192E819, 0xD6990624, 0xF40E3585, 0x106AA070] ++
  [0x19A4C116, 0x1E376C08, 0x2748774C, 0x34B0BCB5, 0x391C0CB3, 0x4ED8AA4A, 0x5B9CCA4F, 0x682E6FF3,
   0x748F82EE, 0x78A5636F, 0x84C87814, 0x8CC70208, 0x90BEFFFA, 0xA4506CEB, 0xBEF9A3F7, 0xC67178F2]
def shaH : List W32 :=
  [0x6A09E667, 0xBB67AE85, 0x3C6EF372, 0xA54FF53A, 0x510E527F, 0x9B05688C, 0x1F83D9AB, 0x5BE0CD19]

/-- The next word of the message schedule, `w` the words before it, last first. -/
def nextShaWord (w : List W32) : W32 :=
  let a := w.getD 14 0
  let b := w.getD 1 0
  w.getD 15 0 + (a.rotateRight 7 ^^^ a.rotateRight 18 ^^^ (a >>> 3)) + w.getD 6 0 + (b.rotateRight 17 ^^^ b.rotateRight 19 ^^^ (b >>> 10))

/-- One round of SHA-256 with a constant and a word. -/
def shaRound (v : List W32) (x : W32 × W32) : List W32 :=
  match v with
  | [a, b, c, d, e, f, g, h] =>
    let t1 := h + (e.rotateRight 6 ^^^ e.rotateRight 11 ^^^ e.rotateRight 25) + ((e &&& f) ^^^ (~~~e &&& g)) + x.1 + x.2
    let t2 := (a.rotateRight 2 ^^^ a.rotateRight 13 ^^^ a.rotateRight 22) + ((a &&& b) ^^^ (a &&& c) ^^^ (b &&& c))
    [t1 + t2, a, b, c, d + t1, e, f, g]
  | _ => v

/-- One block of SHA-256. -/
def shaBlock (h : List W32) (blk : List Byte) : List W32 :=
  let m := (pieces 4 16 blk).map (fun b => BitVec.ofNat 32 (beNat b))
  let w := ((List.range 48).foldl (fun acc _ => nextShaWord acc :: acc) m.reverse).reverse
  List.zipWith (· + ·) h ((List.zip shaK w).foldl shaRound h)

/-- SHA-256. -/
def sha256 (bs : List Byte) : List Byte :=
  let pad := bs ++ 0x80 :: List.replicate ((119 - bs.length % 64) % 64) 0 ++ beOf 8 (8 * bs.length)
  (((pieces 64 (pad.length / 64) pad).foldl shaBlock shaH).map (fun w => beOf 4 w.toNat)).flatten

/-- HMAC-SHA-256 under a key of at most 64 bytes. -/
def hmac (key msg : List Byte) : List Byte :=
  let k := key ++ List.replicate (64 - key.length) 0
  sha256 (k.map (· ^^^ 0x5C) ++ sha256 (k.map (· ^^^ 0x36) ++ msg))

/-! ## Keys (R374, R376) -/

/-- `n` bytes of the draw with number `g`, from word `w` on (R376; log entry 25). -/
def drawBytes (g w n : Nat) : List Byte := ((List.range (n / 8)).map (fun i => leBytes 8 (Config.keyWord g (w + i)).toNat)).flatten

/-- A memory key of the draw with number `g`: one whose halves are equal is drawn again (R376). -/
def memKeyOf (g : Nat) : List Byte :=
  let k := drawBytes g 0 64
  if k.take 32 = k.drop 32 then drawBytes g 8 64 else k

/-- The device key (R374). -/
def deviceKey : List Byte := ((List.range 4).map (fun i => leBytes 8 (Config.deviceKey i).toNat)).flatten

/-- A key as flash holds it (R374). -/
def inFlash (key : List Byte) : List Byte := keyWrap deviceKey key

end Sys2Proof.Machine
end

