-- ==== Sys2Proof/Machine/Ops.lean ====
section
/-! DEFINITION. The operations that the meanings share: numbers of things, what the module sends, the AON log,
occurrences of sources, domains, owners of routes, and free values. -/
namespace Sys2Proof.Machine

open Sys2Proof

/-! ## Time and counts -/

/-- The tick number (R24). -/
def State.now (s : State) : Nat := s.tick.n.toNat

/-- Tick number [31:0]. -/
def State.now32 (s : State) : W32 := s.tick.n.setWidth 32

/-- System clocks since cold start at a cycle of the current tick (R26). -/
def State.clockAt (s : State) (c : Cycle) : Nat := s.now * 12500 + c.toNat

/-- The tick whose commit takes what is done now: in the selvage it is that of the next tick (R9, R314). -/
def State.workTick (s : State) : W32 := if s.tick.selvage then s.now32 + 1 else s.now32

/-- The first of a list for which a function answers. -/
def firstSome {α β : Type} (f : α → Option β) : List α → Option β
  | [] => none
  | a :: t => match f a with
    | some b => some b
    | none => firstSome f t

/-- One more, saturating at the largest value. -/
def satInc {w : Nat} (x : BitVec w) : BitVec w := if x = BitVec.allOnes w then x else x + 1

/-- `n` more, saturating at the largest value. -/
def satAdd {w : Nat} (x : BitVec w) (n : Nat) : BitVec w := BitVec.ofNat w (min (x.toNat + n) (2 ^ w - 1))

/-- Sets bit `i` of an event register. -/
def setBit {w : Nat} (x : BitVec w) (i : Nat) : BitVec w := x ||| BitVec.ofNat w (2 ^ i)

/-- Clears bit `i`. -/
def clrBit {w : Nat} (x : BitVec w) (i : Nat) : BitVec w := x &&& ~~~(BitVec.ofNat w (2 ^ i))

/-- Bits [lo + n - 1 : lo] of a 64-bit word, as a number. -/
def fld (w : W64) (hi lo : Nat) : Nat := w.toNat / 2 ^ lo % 2 ^ (hi + 1 - lo)

/-- Bit [i] of a 64-bit word. -/
def fbit (w : W64) (i : Nat) : Bool := w.getLsbD i

/-- `n` bytes from position `i`, as a number. -/
def leAt (bs : List Byte) (i n : Nat) : Nat := leNat ((bs.drop i).take n)

/-- Pads a list of bytes with zero bytes to `n`, or cuts it. -/
def padTo (n : Nat) (bs : List Byte) : List Byte := (bs ++ List.replicate (n - bs.length) 0).take n

/-- The next free value (R6; log entry 6). -/
def State.free (s : State) : W64 := Config.freeValue s.freeCount

/-- Counts the use of a free value (log entry 6). -/
def State.useFree (s : State) : State := { s with freeCount := s.freeCount + 1 }

/-- Repeats an operation over a list of numbers. -/
def State.forAll {α : Type} (f : State → α → State) (s : State) (l : List α) : State := l.foldl f s

/-! ## What the module sends -/

/-- Sends (log entry 3). -/
def State.emit (s : State) (o : Out) : State := { s with out := s.out ++ [o] }

/-- A record of the AON log (R454): it overwrites the oldest. -/
def State.logAon (s : State) (code unit : Nat) (value : W32) : State :=
  { s with
    aonLog := s.aonLog.set s.aonNext.toNat
      { boot := s.boot, tick := s.tick.n, code := BitVec.ofNat 8 code, unit := BitVec.ofNat 8 unit, value := value }
    aonNext := s.aonNext + 1 }

/-- A report reaches the registry (R33, R34, R36, R518): recorded at once and not rolled back; before cycle 12,032 it
signals abandon, in the selvage it belongs to the next tick (log entry 112). -/
def State.report (s : State) (d : Nat) (unit : Byte) (injected : Bool) : State :=
  let s := s.updDet d (fun x => { x with unit := unit, injected := injected, count := satInc x.count, last := s.now32 })
  let s := { s with dtPend := setBit s.dtPend d }
  let s := s.logAon 0x20 d (BitVec.ofNat 32 (unit.toNat * 2 ^ 24 + (if injected then 1 else 0)))
  let r : Report := { det := BitVec.ofNat 7 d, unit := unit, injected := injected }
  if s.tick.selvage then { s with tick := { s.tick with late := s.tick.late ++ [r] } }
  else { s with tick := { s.tick with reports := s.tick.reports ++ [r], stopped := true } }

/-! ## Snapshot items (R336) -/

/-- Item `k` of a port and of a bridge slot (R336; log entry 91). -/
def portItem (p k : Nat) : Nat := 0x100 + p * 0x20 + k
def bridgeItem (b k : Nat) : Nat := 0x400 + b * 8 + k

/-- Counts an event on the line of a port in the tick, by its port item (R29, R336). -/
def State.countLine (s : State) (p k : Nat) : State :=
  { s with tickCounts := Tab.upd 0 s.tickCounts (portItem p k) (· + 1) }

/-! ## Event sources -/

/-- The code of a source: its space (0 to 63 the slices, 64 shared, 65 + l private to HLl), group and identifier. -/
def srcKey (space group id : Nat) : Nat := space * 131072 + group * 4096 + id
def keySpace (k : Nat) : Nat := k / 131072
def keyGroup (k : Nat) : Nat := k / 4096 % 32
def keyId (k : Nat) : Nat := k % 4096

/-- The space of the shared sources. -/
def sharedSpace : Nat := 64

/-- An occurrence of a message source in the tick (R397); `keep` when an abandon does not drop it (R400). -/
def State.occur (s : State) (key : Nat) (payload : W64) (keep : Bool := false) : State :=
  { s with raised := s.raised ++ [{ src := key, payload := payload, keep := keep }] }

/-- A payload of a code in [63:56] and the rest (R394). -/
def codeWord (code rest : Nat) : W64 := BitVec.ofNat 64 (code * 2 ^ 56 + rest)

/-- An ENUM occurrence of a device on root port `p` for its slice (R393, R394). -/
def State.enumEvent (s : State) (sl p code rest : Nat) : State := s.occur (srcKey sl 2 p) (codeWord code rest)

/-- A POLICY occurrence (R393, R394). -/
def State.policyEvent (s : State) (sl id code handle value : Nat) : State :=
  s.occur (srcKey sl 13 id) (codeWord code (handle * 2 ^ 32 + value % 2 ^ 32))

/-! ## Domains (R455, R456) -/

/-- The number of a switched domain. -/
def domNum : Dom → Nat
  | .pd1 => 1 | .pd2 => 2 | .pd3 => 3 | .pd4 => 4 | .pd5 => 5 | .pd6 => 6
  | .pd7 => 7 | .pd8 => 8 | .pd9 => 9 | .pd10 => 10 | .pd11 => 11 | .pd12 => 12

/-- The domain is ON. -/
def State.domOn (s : State) (d : Nat) : Bool := decide ((s.dom d).st = .on)

/-- The domain is ON or RESTORING (R507). -/
def State.domUp (s : State) (d : Nat) : Bool := s.domOn d || decide ((s.dom d).st = .restoring)

/-- The front-end domain, loom domain and link domain (R456). -/
def frontDom (p : Nat) : Nat := if p < 8 then 5 else 6
def loomDom (p : Nat) : Nat := if p < 8 then 3 else 4
def linkDom (l : Nat) : Nat := if l < 2 then 1 else 2

/-- The domains that a domain requires (R456). -/
def requires : Nat → List Nat
  | 3 => [5, 7, 9]
  | 4 => [6, 7, 9]
  | 7 => [9]
  | 8 => [7, 9]
  | 11 => [9]
  | _ => []

/-- The domains that require a domain (R456). -/
def requiredBy (d : Nat) : List Nat := [3, 4, 7, 8, 11].filter (fun e => (requires e).contains d)

/-- The start of a wake of one domain (R459): its first attempt begins at clock `clk`. -/
def wakeOne (cause : Nat) (other : Bool) (clk : Nat) (d : DomS) : DomS :=
  match d.st with
  | .off | .retention =>
    { d with st := .waking, before := d.st, forOther := other, since := clk, good := false, attempts := 1,
             cause := BitVec.ofNat 3 cause, wakes := satInc d.wakes, idle := 0 }
  | .on => { d with wakeNow := true, idle := 0 }
  | _ => d

/-- Wakes a domain together with every domain it requires (R457, R458), whatever its state; a domain that is
ON, RESTORING, WAKING or QUARANTINED stays. -/
def State.wake (s : State) (d cause clk : Nat) : State :=
  (requires d).foldl (fun t r => t.updDom r (wakeOne 2 true clk)) (s.updDom d (wakeOne cause false clk))

/-- The domains that R449 puts into retention. -/
def gaspDoms : List Nat := [3, 4, 5, 6, 10, 11, 12]

/-- R449 holds the domain in retention. -/
def State.domHeld (s : State) (d : Nat) : Bool := s.supply.hold && gaspDoms.contains d

/-- A hardware wake cause (R458): a domain in RETENTION wakes, but for one that R449 holds; one that is OFF does not; one that
is ON stays on and counts its ticks of AUTO afresh (R463; log entries 33, 34). -/
def State.wakeRet (s : State) (d cause clk : Nat) : State :=
  match (s.dom d).st with
  | .retention => if s.domHeld d then s else s.wake d cause clk
  | .on => s.wake d cause clk
  | _ => s

/-! ## Slices and links -/

/-- The slice that holds window `w` of link `l`, as committed (R362). -/
def State.windowSlice (s : State) (l w : Nat) : Option Nat :=
  (s.slices.map (·.1)).find? (fun k =>
    let x := s.comSlice k
    x.bound && x.link.toNat == l && x.window.toNat == w)

/-- The link a slice is bound to, as committed. -/
def State.boundLink (s : State) (k : Nat) : Option Nat :=
  if (s.comSlice k).bound then some (s.comSlice k).link.toNat else none

/-- The slices bound to a link, as committed. -/
def State.boundTo (s : State) (l : Nat) : List Nat :=
  (s.slices.map (·.1)).filter (fun k => s.boundLink k == some l)

/-- The slice's work is held although it is RUNNING (R515, R555). -/
def State.held (s : State) (k : Nat) : Bool := (s.sliceXAt k).d3 || (s.sliceXAt k).pasidHold

/-- Work of the slice runs (R356, R380, R515, R555). -/
def State.works (s : State) (k : Nat) : Bool := decide ((s.comSlice k).st = .running) && !s.held k

/-- The PASID that a slice's requests carry (R362). -/
def State.pasidOf (s : State) (k : Nat) : Option (BitVec 20) :=
  if (s.link (s.comSlice k).link.toNat).pasidEn then some (s.comSlice k).pasid else none

/-- Requests of the slice reach its host: it is bound, its link is up and in D0, and its domain works. -/
def State.reach (s : State) (k : Nat) : Bool :=
  match s.boundLink k with
  | some l => (s.link l).up && !(s.link l).d3hot && s.domOn (linkDom l)
  | none => false

/-- A write of words for a slice (R13). -/
def State.sendWords (s : State) (k : Nat) (addr : W64) (ws : List W64) : State :=
  s.emit (.words (s.comSlice k).link (s.pasidOf k) addr ws)

/-- A write of bytes for a slice (R13). -/
def State.sendBytes (s : State) (k : Nat) (addr : W64) (bs : List Byte) : State :=
  s.emit (.bytes (s.comSlice k).link (s.pasidOf k) addr bs)

/-- A read request for a slice. -/
def State.sendRead (s : State) (k : Nat) (addr : W64) (n : Nat) : State :=
  s.emit (.read (s.comSlice k).link (s.pasidOf k) addr n)

/-! ## Routes (R109, R164) -/

/-- The hops of a route as a number, HOP1 in the low bits (log entry 73). -/
def hopsNat : List (BitVec 5) → Nat
  | [] => 0
  | h :: t => h.toNat + 32 * hopsNat t

/-- The number of a route prefix: port, depth and hops (log entry 73). -/
def routeKey (p : Nat) (hops : List (BitVec 5)) : Nat := p + 32 * hops.length + 256 * hopsNat hops

/-- The number of a slice's entry of its address plan for a route (R165; log entry 73). -/
def planKey (sl route : Nat) : Nat := sl * 2 ^ 33 + route

/-- The hops in a HOPS field of a given depth (log entry 73). -/
def hopsOf (depth : Nat) (h : Nat) : List (BitVec 5) :=
  match depth with
  | 0 => []
  | k + 1 => BitVec.ofNat 5 h :: hopsOf k (h / 32)

/-- The attach entry of the longest prefix of a route that has one (R164; log entry 73). -/
def State.attachOf (s : State) (p : Nat) (hops : List (BitVec 5)) : Option (Sys2Proof.Slice × Bool) :=
  (List.range (hops.length + 1)).foldl (fun acc n =>
    match s.attachAt (routeKey p (hops.take n)) with
    | some e => some e
    | none => acc) none

/-- The slice that a route belongs to (R164; log entry 43). -/
def State.routeOwner (s : State) (p : Nat) (hops : List (BitVec 5)) : Nat :=
  match s.attachOf p hops with
  | some e => e.1.toNat
  | none => 0

/-- The owner of a root port (R336): the slice of its prefix, else S0. -/
def State.portOwner (s : State) (p : Nat) : Nat := s.routeOwner p []

/-- The attach table as committed, for the targets of sources (R393). -/
def State.comPortOwner (s : State) (p : Nat) : Nat :=
  match s.comAttach (routeKey p []) with
  | some e => e.1.toNat
  | none => 0

/-! ## Pages and resources -/

/-- The page owner table entry of a page (R370); at cold start module pages are MODULE and the others FILL for S0. -/
def pageDefault (pg : Nat) : Page :=
  if 5184 ≤ pg ∧ pg < 6208 then { st := .module, sl := 0 } else { st := .fill, sl := 0 }

/-- The working entry of a page. -/
def State.page (s : State) (pg : Nat) : Page := Tab.cur (pageDefault pg) s.pot pg
/-- The committed entry of a page. -/
def State.comPage (s : State) (pg : Nat) : Page := Tab.comAt (pageDefault pg) s.e s.pot pg
/-- A pending change of a page's entry. -/
def State.updPage (s : State) (pg : Nat) (f : Page → Page) : State :=
  { s with pot := Tab.putBy (pageDefault pg) s.e s.pot pg f }

/-- The slice S1 to S63 whose record holds a resource, else S0 (R357). -/
def State.holder (s : State) (has : SlRec → Bool) : Nat :=
  match (s.slices.map (·.1)).find? (fun k => k != 0 && has (s.slice k).res) with
  | some k => k
  | none => 0

/-- The slice that holds channel `c` (R294, R357). -/
def State.chanOwner (s : State) (c : Nat) : Nat := s.holder (fun r => r.chan.getLsbD c)
/-- The slice that holds identifier block `k`. -/
def State.idBlockOwner (s : State) (k : Nat) : Nat := s.holder (fun r => r.idblk.getLsbD k)
/-- Barn block `b` lies in a range. -/
def inRanges (rs : List (Nat × Nat)) (b : Nat) : Bool := rs.any (fun r => decide (r.1 ≤ b ∧ b < r.1 + r.2))
/-- The slice that holds barn block `b`. -/
def State.barnOwner (s : State) (b : Nat) : Nat := s.holder (fun r => inRanges r.barn b)
/-- The slice that holds the probe right of port `p`. -/
def State.probeOwner (s : State) (p : Nat) : Nat := s.holder (fun r => r.probe.getLsbD p)

/-- The number of a queue of a slice. -/
def qKey (sl q : Nat) : Nat := sl * 4096 + q

/-- The handle of an endpoint of a device (R162). -/
def handleOf (d ep : Nat) : Nat := d * 16 + ep

end Sys2Proof.Machine
end

