-- ==== Sys2Proof/Machine/PortOps.lean ====
section
/-! DEFINITION. Shared operations on root ports: link events, moves between states (R71 to R88), the start of a
reset, and the switching off of a port's gate (R427, R428). -/
namespace Sys2Proof.Machine

open Sys2Proof

/-- The code of a port state (R71). -/
def PState.code : PState → Nat
  | .disabled => 0 | .detached => 1 | .debounce => 2 | .powering => 3 | .powerWait => 4 | .resetting => 5
  | .recovery => 6 | .active => 7 | .suspending => 8 | .suspended => 9 | .resuming => 10 | .invalid => 11
  | .fault => 12 | .contained => 13

/-- SPEED as LINK_STATUS and contexts code it (R103, R162). -/
def Speed.code : Speed → Nat
  | .none => 0 | .field => 1 | .plant => 2 | .cabinet => 3

/-- The speed that a presence decode selects (R76). -/
def Presence.speed : Presence → Speed
  | .field => .field | .plant => .plant | _ => .none

/-- The codes of the causes of R427. -/
def Cause.code : Cause → Nat
  | .none => 0 | .rampFail => 1 | .pgTimeout => 2 | .faultTimer => 3 | .shortTrip => 4 | .overload => 5
  | .thermal => 6 | .offCmd => 7 | .shed => 8 | .mainsShed => 9 | .isolated => 10 | .passFail => 11
  | .disabled => 12 | .domainOff => 13

/-- One of the first six causes of R427. -/
def Cause.isFault (c : Cause) : Bool := decide (1 ≤ c.code ∧ c.code ≤ 6)

/-- Sets bit `i` of LINK_EVENT of port `p` (R103). -/
def State.linkEvent (s : State) (p i : Nat) : State := s.updPort p (fun x => { x with event := setBit x.event i })

/-- Sets bit `i` of PWR_EVENT of port `p` (R439). -/
def State.pwrEvent (s : State) (p i : Nat) : State := s.updFuse p (fun x => { x with event := setBit x.event i })

/-- The port acts in state `st` from now (R72). -/
def State.portTo (s : State) (p : Nat) (st : PState) : State :=
  s.updPort p (fun x => { x with st := st, since := s.tick.n })

/-- The port returns to DETACHED: bias and standby feed restored, no speed (R87). A port whose relay is open
stays in FAULT (R432). A move that an event causes counts at once for what the port does, the checks of bus instructions included, and shows
from the commit (R72; log entry 123). -/
def State.portDetached (s : State) (p : Nat) : State :=
  s.updPort p (fun x => { x with
    st := if s.relay.getLsbD p then .fault else .detached, since := s.tick.n, dbCount := 0, decode := .absent, declared := .absent,
    absent := 0, under := 0, speed := .none, wkp := false, accepted := none, rstDone := false, chirp := .none })

/-- The port is powered: its gate is on. -/
def State.powered (s : State) (p : Nat) : Bool := (s.fuse p).gate

/-- Ticks of RETRY_DELAY × 2^min(k, 3) (R427). -/
def retryTicks (set : PortSet) (k : Nat) : Nat := set.retryDelay * 80 * 2 ^ min k 3

/-- Retries are left after `k` (R418, R427). -/
def retriesLeft (set : PortSet) (k : Nat) : Bool := set.retryMax == 15 || decide (k < set.retryMax)

/-- The event bit of PWR_EVENT that a cause sets (R439). -/
def Cause.bit (c : Cause) : Option Nat :=
  match c with
  | .rampFail | .pgTimeout | .faultTimer | .shortTrip | .overload => some 4
  | .thermal => some 5
  | .shed | .mainsShed => some 8
  | .passFail => some 10
  | .domainOff => some 11
  | _ => Option.none

/-- The port state that a cause leads to (R427). -/
def Cause.port (c : Cause) : PState :=
  match c with
  | .isolated | .disabled => .disabled
  | .domainOff => .contained
  | _ => .fault

/-- What becomes of the fuse at a switch-off with a cause (R427): waiting for a retry, latched, relay open or off. -/
def fuseAfter (set : PortSet) (now : Nat) (clk : Nat) (c : Cause) (f : PortP) : PortP :=
  let f := { f with
    gate := false, limiting := false, pg := false, cause := c, offAt := clk, timer := 0, released := none,
    poweredAt := none, overFor := 0, retryAt := none
    event := match c.bit with
      | some i => setBit f.event i
      | none => f.event
    faults := if c.isFault then satInc f.faults else f.faults }
  if c.isFault then
    if retriesLeft set f.retries then
      { f with st := .wait, retryAt := some (BitVec.ofNat 48 (now + retryTicks set f.retries)) }
    else { f with st := .latched, event := setBit f.event 7 }
  else if c = .passFail then { f with st := .relayOpen }
  else { f with st := .off }

/-- The gate of port `p` switches off with a cause: the fuse acts at once, the port's state and the detach of its
devices are committed under R72 (R427, R428). -/
def State.switchOff (s : State) (p : Nat) (c : Cause) (clk : Nat) : State :=
  let was := s.powered p
  let s := s.updFuse p (fuseAfter (s.comPSet p) s.now clk c)
  let s := s.updPort p (fun x => { x with
    st := c.port, since := s.tick.n, dbCount := 0, speed := .none, wkp := false, accepted := none,
    detachNow := x.detachNow || was })
  if was then s.linkEvent p 1 else s

/-- The reset of a port begins at cycle 0 of the tick (R82): the port drives RST, at the speed its presence
declared until the chirp selects Cabinet. -/
def State.startReset (s : State) (p : Nat) : State :=
  (s.updPort p (fun x => { x with
    st := .resetting, since := s.tick.n, chirp := .none, rstDone := false, afterReset := true,
    speed := x.declared.speed, codeViol := 0, rxRelock := 0, wkp := false })).emit (.line (BitVec.ofNat 4 p) .rst)

/-- The port drives RSM from cycle 0 of the tick (R92). -/
def State.startRsm (s : State) (p : Nat) : State :=
  (s.updPort p (fun x => { x with st := .resuming, since := s.tick.n, afterReset := false, wkp := false })).emit
    (.line (BitVec.ofNat 4 p) .rsm)

/-- The port's front-end domain is ON, so that it can drive its line (R95). -/
def State.frontOn (s : State) (p : Nat) : Bool := s.domOn (frontDom p)

/-- A port is ACTIVE as it acts (R72, R204). -/
def State.portActive (s : State) (p : Nat) : Bool := decide ((s.port p).st = .active)

/-- The receiver is blanked for 2 µs from a surge, in which its lock is lost at Plant and Cabinet speed (R98, R99). -/
def PortL.blank (clk : Nat) (x : PortL) : PortL :=
  { x with blanks := x.blanks ++ [clk], relock := x.relock || decide (x.speed = .plant ∨ x.speed = .cabinet) }

/-- A span of clocks meets 2 µs of blanking (R98). -/
def PortL.blanked (x : PortL) (a b : Nat) : Bool := x.blanks.any (fun t => decide (a < t + 200 ∧ t ≤ b))

/-- The surges of the last 1,024 ticks (R528). -/
def ProbeS.recent (now : Nat) (x : ProbeS) : List (BitVec 48) := x.window.filter (fun t => decide (now < t.toNat + 1024))

/-- A surge at a clock as the line probe counts it (R98, R528): its count, its peak and its tick. -/
def State.surgeSeen (s : State) (p : Nat) (peak : W16) : State :=
  (s.countLine p 7).updProbe p (fun x => { x with
    surges := satInc x.surges, peak := peak, surgeTick := s.now32,
    window := x.recent s.now ++ [s.tick.n] })

/-- The front end of a port has received packets: AFE_STAT shows its amplitude and equaliser setting for the last of them (R529). -/
def State.afeSees (s : State) (p : Nat) (xs : List RxPkt) : State :=
  match xs.getLast? with
  | some x => s.updProbe p (fun y => { y with ampl := x.ampl, eq := x.eq.setWidth 8 })
  | none => s

/-- The port power averaged over the last window in 0.1 W: VOUT in 10 mV units times IOUT in mA (R439). -/
def portPower (f : PortP) : Nat := f.vout.toNat * f.iout.toNat / 10000

/-- Puts a port into the shed order: ascending SHED_PRIO, of equal ones the higher number first. -/
def insertShed (prio : Nat → Nat) (p : Nat) : List Nat → List Nat
  | [] => [p]
  | q :: t => if prio p < prio q ∨ (prio p = prio q ∧ q < p) then p :: q :: t else q :: insertShed prio p t

/-- The shed order of the committed SHED_PRIO values (R341, R433). -/
def State.shedList (s : State) : List Nat :=
  (List.range 16).foldl (fun acc p => insertShed (fun q => (s.comPSet q).shedPrio) p acc) []

/-- The shed order in force: the last that the steward committed; before the first since cold start, that of the committed SHED_PRIO
values (R433). -/
def State.shedForce (s : State) : List Nat :=
  if s.shedOrder.comAt s.e = [] then s.shedList else (s.shedOrder.comAt s.e).map (·.toNat)

end Sys2Proof.Machine
end

