-- ==== Sys2Proof/Machine/SourceOps.lean ====
section
/-! DEFINITION. Event sources, their levels, records and the messages that signal them (12): shared by the commit, the
record writer and the event registers. -/
namespace Sys2Proof.Machine

open Sys2Proof

/-- The states of a domain as PD_STAT codes them (R465). -/
def DomSt.code : DomSt → Nat
  | .off => 0 | .waking => 1 | .restoring => 2 | .on => 3 | .retention => 4 | .quarantined => 5

/-! ## MSI-X (R404) -/

/-- DWORD `k` of the MSI-X table (R404, R509): every vector starts masked, as PCI Express Base 3.x resets it (log entry 9). -/
def LinkS.msixWord (x : LinkS) (k : Nat) : W32 := x.msixTable.get (if k % 4 = 3 then 1 else 0) k

/-- The per-vector mask bit of a vector (log entry 9). -/
def LinkS.vecMasked (x : LinkS) (v : Nat) : Bool := (x.msixWord (4 * v + 3)).getLsbD 0

/-- Signals a vector of a link's function: sent, or pending in the PBA while it is masked or the function in D3hot. -/
def State.signal (s : State) (l v : Nat) : State :=
  let x := s.link l
  if x.msixEnable && !x.msixFnMask && !x.vecMasked v && !x.d3hot then s.emit (.msix (BitVec.ofNat 2 l) v)
  else s.updLink l (fun x => { x with pba := setBit x.pba v })

/-- Sets bits of LINK_ERR and signals vector 65 for a bit that becomes set (R511). -/
def State.linkErr (s : State) (l i : Nat) : State :=
  let gained := !(s.link l).err.getLsbD i
  let s := s.updLink l (fun x => { x with err := setBit x.err i })
  if gained then s.signal l 65 else s

/-! ## Levels (R393, R397) -/

/-- Payload of a status source whose level is held; none when it is not held, or for a message source. -/
def State.statusLevel (s : State) (key : Nat) : Option W64 :=
  let i := keyId key
  let show1 (b : Bool) (v : Nat) : Option W64 := if b then some (BitVec.ofNat 64 v) else none
  if keySpace key = sharedSpace then
    match keyGroup key with
    | 1 => let x := (s.port i).event; show1 (x != 0) x.toNat
    | 3 => let f := s.fuse i; show1 (f.event != 0) (f.event.toNat + f.cause.code * 2 ^ 16)
    | 4 => if i = 0 then
             show1 (s.supply.event != 0)
               (s.supply.event.toNat + s.supply.energy.toNat * 2 ^ 16 + s.supply.bulk.toNat * 2 ^ 32)
           else none
    | 5 => let d := s.dom i
           show1 (d.event != 0)
             (d.event.toNat + d.shown.code * 2 ^ 16 + d.attempts.toNat * 2 ^ 20 + d.refuse.toNat * 2 ^ 24)
    | 6 => let d := s.det i
           show1 (s.dtPend.getLsbD i)
             (d.last.toNat * 2 ^ 32 + d.unit.toNat * 2 ^ 24 + (if d.injected then 2 ^ 16 else 0) + d.count.toNat % 2 ^ 16)
    | 7 => let x := s.probe i; show1 (x.event != 0) (x.event.toNat + x.tdr.toNat * 2 ^ 32)
    | 8 => if i = 0 then show1 (s.met.event != 0) s.met.event.toNat else none
    | 9 => if i = 0 then show1 (s.watch.event != 0) s.watch.event.toNat else none
    | _ => none
  else if keySpace key < 64 then
    match keyGroup key with
    | 11 => let x := (s.chanXAt i).event
            show1 (x != 0 && s.chanOwner i == keySpace key) x.toNat
    | 12 => let x := s.stwEvent.get 0 (keySpace key); show1 (i == 0 && x != 0) x.toNat
    | 16 => let x := (s.sliceXAt (keySpace key)).event; show1 (i == 0 && x != 0) x.toNat
    | _ => none
  else
    let x := s.link (keySpace key - 65)
    if keyGroup key = 18 then
      if i = 0 then show1 (x.err.toNat % 128 != 0) (x.err.toNat % 128)
      else if i = 1 then show1 (x.err.getLsbD 7) 128
      else none
    else none

/-- The level of a source and its payload (R397). -/
def State.level (s : State) (key : Nat) : Option W64 :=
  match s.statusLevel key with
  | some v => some v
  | none => if (s.src key).level then some (s.src key).payload else none

/-- The target of a shared source: the committed route, else the default of R393 (R395). -/
def State.sharedTarget (s : State) (key : Nat) : Nat :=
  match (s.comSrcCfg key).target with
  | some t => t.toNat
  | none =>
    match keyGroup key with
    | 1 | 3 | 7 => s.comPortOwner (keyId key)
    | _ => 0

/-- The slice to which the records of a source go; none for a private source (R395). -/
def State.targetOf (s : State) (key : Nat) : Option Nat :=
  if keySpace key < 64 then some (keySpace key)
  else if keySpace key = sharedSpace then some (s.sharedTarget key)
  else none

/-- The source is enabled (R396, R414). -/
def State.srcEnabled (s : State) (key : Nat) : Bool :=
  if keySpace key ≤ sharedSpace then (s.comSrcCfg key).enabled
  else (s.link (keySpace key - 65)).privEn.getLsbD (keyId key)

/-- The sources that may hold a level now: the status sources of listed units, and the messages held. -/
def State.candidates (s : State) : List Nat :=
  let sh (g : Nat) (ids : List Nat) : List Nat := ids.map (fun i => srcKey sharedSpace g i)
  let all :=
    sh 1 (s.ports.map (·.1)) ++ sh 3 (s.power.map (·.1)) ++ sh 4 [0] ++ sh 5 (s.doms.map (·.1)) ++
    sh 6 (s.dets.map (·.1)) ++ sh 7 (s.probes.map (·.1)) ++ sh 8 [0] ++ sh 9 [0] ++
    (s.chanX.map (fun c => srcKey (s.chanOwner c.1) 11 c.1)) ++
    (s.stwEvent.map (fun k => srcKey k.1 12 0)) ++ (s.sliceX.map (fun k => srcKey k.1 16 0)) ++
    ((s.links.map (fun l => [srcKey (65 + l.1) 18 0, srcKey (65 + l.1) 18 1])).flatten) ++
    ((s.srcs.filter (fun e => e.2.level)).map (·.1))
  all.filter (fun k => (s.level k).isSome)

/-- The order of generation: ascending group, then identifier, then space (R401). -/
def srcRank (k : Nat) : Nat := (k % 131072) * 128 + keySpace k

/-- Puts a number into a list that rises by rank, once. -/
def insertRank (k : Nat) : List Nat → List Nat
  | [] => [k]
  | j :: t => if k = j then j :: t else if srcRank k < srcRank j then k :: j :: t else j :: insertRank k t

/-- The candidates in order of generation, each once. -/
def State.ordered (s : State) : List Nat := s.candidates.foldl (fun acc k => insertRank k acc) []

/-- The slice's event queue takes records at this commit: RUN, bound, not FROZEN before it (R403; the records of the
tick of a freeze are still generated, R380), and its group not masked (R407). -/
def State.eqTakes (s : State) (frz : List Nat) (sl g : Nat) : Bool :=
  (s.eq sl).run && (s.comSlice sl).bound && !frz.contains sl && !(s.eq sl).grpMask.getLsbD g

/-- The slices that are FROZEN, as committed (log entry 23). -/
def State.frozenNow (s : State) : List Nat :=
  (s.slices.map (·.1)).filter (fun k => decide ((s.comSlice k).st = .frozen))

/-- Held records of the slice may be written: its work runs, or the tick after its freeze writes those of the tick
of the freeze (R380; log entry 23). -/
def State.mayWrite (s : State) (k : Nat) : Bool :=
  s.works k || (match (s.sliceXAt k).since with
    | some f => decide (s.now ≤ f.toNat + 1) && !s.held k
    | none => false)

/-- A record for a source, generated in the current tick (R392). -/
def State.recordOf (s : State) (key : Nat) (sl : Nat) (fast spilled : Bool) (pay : W64) : EvRec :=
  { src := key, tick := s.now32, id := BitVec.ofNat 12 (keyId key), group := BitVec.ofNat 5 (keyGroup key),
    fast := fast, spilled := spilled, slice := BitVec.ofNat 6 sl, payload := pay }

/-- The lowest free entry of a link's fast bank (R409). -/
def LinkS.freeEntry (x : LinkS) : Option Nat := (List.range 8).find? (fun e => (x.fbEntry.find e).isNone)

/-- A record generated for a slice wakes PD8 and the domain of its link when they are in retention (R408, R458). -/
def State.wakeFor (s : State) (sl : Nat) : State :=
  let clk := s.now * 12500 + 12033
  let s := s.wakeRet 8 5 clk
  match s.boundLink sl with
  | some l => s.wakeRet (linkDom l) 5 clk
  | none => s

/-- Owes a record to the event queue of a slice. -/
def State.oweRecord (s : State) (sl : Nat) (r : EvRec) : State :=
  let s := { s with due := { s.due with ev := s.due.ev ++ [r] } }
  (s.updSrc r.src (fun x => { x with out := .owed r.slice })).wakeFor sl

/-- A fast record (R409, R410): into the lowest free entry of the bank of link `l`, else spilled to the event
queue of slice `spill`, else dropped with its source outstanding. -/
def State.fastRecord (s : State) (frz : List Nat) (l key sl : Nat) (spill : Option Nat) (pay : W64) : State :=
  match (s.link l).freeEntry with
  | some e =>
    let r := s.recordOf key sl true false pay
    (s.updLink l (fun x => { x with fbEntry := x.fbEntry.set e r })).updSrc key
      (fun x => { x with out := .bank (BitVec.ofNat 2 l) (BitVec.ofNat 3 e) })
  | none =>
    match spill with
    | some t =>
      if s.eqTakes frz t (keyGroup key) then
        (s.updLink l (fun x => { x with fbSpilled := satInc x.fbSpilled })).oweRecord t (s.recordOf key t true true pay)
      else s
    | none =>
      (s.updLink l (fun x => { x with fbSpilled := satInc x.fbSpilled })).updSrc key
        (fun x => { x with out := .bankDropped (BitVec.ofNat 2 l) })

/-- The function in D3hot sends PME once for the first record held for it (R408, R515). -/
def State.pmeFor (s : State) (l : Nat) : State :=
  let x := s.link l
  if x.d3hot && x.pmeEn && !x.pmeSent then
    (s.updLink l (fun x => { x with pmeSent := true })).emit (.pme (BitVec.ofNat 2 l))
  else s

/-- One source at a commit (R397): enabled, level held, nothing outstanding, and its slice taking records: it
generates a record. -/
def State.generate (frz : List Nat) (s : State) (key : Nat) : State :=
  if (s.src key).out = .none && s.srcEnabled key then
    match s.level key with
    | none => s
    | some pay =>
      match s.targetOf key with
      | none =>
        let l := keySpace key - 65
        let w0 := s.windowSlice l 0
        s.fastRecord frz l key (w0.getD 0) w0 pay
      | some t =>
        if s.eqTakes frz t (keyGroup key) then
          let s := match s.boundLink t with
            | some l => s.pmeFor l
            | none => s
          if (s.comSrcCfg key).fast then
            (s.wakeFor t).fastRecord frz (s.comSlice t).link.toNat key t (some t) pay
          else s.oweRecord t (s.recordOf key t false false pay)
        else s
  else s

/-- All sources at a commit, in order (R397, R401). -/
def State.generateAll (s : State) (frz : List Nat) : State := s.forAll (State.generate frz) s.ordered

/-- An occurrence of a message source at its commit (R397, R399): discarded when disabled, lost and counted when a
level is already held, else the level rises. -/
def State.takeOccurrence (s : State) (o : Occ) : State :=
  if !s.srcEnabled o.src then s
  else if (s.src o.src).level then
    match s.targetOf o.src with
    | some t => s.updEq t (fun q => { q with coal := satInc q.coal, coalesced := true })
    | none => s
  else s.updSrc o.src (fun x => { x with level := true, payload := o.payload })

/-- A source acknowledged (R398): no longer outstanding; a message lowers its level. -/
def State.ackSource (s : State) (key : Nat) : State := s.updSrc key (fun x => { x with out := .none, level := false })

/-- A source no longer outstanding, its level kept (R402, R407). -/
def State.unOut (s : State) (key : Nat) : State := s.updSrc key (fun x => { x with out := .none })

/-- Index `i` lies from `a` up to, not including, `b`, modulo `m` (R398). -/
def between (m a b i : Nat) : Bool := decide ((i + m - a) % m < (b + m - a) % m)

/-- The sources whose place satisfies a test. -/
def State.srcsAt (s : State) (f : Where → Bool) : List Nat := (s.srcs.filter (fun e => f e.2.out)).map (·.1)

/-- A committed write of EQ_CONS (R398, R402, R405): acknowledges what it passes, senses dropped sources again and
sets the arm; a queue left not empty sends in the next step 4. -/
def State.applyEqCons (s : State) (sl : Nat) (v : BitVec 17) : State :=
  let q := s.eq sl
  let m := 2 * 2 ^ q.log2.toNat
  let acked := s.srcsAt (fun w => match w with
    | .queue t i => t.toNat == sl && between m q.cons.toNat v.toNat i.toNat
    | _ => false)
  let dropped := s.srcsAt (fun w => match w with
    | .dropped t => t.toNat == sl
    | _ => false)
  let s := (s.forAll State.ackSource acked).forAll State.unOut dropped
  s.updEq sl (fun q => { q with cons := v, armed := true, sendNext := q.sendNext || decide (v ≠ q.prod) })

/-- Levels of sources freed from the fast bank are acknowledged, and those dropped from it sensed again, at the
commit after FB_ACK (R410). -/
def State.applyFbAck (s : State) (l : Nat) : State :=
  let keys := (s.link l).fbAcked
  let dropped := if keys = [] then [] else s.srcsAt (fun w => match w with
    | .bankDropped k => k.toNat == l
    | _ => false)
  let s := (s.forAll State.ackSource keys).forAll State.unOut dropped
  s.updLink l (fun x => { x with fbAcked := [] })

/-- The fast vector at cycle 12,100 (R409): the bank holds a record, its arm is set and it is not masked; it is held while the link is down or
its domain not on (R408). -/
def State.fastVector (s : State) (l : Nat) : State :=
  let x := s.link l
  if x.fbEntry ≠ [] && x.fbArmed && !x.fbMask && x.up && s.domOn (linkDom l) then (s.signal l 64).updLink l (fun x => { x with fbArmed := false })
  else s

/-- Every nonzero hold-off timer decrements (R405). -/
def State.holdoffs (s : State) : State :=
  { s with eqs := s.eqs.mapV (fun q => { q with timer := q.timer.mapV (fun t => if t = 0 then 0 else t - 1) }) }

/-- The groups whose pending bit is set. -/
def EqS.pendGroups (q : EqS) : List Nat := (List.range 32).filter (fun g => q.pend.getLsbD g)

/-- Step 4 of R13 for a slice (R405, R406). -/
def State.sliceInterrupt (s : State) (sl : Nat) : State :=
  let q := s.eq sl
  let due := q.sendNext || (q.pendGroups.any (fun g => q.timer.get 0 g == 0))
  if q.armed && !q.mask && due then
    match s.boundLink sl with
    | some l =>
      (s.signal l sl).updEq sl (fun q => { q with
        armed := false, sendNext := false, pend := 0
        timer := q.pendGroups.foldl (fun t g => t.set g (q.holdoff.get 0 g)) q.timer })
    | none => s
  else s

/-- The first word of an event record (R392). -/
def EvRec.v0 (r : EvRec) (phase : Bool) : W64 :=
  BitVec.ofNat 64 (r.tick.toNat * 2 ^ 32 + r.id.toNat * 2 ^ 20 + r.group.toNat * 2 ^ 15 +
    (if r.fast then 2 ^ 14 else 0) + (if phase then 2 ^ 13 else 0) + (if r.spilled then 2 ^ 12 else 0) +
    r.slice.toNat * 2 ^ 6)

/-- Writes one record to the event queue of its slice (R401, R402, R405): dropped when the queue is full. -/
def State.writeRecord (s : State) (r : EvRec) : State :=
  let sl := r.slice.toNat
  let q := s.eq sl
  let n := 2 ^ q.log2.toNat
  if (q.prod.toNat + 2 * n - q.cons.toNat) % (2 * n) = n then
    (s.updEq sl (fun q => { q with lost := true, evtLost := q.evtLost.upd s.e satInc })).updSrc r.src
      (fun x => { x with out := .dropped r.slice })
  else
    let phase := !q.prod.getLsbD q.log2.toNat
    let s := s.sendWords sl (q.base + BitVec.ofNat 64 (q.prod.toNat % n * 16)) [r.v0 phase, r.payload]
    let s := s.updEq sl (fun q => { q with
      prod := BitVec.ofNat 17 ((q.prod.toNat + 1) % (2 * n)), pend := setBit q.pend r.group.toNat })
    s.updSrc r.src (fun x => { x with out := .queue r.slice q.prod })

/-- The event records that are not written and that a test selects stay, the others go. -/
def State.keepEv (s : State) (f : EvRec → Bool) : State :=
  { s with owedEv := s.owedEv.filter f, due := { s.due with ev := s.due.ev.filter f } }

/-- The sources whose record of a slice stands in a fast bank. -/
def State.banked (s : State) (sl : Nat) : List Nat :=
  (s.links.map (fun l => (l.2.fbEntry.filter (fun e =>
    e.2.slice.toNat == sl && keySpace e.2.src ≤ sharedSpace)).map (·.2.src))).flatten

/-- The records owed to a slice are discarded, and every outstanding mark of the slice clears (R363, R403); a record in a fast bank stays there
until the host frees its entry. -/
def State.discardRecords (s : State) (sl : Nat) : State :=
  let keys := s.srcsAt (fun w => match w with
    | .owed t => t.toNat == sl
    | .queue t _ => t.toNat == sl
    | .dropped t => t.toNat == sl
    | _ => false)
  let s := s.forAll State.unOut (keys ++ s.banked sl)
  s.keepEv (fun r => r.slice.toNat != sl)

end Sys2Proof.Machine
end

