-- ==== Sys2Proof/Machine/Shuffle.lean ====
section
/-! DEFINITION. Reshuffling of samples and bit planes (R302 to R305), shared by the channels' descriptors and the payload of
work queues. -/
namespace Sys2Proof.Machine

open Sys2Proof

/-- MODE, NCH and S of a SHUF byte (R302). -/
def shufMode (b : Byte) : Nat := b.toNat / 64
def shufNch (b : Byte) : Nat := b.toNat / 4 % 16 + 1
def shufS (b : Byte) : Nat := b.toNat % 4 + 1

/-- SHUF is valid: NCH and SSIZE are 0 when MODE is 00 (R302). MODE 10 is reserved in QUEUE role. -/
def shufValid (queue : Bool) (b : Byte) : Bool :=
  match shufMode b with
  | 0 => b == 0
  | 2 => !queue
  | _ => true

/-- LENGTH suits SHUF (R303, R304). -/
def shufSuits (b : Byte) (len : Nat) : Bool :=
  match shufMode b with
  | 0 => true
  | 3 => len % 128 == 0
  | _ => len % (shufNch b * shufS b) == 0

/-- The plane offset of interleaved offset `i` (R303). -/
def planeOf (nch sz len i : Nat) : Nat :=
  let f := i / (nch * sz)
  let c := i % (nch * sz) / sz
  c * (len / nch) + f * sz + i % sz

/-- The interleaved offset of plane offset `p` (R303). -/
def interleavedOf (nch sz len p : Nat) : Nat :=
  let pl := len / nch
  p % pl / sz * (nch * sz) + p / pl * sz + p % sz

/-- Byte `k` of the bit-plane transpose of a block list (R304): bit i of output word j is bit j of input word i. -/
def transposeByte (bs : List Byte) (k : Nat) : Byte :=
  let base := k / 128 * 128
  let j := k % 128 / 4
  let lo := k % 4 * 8
  BitVec.ofNat 8 ((List.range 8).foldl (fun acc t =>
    let i := lo + t
    let src := bs.getD (base + 4 * i + j / 8) 0
    acc + (if src.getLsbD (j % 8) then 2 ^ t else 0)) 0)

/-- Byte `k` of the output of a reshuffle of `len` bytes, from the input read so far; none while an input byte that it
needs has not been read. -/
def shufByte (b : Byte) (len : Nat) (bs : List Byte) (k : Nat) : Option Byte :=
  match shufMode b with
  | 0 => bs[k]?
  | 1 => bs[interleavedOf (shufNch b) (shufS b) len k]?
  | 2 => bs[planeOf (shufNch b) (shufS b) len k]?
  | _ => if k / 128 * 128 + 128 ≤ bs.length then some (transposeByte bs k) else none

/-- The whole output of a reshuffle (R303, R304), for input padded to `len`. -/
def reshuffle (b : Byte) (len : Nat) (bs : List Byte) : List Byte :=
  (List.range bs.length).map (fun k => (shufByte b len bs k).getD 0)

end Sys2Proof.Machine
end

