-- ==== Sys2Proof/Machine/QueueOps.lean ====
section
/-! DEFINITION. Shared operations on work queues (08): ring arithmetic, entries, completions in place, and the frame
of an admin command. -/
namespace Sys2Proof.Machine

open Sys2Proof

/-- The tick's work goes on: no abandon has been signalled (R36) and the selvage has not been decided (R9). -/
def State.working (s : State) : Bool := !s.tick.stopped && !s.tick.selvage

/-- The completion statuses of R283. -/
def stSuccess : Nat := 0x00
def stStall : Nat := 0x01
def stXferError : Nat := 0x02
def stNakLimit : Nat := 0x03
def stRouteErr : Nat := 0x04
def stOverrun : Nat := 0x05
def stResetAborted : Nat := 0x06
def stDetached : Nat := 0x07
def stNoDevice : Nat := 0x08
def stContextLost : Nat := 0x09
def stWithdrawn : Nat := 0x0A
def stMismatch : Nat := 0x0B
def stDeferTimeout : Nat := 0x0C
def stNoReply : Nat := 0x0D
def stMalformed : Nat := 0x10
def stNotPermitted : Nat := 0x11
def stNoResource : Nat := 0x12
def stRejected : Nat := 0x13
def stPinFull : Nat := 0x14

/-- SIZE of a ring (R263). -/
def QueueS.size (q : QueueS) : Nat := 2 ^ q.log2.toNat

/-- A ring index `n` units on, modulo twice the size (R263). -/
def QueueS.on (q : QueueS) (i : BitVec 17) (n : Nat) : BitVec 17 := BitVec.ofNat 17 ((i.toNat + n) % (2 * q.size))

/-- The slot of a ring index (R263). -/
def QueueS.slot (q : QueueS) (i : BitVec 17) : Nat := i.toNat % q.size

/-- Units from index `a` to index `b`. -/
def QueueS.dist (q : QueueS) (a b : BitVec 17) : Nat := (b.toNat + 2 * q.size - a.toNat) % (2 * q.size)

/-- The units by which the ring advances past an entry: its units in index mode, a slot in ownership-bit mode. -/
def QueueS.stride (q : QueueS) (units : Nat) : Nat := if q.own then q.entryMax else units

/-- Fetched entries of a queue that are not complete: one that completes in this tick is complete with its commit (R271). -/
def State.fetchedIn (s : State) (k : Nat) : Nat :=
  (s.queue k).entries.length + (s.cplPend.filter (fun r => r.slice.toNat == k / 4096 && r.queue.toNat == k % 4096)).length

/-- The fetched entry at a ring index. -/
def QueueS.entryAt (q : QueueS) (pos : BitVec 17) : Option Entry := q.entries.find? (fun e => e.pos == pos)

/-- Raises the consumer index past complete entries in ring order (R275, R278). -/
def QueueS.advance : Nat → QueueS → QueueS
  | 0, q => q
  | n + 1, q =>
    match q.doneAt.find? (fun d => d.1 == q.cons) with
    | some d => QueueS.advance n { q with cons := q.on q.cons d.2, doneAt := q.doneAt.filter (fun x => x.1 != d.1) }
    | none => q

/-- Entry fields (R265). -/
def Entry.op (e : Entry) : Nat := fld e.q0 55 48
def Entry.tag (e : Entry) : Nat := fld e.q0 47 32
def Entry.handle (e : Entry) : Nat := fld e.q0 22 0
def Entry.length (e : Entry) : Nat := fld e.q1 63 32

/-- The first word of a completion: LEN, OP, TAG and HANDLE as the entry, OWN 0, and STATUS (R281). -/
def cplC0 (e : Entry) (status : Nat) : W64 :=
  BitVec.ofNat 64 (fld e.q0 62 59 * 2 ^ 59 + e.op * 2 ^ 48 + e.tag * 2 ^ 32 + status * 2 ^ 24 + e.handle)

/-- CEV selects the completion (R264, R282). -/
def cevOf (q : QueueS) (e : Entry) (status : Nat) : Bool :=
  match q.cev.toNat with
  | 0 => false
  | 1 => status != 0
  | 2 => true
  | _ => fbit e.q1 23

/-- The same fetched entry: at the same place, fetched in the same tick. -/
def Entry.same (x e : Entry) : Bool := x.pos == e.pos && x.tick == e.tick

/-- The entry is a command of before the admin queue was started anew (R292). -/
def QueueS.isOld (q : QueueS) (e : Entry) : Bool := q.old.any (fun y => y.same e)

/-- Completes a fetched entry of queue `q` of slice `sl` (R281, R282): the record is pending until the commit, the
entry leaves the queue, and the consumer index passes it in ring order. -/
def State.complete (s : State) (sl q : Nat) (e : Entry) (status moved : Nat) (c2 c3 : W64) : State :=
  let qs := s.queue (qKey sl q)
  let rec1 : Cpl :=
    { slice := BitVec.ofNat 6 sl, queue := BitVec.ofNat 12 q, pos := e.pos, units := e.units
      addr := if qs.isOld e then e.place else qs.base + BitVec.ofNat 64 (qs.slot e.pos * 32)
      c0 := cplC0 e status, c1 := BitVec.ofNat 64 (moved * 2 ^ 32) + s.workTick.setWidth 64, c2 := c2, c3 := c3
      evt := q == 0 || cevOf qs e status }
  let s := s.updQueue (qKey sl q) (fun x =>
    if x.isOld e then { x with old := x.old.filter (fun y => !y.same e) }
    else
      let x := { x with entries := x.entries.filter (fun y => y.pos != e.pos),
                        doneAt := x.doneAt ++ [(e.pos, x.stride e.units)] }
      QueueS.advance (x.doneAt.length) x)
  let s := { s with cplPend := s.cplPend ++ [rec1] }
  let pay := BitVec.ofNat 64 (e.tag * 2 ^ 48 + status * 2 ^ 40 + e.pos.toNat)
  if q = 0 then s.occur (srcKey sl 17 0) pay
  else if cevOf qs e status then s.occur (srcKey sl 10 q) pay
  else s

/-- C2 of a transfer's completion (R281). -/
def transferC2 (e : Entry) (nakRun errRun reason : Nat) : W64 :=
  BitVec.ofNat 64 (e.outcome.toNat * 2 ^ 60 + e.attempts.toNat * 2 ^ 57 + nakRun * 2 ^ 40 + errRun * 2 ^ 32 +
    e.lastTicket.toNat * 2 ^ 16 + reason)

/-- The context of a handle: its device's base and endpoint, when the device is held and has the endpoint (R162). -/
def State.ctxOfHandle (s : State) (h : Nat) : Option Nat :=
  let d := s.dev (h / 16)
  match d.st with
  | .free | .quarantine => none
  | _ => if h % 16 ≤ d.nep.toNat then some (d.base.toNat + h % 16) else none

/-- Byte `i` of a control request in Q3 (R265, R131). -/
def setupByte (q3 : W64) (i : Nat) : Nat := fld q3 (8 * i + 7) (8 * i)
/-- LENGTH of a control request, most significant byte first (R131). -/
def setupLength (q3 : W64) : Nat := setupByte q3 6 * 256 + setupByte q3 7
/-- FLAGS [7] of a control request: the data stage runs from device to port. -/
def setupIn (q3 : W64) : Bool := fbit q3 23

/-- The direction of a transfer is IN: FLAGS [7] of SETUP on EP0, else the endpoint's DIR (R267). -/
def State.entryIn (s : State) (h : Nat) (q3 : W64) : Bool :=
  if h % 16 = 0 then setupIn q3
  else match s.ctxOfHandle h with
    | some i => (s.ctx i).dirIn
    | none => false

/-- A fetched entry completes MALFORMED with a reason (R270, R281): the runs of its endpoint's context, where it has one. -/
def State.malformed (s : State) (sl q : Nat) (e : Entry) (reason : Nat) : State :=
  let c := match s.ctxOfHandle e.handle with
    | some i => s.ctx i
    | none => {}
  s.complete sl q e stMalformed 0 (transferC2 e c.nakRun.toNat c.errRun.toNat reason) 0

/-- The transfer in progress on a context is that of the entry at `pos` of queue `q` (R162 W4). -/
def State.inProgress (s : State) (i : Nat) (sl q : Nat) (pos : BitVec 17) : Bool :=
  let c := s.ctx i
  c.queue.toNat == q && q != 0 && c.slice.toNat == sl && c.entry.toNat == (s.queue (qKey sl q)).slot pos

/-- W4 and W5 cleared: no transfer in progress. -/
def Ctx.idle (c : Ctx) : Ctx := { c with queue := 0, entry := 0, remain := 0, moved := 0, sbOff := 0 }

/-- A change of a fetched entry, pending (R290). -/
def State.updEntry (s : State) (sl q : Nat) (pos : BitVec 17) (f : Entry → Entry) : State :=
  s.updQueue (qKey sl q) (fun x => { x with entries := x.entries.map (fun e => if e.pos = pos then f e else e) })

/-- A change of a fetched entry that holds whatever becomes of the tick: the OUT halves keep their contents (R11). -/
def State.bothEntry (s : State) (sl q : Nat) (pos : BitVec 17) (f : Entry → Entry) : State :=
  { s with queues := s.queues.set (qKey sl q) ((s.queues.get (.of {}) (qKey sl q)).both (fun x => { x with
      entries := x.entries.map (fun e => if e.pos = pos then f e else e) })) }

/-- The fragments of a run of bytes: where bytes from offset `off` of a transfer lie in its buffers (R266). -/
def fragRuns : List (W64 × Nat) → Nat → List Byte → List (W64 × List Byte)
  | [], _, _ => []
  | (a, n) :: t, off, bs =>
    if bs = [] then []
    else if off < n then
      let k := min (n - off) bs.length
      (a + BitVec.ofNat 64 off, bs.take k) :: fragRuns t 0 (bs.drop k)
    else fragRuns t (off - n) bs

/-! ## IN payload (R13, R299, R305) -/

/-- Where bytes from offset `off` of a transfer of `len` bytes lie in its buffers under QSHUF PLANES: plane by plane, since the bytes of
one plane lie together (R303). -/
def planeRuns (b : Byte) (len : Nat) (frags : List (W64 × Nat)) (off : Nat) (bs : List Byte) : List (W64 × List Byte) :=
  (List.range (shufNch b)).flatMap (fun c =>
    let mine := (List.range bs.length).filter (fun i => (off + i) / shufS b % shufNch b == c)
    match mine with
    | [] => []
    | i :: _ => fragRuns frags (planeOf (shufNch b) (shufS b) len (off + i)) (mine.map (fun j => bs.getD j 0)))

/-- IN payload of a transfer from offset `off`, pending until the commit (R13); in transpose mode (R304) blocks of 128 bytes go
out when whole, and the rest waits in the entry. -/
def State.inData (s : State) (sl q : Nat) (e : Entry) (off port : Nat) (bs : List Byte) : State :=
  let qs := s.queue (qKey sl q)
  let shuf := if e.handle % 16 = 0 then 0 else e.qshuf
  let pay (runs : List (W64 × List Byte)) : Pay :=
    { slice := BitVec.ofNat 6 sl, queue := BitVec.ofNat 12 q, pos := e.pos, chan := qs.chan, port := BitVec.ofNat 5 port, runs := runs }
  if bs = [] then s
  else
    let s := if port < 16 then s.updHalf port (fun h => { h with inCur := h.inCur + bs.length }) else s
    match shufMode shuf with
    | 0 => { s with payPend := s.payPend ++ [pay (fragRuns e.frags off bs)] }
    | 1 => { s with payPend := s.payPend ++ [pay (planeRuns shuf e.length e.frags off bs)] }
    | _ =>
      let have' := e.data ++ bs
      let whole := have'.length / 128 * 128
      let out := (List.range whole).map (transposeByte have')
      let s := if whole = 0 then s
        else { s with payPend := s.payPend ++ [pay (fragRuns e.frags ((off + bs.length - have'.length)) out)] }
      s.updEntry sl q e.pos (fun x => { x with data := have'.drop whole })

/-- The trailing incomplete block of an IN transfer in transpose mode, padded with zero bytes to 128 (R305). -/
def State.flushBlock (s : State) (sl q : Nat) (pos : BitVec 17) (moved port : Nat) : State :=
  match (s.queue (qKey sl q)).entryAt pos with
  | some e =>
    let qs := s.queue (qKey sl q)
    if e.data ≠ [] ∧ e.handle % 16 ≠ 0 ∧ shufMode e.qshuf = 3 then
      { s with payPend := s.payPend ++ [
        { slice := BitVec.ofNat 6 sl, queue := BitVec.ofNat 12 q, pos := pos, chan := qs.chan, port := BitVec.ofNat 5 port
          runs := fragRuns e.frags (moved - e.data.length) ((List.range 128).map (transposeByte (padTo 128 e.data))) }] }
    else s
  | none => s

/-- The context of a transfer that ended (R134, R162): no transfer in progress, and on EP0 the next setup tag. -/
def Ctx.ended (c : Ctx) : Ctx := if c.handle.toNat % 16 = 0 then { c.idle with tag := c.tag + 1 } else c.idle

/-- Ends the transfer of an entry with a status (R283): MOVED, NAK_RUN and ERR_RUN as its context stands, whose W4 and
W5 clear when it was in progress. -/
def State.endTransfer (s : State) (sl q : Nat) (e : Entry) (status : Nat) (reason : Nat := 0) : State :=
  match s.ctxOfHandle e.handle with
  | some i =>
    let c := s.ctx i
    let on := s.inProgress i sl q e.pos
    let s := if on && c.dirIn then s.flushBlock sl q e.pos c.moved.toNat c.port.toNat else s
    let s := s.complete sl q e status (if on then c.moved.toNat else 0)
      (transferC2 e c.nakRun.toNat c.errRun.toNat reason) 0
    if on then s.updCtx i Ctx.ended else s
  | none => s.complete sl q e status 0 (transferC2 e 0 0 reason) 0

/-- Ends every fetched entry of a queue that a test selects, with a status. -/
def State.endAll (s : State) (sl q : Nat) (f : Entry → Option Nat) : State :=
  s.forAll (fun t e => match f e with
    | some st => t.endTransfer sl q e st
    | none => t) (s.queue (qKey sl q)).entries

/-- The queues of a slice that exist, other than its admin queue. -/
def State.queuesOf (s : State) (sl : Nat) : List Nat :=
  (s.queues.map (·.1)).filterMap (fun k => if k / 4096 = sl ∧ k % 4096 ≠ 0 ∧ (s.queue k).live then some (k % 4096) else none)

/-! ## Admin commands (R286, R289) -/

/-- A QUEUE_MODE that has stopped its queue and waits for the queue's fetched entries does not hold the admin queue (R279, R286). -/
def State.modeWaits (s : State) (sl : Nat) (e : Entry) : Bool :=
  (s.queues.map (·.1)).any (fun k => k / 4096 == sl && (match (s.comQueue k).wait with
    | some w => w.entry.same e
    | none => false))

/-- The first command of an admin queue that is not complete, but for a QUEUE_MODE that waits (R286). -/
def State.adminHead (s : State) (sl : Nat) : Option Entry :=
  let q := s.queue (qKey sl 0)
  (q.old ++ q.entries).find? (fun e => !s.modeWaits sl e)

/-- The command that the admin queue of a slice executes: its first entry in ring order, once fetched and not begun, when no
command of the queue completes in this tick: a command begins only when the one before it has completed (log entry 82). -/
def State.adminEntry (s : State) (sl op : Nat) : Option Entry :=
  match s.adminHead sl with
  | some e =>
    if e.op = op && !e.begun && s.cplPend.all (fun r => !(r.slice.toNat == sl && r.queue == 0)) then some e else none
  | none => none

/-- The command is fetched and not complete. -/
def State.adminHolds (s : State) (sl : Nat) (e : Entry) : Bool :=
  let q := s.queue (qKey sl 0)
  (q.old ++ q.entries).any (fun x => x.same e)

/-- Completes an admin command with its result (R281; log entry 21); one that a new binding or a release has discarded ends without a
record (R363). -/
def State.adminDone (s : State) (sl : Nat) (e : Entry) (status : Nat) (c2 c3 : W64 := 0) : State :=
  if s.adminHolds sl e then s.complete sl 0 e status 0 (if status = stMalformed then 2 else c2) c3 else s

/-- Carries out the command of operation `op` at the head of a slice's admin queue: only while the slice's work runs
(R380) and the tick's work goes on. Commands of 0x80 to 0x9F and SET_PORT_SCHED are S0's only (R289, R357; log entry 82). -/
def State.admin (s : State) (sl op : Nat) (s0only : Bool) (f : Entry → State → State) : State :=
  match s.adminEntry sl op with
  | some e =>
    if s.works sl && s.working then
      if s0only && sl != 0 then s.adminDone sl e stNotPermitted else f e s
    else s
  | none => s

/-- Marks the command at the head as begun: it completes later. -/
def State.adminBegin (s : State) (sl : Nat) (e : Entry) : State :=
  s.updEntry sl 0 e.pos (fun x => { x with begun := true })

/-- The command that has begun and waits at the head of a slice's admin queue. -/
def State.adminBegun (s : State) (sl op : Nat) : Option Entry :=
  match s.adminHead sl with
  | some e => if e.op = op && e.begun then some e else none
  | none => none

/-- What a command writes to a buffer of its slice, issued before its completion record (R289, R352, R388). -/
def State.adminBytes (s : State) (sl : Nat) (addr : W64) (bs : List Byte) : State :=
  { s with wordsPend := s.wordsPend ++ [(BitVec.ofNat 6 sl, addr, bs)] }

/-- The bytes of 64-bit words, each little-endian. -/
def wordBytes (ws : List W64) : List Byte := ws.flatMap (fun w => leBytes 8 w.toNat)

/-- Words that a command writes to a buffer of its slice. -/
def State.adminWords (s : State) (sl : Nat) (addr : W64) (ws : List W64) : State := s.adminBytes sl addr (wordBytes ws)

/-- The admission report of R245 as C2 and C3: RESULT, PHASE, ADDR, REQUIRED and AVAILABLE. -/
def reportC2 (result phase addr : Nat) : W64 := BitVec.ofNat 64 (result * 2 ^ 56 + phase * 2 ^ 48 + addr * 2 ^ 32)

end Sys2Proof.Machine
end

