-- ==== Sys2Proof/Machine/CtxOps.lean ====
section
/-! DEFINITION. Shared operations on devices and contexts (05): the endpoints of a device, and what becomes of contexts
and queued work at a reset, a detach, a loss and a release (R184 to R187). -/
namespace Sys2Proof.Machine

open Sys2Proof

/-- The context indices of a device, EP0 first (R160). -/
def State.ctxsOf (s : State) (d : Nat) : List Nat :=
  (List.range ((s.dev d).nep.toNat + 1)).map (fun e => (s.dev d).base.toNat + e)

/-- The device of a context. -/
def Ctx.device (c : Ctx) : Nat := c.handle.toNat / 16
/-- The endpoint of a context. -/
def Ctx.ep (c : Ctx) : Nat := c.handle.toNat % 16

/-- The devices that the device table lists as held. -/
def State.devices (s : State) : List Nat :=
  (s.devs.map (·.1)).filter (fun d => match (s.dev d).st with
    | .free | .quarantine => false
    | _ => true)

/-- EP0's context of a device. -/
def State.ep0 (s : State) (d : Nat) : Ctx := s.ctx (s.dev d).base.toNat

/-- The hops of a device's route. -/
def State.hopsOfDev (s : State) (d : Nat) : List (BitVec 5) := hopsOf (s.ep0 d).depth.toNat (s.ep0 d).hops.toNat

/-- A list begins with another. -/
def startsWith (pfx l : List (BitVec 5)) : Bool := l.take pfx.length == pfx

/-- The devices at or below a route (R164, R185). -/
def State.devsUnder (s : State) (p : Nat) (hops : List (BitVec 5)) : List Nat :=
  s.devices.filter (fun d => (s.ep0 d).port.toNat == p && startsWith hops (s.hopsOfDev d))

/-- The device at exactly a route, unless it is leaving. -/
def State.devAt (s : State) (p : Nat) (hops : List (BitVec 5)) : Option Nat :=
  s.devices.find? (fun d => (s.ep0 d).port.toNat == p && s.hopsOfDev d == hops && !(s.devXAt d).leaving)

/-- A transfer is drawn: bound, drawn by WEAVE, or in progress on its context (R184, R238, R241). -/
def State.isDrawn (s : State) (sl q : Nat) (e : Entry) : Bool :=
  decide (e.st = .bound ∨ e.st = .drawn) ||
  (match s.ctxOfHandle e.handle with
   | some i => s.inProgress i sl q e.pos
   | none => false)

/-- Ends the work of a device's slice on the device: its drawn transfers with one status, the entries not drawn with
another, or left queued (R184). -/
def State.endWork (s : State) (d : Nat) (drawn : Nat) (queued : Option Nat) : State :=
  let sl := (s.dev d).slice.toNat
  s.forAll (fun t q =>
    t.forAll (fun u e =>
      if e.handle / 16 = d then
        if u.isDrawn sl q e then u.endTransfer sl q e drawn
        else match queued with
          | some st => u.endTransfer sl q e st
          | none => u
      else u) (t.queue (qKey sl q)).entries) (s.queuesOf sl)

/-- The tickets of a device leave their delay
lists (R185). -/
def Ctx.noTicket (c : Ctx) : Ctx := { c with tktValid := false, tktDeadline := 0 }

/-- Polls, hub-port service and requests of a hub end (R184, R237). -/
def State.dropHub (s : State) (d : Nat) : State :=
  s.updTree (s.ep0 d).port.toNat (fun t => { t with
    polls := t.polls.filter (fun p => p.dev.toNat != d), service := t.service.filter (fun v => v.hub.toNat != d),
    reqs := t.reqs.filter (fun v => v.hub.toNat != d), resets := t.resets.filter (fun v => v.hub.toNat != d),
    words := t.words.filter (fun w => w.1 / 32 != d), mismatch := t.mismatch.filter (fun k => k / 32 != d) })

/-- A control transfer of the module's own is in progress on an EP0 (R237, R234 item 3). -/
def State.ownBusy (s : State) (p i : Nat) : Bool :=
  (s.tree p).service.any (fun v => v.x.isSome && (s.dev v.hub.toNat).base.toNat == i) ||
  (s.tree p).reqs.any (fun r => r.x.isSome && (s.dev r.hub.toNat).base.toNat == i)

/-- A reset of a device's segment, at its commit (R137, R173, R184): contexts CONFIGURING with sequence numbers and tag 0,
halts and tickets cleared; drawn transfers end RESET_ABORTED; queued entries remain. After a reset of one device of a lost line the
identifiers of the line are kept (R186). -/
def State.resetDevice (s : State) (d : Nat) : State :=
  let cs := s.ctxsOf d
  let s := (s.endWork d stResetAborted none).dropHub d
  let s := s.forAll (fun t i => t.updCtx i (fun c =>
    { c.noTicket with st := .configuring, seq := 0, tag := 0, rwake := false })) cs
  let s := (s.updDev d (fun x => { x with st := .configuring })).updDevX d (fun x => { x with configured := false })
  if (s.devXAt d).lostAt.isSome then
    s.forAll (fun t j => t.updDevX (d / 8 * 8 + j) (fun x => { x with lostAt := none })) (List.range 8)
  else s

/-- A detach of a device, at its commit (R184, R185): contexts DETACHED, tickets removed, drawn transfers end DETACHED;
the entries not drawn follow in the ticks after, and the device awaits release. DETACHED goes to its owner. -/
def State.detachDevice (s : State) (d : Nat) : State :=
  if (s.devXAt d).leaving then s else
  let cs := s.ctxsOf d
  let c := s.ep0 d
  let s := s.endWork d stDetached none
  let s := s.forAll (fun t i => t.updCtx i (fun c => { c.noTicket with st := .detached })) cs
  let s := s.updDevX d (fun x => { x with leaving := true })
  let s := s.dropHub d
  s.enumEvent (s.dev d).slice.toNat c.port.toNat 2 (handleOf d 0)

/-- Drops the enumeration in progress of a route and of the routes below it (R173). -/
def State.dropEnum (s : State) (p : Nat) (hops : List (BitVec 5)) : State :=
  s.updEnum p (fun x =>
    let w := x.waiting.filter (fun r => !(startsWith hops r.hops))
    if x.step ≠ .idle && startsWith hops x.route.hops then
      { x with step := .idle, attempts := 0, tag := 0, dev := none, ident := [], table := [], waiting := w, x := none }
    else { x with waiting := w })

/-- A detach of everything at or below a route (R87, R185). -/
def State.detachTree (s : State) (p : Nat) (hops : List (BitVec 5)) : State :=
  (s.forAll State.detachDevice (s.devsUnder p hops)).dropEnum p hops

/-- A reset of everything at or below a route, at its commit (R173, R184). -/
def State.resetTree (s : State) (p : Nat) (hops : List (BitVec 5)) : State :=
  (s.forAll State.resetDevice ((s.devsUnder p hops).filter (fun d => !(s.devXAt d).leaving))).dropEnum p hops

/-- A reset of the segment at a route is committed in this selvage; detaches of the same commit decide before it (R187). -/
def State.markReset (s : State) (p : Nat) (hops : List (BitVec 5)) : State :=
  s.updTree p (fun t => { t with resetNow := t.resetNow ++ [hops] })

/-- The resets of this commit on a port (R173, R184, R187). -/
def State.commitResets (s : State) (p : Nat) : State :=
  match (s.tree p).resetNow with
  | [] => s
  | l => (s.forAll (fun t h => t.resetTree p h) l).updTree p (fun t => { t with resetNow := [] })

/-- A device withdrawn by a resize or by a change of its attach entry (R367): drawn transfers and queued entries end
WITHDRAWN, tickets removed, the device released. -/
def State.withdrawDevice (s : State) (d : Nat) : State :=
  let cs := s.ctxsOf d
  let s := s.endWork d stWithdrawn (some stWithdrawn)
  let s := s.forAll (fun t i => t.updCtx i (fun c => { c.noTicket with st := .detached })) cs
  (s.dropHub d).updDevX d (fun x => { x with leaving := true, withdrawn := true })

/-- Releases a device's identifier and contexts (R167, R185): the identifier enters QUARANTINE with the tick, and what tree service does for
a hub ends. -/
def State.releaseDevice (s : State) (d : Nat) : State :=
  let s := s.dropHub d
  let cs := s.ctxsOf d
  let s := s.forAll (fun t i => t.updCtx i (fun _ => {})) cs
  let s := s.updDev d (fun _ => { st := .quarantine, base := s.tick.n.setWidth 23 })
  let s := s.updDevX d (fun _ => {})
  let bs := (s.bridges.map (·.1)).filter (fun b => (s.bridge b).dev == some (BitVec.ofNat 19 d))
  s.forAll (fun t b => t.updBridge b (fun _ => {})) bs

/-- No entry of any queue of the device's slice names the device. -/
def State.noWork (s : State) (d : Nat) : Bool :=
  let sl := (s.dev d).slice.toNat
  (s.queuesOf sl).all (fun q => ((s.queue (qKey sl q)).entries).all (fun e => e.handle / 16 != d))

/-- A context lost to an uncorrectable error (R48, R184): its endpoint is LOST and its work ends CONTEXT_LOST (log entry 40). -/
def State.loseCtx (s : State) (i : Nat) : State :=
  let c := s.ctx i
  let sl := c.slice.toNat
  let s := s.forAll (fun t q => t.endAll sl q (fun e => if e.handle = c.handle.toNat then some stContextLost else none))
    (s.queuesOf sl)
  let s := s.updCtx i (fun c => { c.noTicket.idle with st := .lost, seq := 0, tag := 0, tktTimeout := 0, scratch := 0 })
  s.enumEvent sl c.port.toNat 6 c.handle.toNat

/-- Ends, in the ticks after a device left, the entries not drawn that name it: DETACHED, or WITHDRAWN where it was withdrawn (R184,
R367). -/
def State.sweepLeaving (s : State) : State :=
  s.forAll (fun t d =>
    let x := t.comDevX d
    let st := if x.withdrawn then stWithdrawn else stDetached
    if x.leaving then t.endWork d st (some st) else t)
    (s.devX.map (·.1))

/-- The root port of a device has the device's segment: the route at which a reset of the device acts. -/
def State.routeOfDev (s : State) (d : Nat) : Route := { port := (s.ep0 d).port, hops := s.hopsOfDev d }

end Sys2Proof.Machine
end

