-- ==== Sys2Proof/Machine/Words.lean ====
section
/-! DEFINITION. The 64-bit words of contexts and device-table entries (R161, R162). -/
namespace Sys2Proof.Machine

open Sys2Proof

/-- The code of a context's STATE (R162). -/
def CtxSt.code : CtxSt → Nat
  | .free => 0 | .configuring => 1 | .active => 2 | .halted => 3 | .detached => 4 | .lost => 5

/-- The STATE of a code. -/
def ctxStOf (n : Nat) : CtxSt :=
  match n with
  | 1 => .configuring
  | 2 => .active
  | 3 => .halted
  | 4 => .detached
  | 5 => .lost
  | _ => .free

/-- The code of a device-table entry's STATE (R161). -/
def DevSt.code : DevSt → Nat
  | .free => 0 | .configuring => 1 | .assigned => 2 | .quarantine => 3 | .lost => 4

/-- The STATE of a code. -/
def devStOf (n : Nat) : DevSt :=
  match n with
  | 1 => .configuring
  | 2 => .assigned
  | 3 => .quarantine
  | 4 => .lost
  | _ => .free

/-- A bit as a number. -/
def bnat (b : Bool) : Nat := if b then 1 else 0

/-- W0 of a context (R162); its bits [63:12] are those of a token body (R109). -/
def Ctx.w0 (c : Ctx) : Nat :=
  c.handle.toNat * 2 ^ 41 + bnat c.defTok * 2 ^ 40 + c.depth.toNat * 2 ^ 37 + c.hops.toNat * 2 ^ 12 + c.port.toNat * 2 ^ 7 +
    c.speed.toNat * 2 ^ 5 + c.typ.toNat * 2 ^ 3 + bnat c.dirIn * 2 ^ 2

/-- W1 of a context (R162). -/
def Ctx.w1 (c : Ctx) : Nat :=
  c.slice.toNat * 2 ^ 58 + c.mps.toNat * 2 ^ 47 + c.st.code * 2 ^ 44 + bnat c.pin * 2 ^ 43 + bnat c.deferred * 2 ^ 42 +
    bnat c.rwake * 2 ^ 41 + c.seq.toNat * 2 ^ 37 + c.tag.toNat * 2 ^ 33 + bnat c.tktValid * 2 ^ 32 + c.ticket.toNat * 2 ^ 16 +
    c.late.toNat * 2 ^ 8

/-- Word `k` of a context (R162). -/
def Ctx.word (c : Ctx) (k : Nat) : W64 :=
  match k with
  | 0 => BitVec.ofNat 64 c.w0
  | 1 => BitVec.ofNat 64 c.w1
  | 2 => BitVec.ofNat 64 (c.tktTimeout.toNat * 2 ^ 32)
  | 3 => BitVec.ofNat 64 (c.tktDeadline.toNat * 2 ^ 16)
  | 4 => BitVec.ofNat 64 (c.queue.toNat * 2 ^ 52 + c.entry.toNat * 2 ^ 36 + c.remain.toNat)
  | 5 => BitVec.ofNat 64 (c.moved.toNat * 2 ^ 32 + c.sbOff.toNat * 2 ^ 16)
  | 6 => BitVec.ofNat 64 (c.lastSvc.toNat * 2 ^ 16 + c.nakRun.toNat * 2 ^ 8 + c.errRun.toNat)
  | 7 => c.scratch
  | _ => 0

/-- The eight words of a context (R162). -/
def Ctx.words (c : Ctx) : List W64 := (List.range 8).map c.word

/-- The context that eight words spell (R162). -/
def Ctx.ofWords (ws : List W64) : Ctx :=
  let w (i : Nat) : W64 := ws.getD i 0
  let f (i hi lo n : Nat) : BitVec n := BitVec.ofNat n (fld (w i) hi lo)
  { handle := f 0 63 41 23, defTok := fbit (w 0) 40, depth := f 0 39 37 3, hops := f 0 36 12 25, port := f 0 11 7 5
    speed := f 0 6 5 2, typ := f 0 4 3 2, dirIn := fbit (w 0) 2
    slice := f 1 63 58 6, mps := f 1 57 47 11, st := ctxStOf (fld (w 1) 46 44), pin := fbit (w 1) 43
    deferred := fbit (w 1) 42, rwake := fbit (w 1) 41, seq := f 1 40 37 4, tag := f 1 36 33 4, tktValid := fbit (w 1) 32
    ticket := f 1 31 16 16, late := f 1 15 8 8, tktTimeout := f 2 63 32 32, tktDeadline := f 3 63 16 48
    queue := f 4 63 52 12, entry := f 4 51 36 16, remain := f 4 31 0 32, moved := f 5 63 32 32, sbOff := f 5 31 16 16
    lastSvc := f 6 63 16 48, nakRun := f 6 15 8 8, errRun := f 6 7 0 8, scratch := w 7 }

/-- A device-table entry as one word (R161). -/
def Dev.word (d : Dev) : W64 :=
  BitVec.ofNat 64 (d.base.toNat * 2 ^ 41 + d.nep.toNat * 2 ^ 37 + d.slice.toNat * 2 ^ 31 + d.st.code * 2 ^ 28 +
    bnat d.hub * 2 ^ 27 + bnat d.bridge * 2 ^ 26 + d.tier.toNat * 2 ^ 23 + d.ports.toNat * 2 ^ 18)

/-- The device-table entry that a word spells (R161). -/
def Dev.ofWord (w : W64) : Dev :=
  { base := BitVec.ofNat 23 (fld w 63 41), nep := BitVec.ofNat 4 (fld w 40 37), slice := BitVec.ofNat 6 (fld w 36 31)
    st := devStOf (fld w 30 28), hub := fbit w 27, bridge := fbit w 26, tier := BitVec.ofNat 3 (fld w 25 23)
    ports := BitVec.ofNat 5 (fld w 22 18) }

end Sys2Proof.Machine
end

