-- ==== Sys2Proof/Machine/Usori.lean ====
section
/-! DEFINITION. Usori packets (04): identifiers, checks, tokens, data packets, handshakes and the POWER_NOTICE, as the
bytes between SD and ED. -/
namespace Sys2Proof.Machine

open Sys2Proof

/-- CHK of a packet TYPE (R108): the XOR of the codes of its set bits. -/
def pidChk (t : BitVec 5) : BitVec 3 :=
  let c (i : Nat) (v : BitVec 3) : BitVec 3 := if t.getLsbD i then v else 0
  c 0 0b011 ^^^ c 1 0b110 ^^^ c 2 0b111 ^^^ c 3 0b101 ^^^ c 4 0b001

/-- The PID byte of a TYPE (R108): CHK in [7:5], TYPE in [4:0]. -/
def pid (t : BitVec 5) : Byte := pidChk t ++ t

/-- The packet types (R108). -/
def ptOut : BitVec 5 := 0x11
def ptIn : BitVec 5 := 0x12
def ptSetup : BitVec 5 := 0x13
def ptPing : BitVec 5 := 0x14
def ptBcast : BitVec 5 := 0x15
def ptData : BitVec 5 := 0x08
def ptAck : BitVec 5 := 0x18
def ptNak : BitVec 5 := 0x19
def ptStall : BitVec 5 := 0x1A
def ptTicket : BitVec 5 := 0x1B
def ptRouteErr : BitVec 5 := 0x1C

/-- One bit of the CRC-16, polynomial 0x1021 without reflection (R114). -/
def crc16Bit (c : W16) : W16 := if c.getLsbD 15 then (c <<< 1) ^^^ 0x1021 else c <<< 1

/-- One byte of the CRC-16 (R114). -/
def crc16Byte (c : W16) (b : Byte) : W16 := (List.range 8).foldl (fun x _ => crc16Bit x) (c ^^^ (b.setWidth 16 <<< 8))

/-- The CRC-16 of R114: initial value 0xFFFF, no reflection, no final XOR. -/
def crc16 (bs : List Byte) : W16 := bs.foldl crc16Byte 0xFFFF

/-- One bit of the reflected CRC-32 (R114). -/
def crc32Bit (c : W32) : W32 := if c.getLsbD 0 then (c >>> 1) ^^^ 0xEDB88320 else c >>> 1

/-- One byte of the CRC-32 (R114). -/
def crc32Byte (c : W32) (b : Byte) : W32 := (List.range 8).foldl (fun x _ => crc32Bit x) (c ^^^ b.setWidth 32)

/-- The CRC-32 of R114: the IEEE 802.3 polynomial, reflected, with initial value and final XOR 0xFFFF_FFFF. -/
def crc32 (bs : List Byte) : W32 := bs.foldl crc32Byte 0xFFFFFFFF ^^^ 0xFFFFFFFF

/-- The low `n` bytes of a number, most significant first (R106). -/
def beBytes (n v : Nat) : List Byte := (leBytes n v).reverse

/-- A packet of a PID, a body and its CRC-16 (R109, R115). -/
def checked (t : BitVec 5) (body : List Byte) : List Byte :=
  let bs := pid t :: body
  bs ++ beBytes 2 (crc16 bs).toNat

/-- The token body of a context with SEQ and CNT (R109, R162). -/
def tokenBody (c : Ctx) (seq : BitVec 4) (cnt : Nat) : W64 :=
  BitVec.ofNat 64 (c.w0 / 2 ^ 12 * 2 ^ 12 + seq.toNat * 2 ^ 8 + cnt % 8 * 2 ^ 5)

/-- A token to the endpoint of a context (R109). -/
def token (t : BitVec 5) (c : Ctx) (seq : BitVec 4) (cnt : Nat) : List Byte := checked t (beBytes 8 (tokenBody c seq cnt).toNat)

/-- A data packet (R112): header, its CRC-16, the payload and, unless it is empty, its CRC-32. -/
def dataPacket (seq : BitVec 4) (last : Bool) (payload : List Byte) : List Byte :=
  checked ptData (beBytes 2 (seq.toNat * 2 ^ 12 + bnat last * 2 ^ 11 + payload.length % 2 ^ 11)) ++ payload ++
    (if payload = [] then [] else leBytes 4 (crc32 payload).toNat)

/-- The packets of a sheaf, numbered from `seq`, with LAST on the last (R117, R211). -/
def sheafPackets (seq : BitVec 4) : List (List Byte) → List (List Byte)
  | [] => []
  | [p] => [dataPacket seq true p]
  | p :: t => dataPacket seq false p :: sheafPackets (seq + 1) t

/-- The port's ACK with NEXT (R115, R122). -/
def ackPacket (next : BitVec 4) : List Byte := checked ptAck (beBytes 2 (next.toNat * 2 ^ 12))

/-- POWER_NOTICE (R155): mains lost, 20 ms, and the tick in which the loss was detected. -/
def powerNotice (tick : W32) : List Byte :=
  checked ptBcast (beBytes 8 (0x01 * 2 ^ 56 + 0x01 * 2 ^ 48 + 20 * 2 ^ 40 + tick.toNat * 2 ^ 8))

/-- The payload limit of a speed (R113). -/
def payloadLimit : Speed → Nat
  | .field => 128 | .plant => 512 | .cabinet => 1024 | .none => 0

end Sys2Proof.Machine
end

