-- ==== Sys2Proof/Machine/WireCost.lean ====
section
/-! DEFINITION. Wire cost (R223 to R225), notice allowances and TREE_ALLOW (R232, R235). -/
namespace Sys2Proof.Machine

open Sys2Proof

/-! The constants of R223 in tenths of a nanosecond. -/

def tkOf : Speed → Nat
  | .field => 114000 | .plant => 12000 | .cabinet => 1920 | .none => 0
def hsOf : Speed → Nat
  | .field => 66000 | .plant => 7200 | .cabinet => 1152 | .none => 0
/-- d(L) of R223. -/
def dataOf (sp : Speed) (l : Nat) : Nat :=
  if l = 0 then hsOf sp
  else match sp with
    | .field => (98 + 8 * l) * 1000
    | .plant => (26 + 2 * l) * 400
    | .cabinet => (13 + l) * 128
    | .none => 0
def gapOf : Speed → Nat
  | .field => 2000 | .plant => 800 | .cabinet => 640 | .none => 0
def gwOf : Speed → Nat
  | .field => 100000 | .plant => 20000 | .cabinet => 20000 | .none => 0
def toOf : Speed → Nat
  | .field => 800000 | .plant => 120000 | .cabinet => 65000 | .none => 0
def taOf : Nat := 2500

/-- A of an OUT sheaf of n packets of L bytes (R224). -/
def outA (sp : Speed) (n l : Nat) : Nat := tkOf sp + n * (gapOf sp + dataOf sp l) + toOf sp + hsOf sp + taOf
/-- A of an IN sheaf (R224). -/
def inA (sp : Speed) (n l : Nat) : Nat :=
  tkOf sp + toOf sp + n * dataOf sp l + (n - 1) * gwOf sp + taOf + hsOf sp + gapOf sp
/-- A of a PING (R224). -/
def pingA (sp : Speed) : Nat := tkOf sp + toOf sp + hsOf sp + taOf

/-- W in system clocks (R224): (1 + RTY) × A by 10 ns, rounded up. -/
def wireClocks (rty a : Nat) : Nat := ((1 + rty) * a + 99) / 100

/-- W of a bus instruction of a kind with CNT n − 1, at an MPS and a speed (R224, R225). -/
def wireCost (k : WKind) (sp : Speed) (n rty mps : Nat) : Nat :=
  match k with
  | .poll => wireClocks rty (inA sp 1 mps)
  | .take | .setup | .defer => wireClocks rty (inA sp n mps)
  | .give => wireClocks rty (outA sp n mps)
  | .ping => wireClocks rty (pingA sp)
  | .probe us => us * 100 + 50

/-- The notice allowance of a port in a tick of the frame's phase (R156, R232). -/
def noticeAllow (sp : Speed) (phase : Nat) : Nat :=
  match sp with
  | .cabinet => 26
  | .plant => 128
  | .field => if phase = 0 then 1160 else 0
  | .none => 0

/-- The default and the minimum of TREE_ALLOW at a speed (R235). -/
def treeDefault : Speed → Nat
  | .cabinet => 2426 | .plant => 2058 | .field => 0 | .none => 0
def treeMin : Speed → Nat
  | .cabinet => 776 | .plant => 1785 | .field => 0 | .none => 0

/-- TREE_ALLOW in force for a warden's value, if any, at a speed (R235): the minimum where that value falls below it. -/
def treeAllowAt (warden : Option Nat) (sp : Speed) : Nat :=
  match sp with
  | .none | .field => 0
  | _ => match warden with
    | some v => max v (treeMin sp)
    | none => treeDefault sp

/-- The speed of a code of R162. -/
def speedOf (n : Nat) : Speed :=
  match n with
  | 1 => .field
  | 2 => .plant
  | 3 => .cabinet
  | _ => .none

/-- The speed of a context. -/
def Ctx.sp (c : Ctx) : Speed := speedOf c.speed.toNat

/-- TREE_ALLOW of a port as the shuttle uses it (R231, R235). -/
def State.treeAllow (s : State) (p : Nat) : Nat := treeAllowAt (s.schedAt p).wardenAllow (s.port p).speed

/-- The phase of the tick in its frame of eight (R64, R229). -/
def State.phase (s : State) : Nat := s.now % 8

end Sys2Proof.Machine
end

