-- ==== Sys2Proof/Machine/LineCode.lean ====
section
/-! DEFINITION. How packets go onto the line (04 R105, R106): framing, bit order and line codes, and how long they take (R116). The tables of
4B5B and 8b/10b are the standard ones (log entry 127). -/
namespace Sys2Proof.Machine

open Sys2Proof

/-! ## Line codes (R61, R106) -/

/-- A byte at Field speed: least significant bit first. -/
def fieldByte (b : Byte) : List LineSym := (List.range 8).map (fun i => .bit (b.getLsbD i))

/-- The 4B5B code group of a nibble. -/
def group4b5b (n : Nat) : BitVec 5 :=
  [0b11110, 0b01001, 0b10100, 0b10101, 0b01010, 0b01011, 0b01110, 0b01111, 0b10010, 0b10011, 0b10110, 0b10111, 0b11010, 0b11011,
    0b11100, 0b11101].getD n 0

/-- A byte at Plant speed: two code groups, low nibble first. -/
def plantByte (b : Byte) : List LineSym := [.group (group4b5b (b.toNat % 16)), .group (group4b5b (b.toNat / 16))]

/-- The 5b/6b code of the low five bits of a byte at negative running disparity, first bit sent leftmost. -/
def code6 (x : Nat) : BitVec 6 :=
  [0b100111, 0b011101, 0b101101, 0b110001, 0b110101, 0b101001, 0b011001, 0b111000, 0b111001, 0b100101, 0b010101, 0b110100, 0b001101,
    0b101100, 0b011100, 0b010111, 0b011011, 0b100011, 0b010011, 0b110010, 0b001011, 0b101010, 0b011010, 0b111010, 0b110011, 0b100110,
    0b010110, 0b110110, 0b001110, 0b101110, 0b011110, 0b101011].getD x 0

/-- The 3b/4b code of the high three bits at negative running disparity. -/
def code4 (y : Nat) : BitVec 4 := [0b1011, 0b1001, 0b0101, 0b1100, 0b1101, 0b1010, 0b0110, 0b1110].getD y 0

/-- Ones of a code. -/
def ones {w : Nat} (c : BitVec w) : Nat := ((List.range w).filter (fun i => c.getLsbD i)).length

/-- As many ones as zeros. -/
def balanced {w : Nat} (c : BitVec w) : Bool := 2 * ones c == w

/-- A code at the running disparity `rd`, complemented at positive disparity when it is unbalanced or one of the two balanced codes that
have a complement. -/
def atDisparity {w : Nat} (rd : Bool) (pair : Bool) (c : BitVec w) : BitVec w := if rd && (!balanced c || pair) then ~~~c else c

/-- The disparity after a code: an unbalanced one turns it. -/
def nextDisparity {w : Nat} (rd : Bool) (c : BitVec w) : Bool := rd != !balanced c

/-- D.x.7 takes its alternate code, which avoids five equal bits in a row. -/
def alternate7 (rd : Bool) (x : Nat) : Bool := if rd then [11, 13, 14].contains x else [17, 18, 20].contains x

/-- A byte at Cabinet speed: one data character and the disparity after it. -/
def cabinetByte (rd : Bool) (b : Byte) : BitVec 10 × Bool :=
  let x := b.toNat % 32
  let y := b.toNat / 32
  let h := atDisparity rd (x == 7) (code6 x)
  let mid := nextDisparity rd (code6 x)
  let c := if y = 7 && alternate7 mid x then 0b0111 else code4 y
  (h ++ atDisparity mid (y == 3) c, nextDisparity mid c)

/-- A control character, given at negative disparity, and the disparity after it. -/
def controlChar (rd : Bool) (c : BitVec 10) : BitVec 10 × Bool := (if rd then ~~~c else c, nextDisparity rd c)

/-- K28.5, K27.7, K29.7 and K30.7 (R105). -/
def k28_5 : BitVec 10 := 0b0011111010
def k27_7 : BitVec 10 := 0b1101101000
def k29_7 : BitVec 10 := 0b1011101000
def k30_7 : BitVec 10 := 0b0111101000

/-- Characters one after another, the disparity carried across them (R106). -/
def charsOf (rd : Bool) : List (Bool → BitVec 10 × Bool) → List LineSym × Bool
  | [] => ([], rd)
  | f :: t => let (c, r) := f rd; let (l, r) := charsOf r t; (.char c :: l, r)

/-! ## Framing (R105) -/

/-- The abort delimiter of a speed. -/
def abortSyms (rd : Bool) : Speed → List LineSym
  | .field => [.hold false, .hold true]
  | .plant => [.group 0b00100, .group 0b00100]
  | .cabinet => [.char (controlChar rd k30_7).1]
  | .none => []

/-- A packet on the line: preamble, SD, the bytes, ED; and the running disparity after it. -/
def packetSyms (sp : Speed) (rd : Bool) (bs : List Byte) : List LineSym × Bool :=
  match sp with
  | .field =>
    ((List.range 16).map (fun i => .bit (i % 2 == 0)) ++ [true, false, true, false, true, false, true, true].map .bit ++
      bs.flatMap fieldByte ++ [.hold true, .hold false], rd)
  | .plant =>
    (List.replicate 4 (.group 0b11111) ++ [.group 0b11000, .group 0b10001] ++ bs.flatMap plantByte ++ [.group 0b01101, .group 0b00111], rd)
  | .cabinet =>
    charsOf rd ([fun r => controlChar r k28_5, fun r => cabinetByte r 0x50, fun r => controlChar r k27_7] ++
      bs.map (fun b r => cabinetByte r b) ++ [fun r => controlChar r k29_7])
  | .none => ([], rd)

/-! ## Durations (R116) -/

/-- How long a packet of `n` bytes between SD and ED takes, in tenths of a nanosecond. -/
def packetTenths (sp : Speed) (n : Nat) : Nat :=
  match sp with
  | .field => (26 + 8 * n) * 1000
  | .plant => (8 + 2 * n) * 400
  | .cabinet => (4 + n) * 128
  | .none => 0

/-- How long packets take one after another with the gaps of R117, in system clocks. -/
def packetsClocks (sp : Speed) (pks : List (List Byte)) : Nat :=
  ((pks.map (fun b => packetTenths sp b.length)).sum + (pks.length - 1) * gapOf sp + 99) / 100

/-! ## Sending -/

/-- A port sends a packet. -/
def State.sendPacket (s : State) (p : Nat) (bs : List Byte) : State :=
  let x := s.port p
  let (l, rd) := packetSyms x.speed x.rd bs
  (s.emit (.wire (BitVec.ofNat 4 p) bs l)).updPort p (fun x => { x with sent := true, rd := rd })

/-- The cycle at which a port that begins to send packets at cycle `t0` has sent them. -/
def State.sentBy (s : State) (p t0 : Nat) (pks : List (List Byte)) : Nat := t0 + packetsClocks (s.port p).speed pks

/-- A port sends packets in order, from cycle `t0`. -/
def State.transmit (s : State) (p t0 : Nat) (pks : List (List Byte)) : State :=
  let e := s.sentBy p t0 pks
  (s.forAll (fun t b => t.sendPacket p b) pks).updShuttle p (fun x => { x with txEnd := e })

/-! ## Abandon (R36) -/

/-- A shuttle that is sending at a cycle ends its packet with AD, and every ACTIVE port is driven idle until the end of the tick (R36, R105);
at Field speed the idle line carries nothing (R61). -/
def State.abortShuttle (cyc : Nat) (s : State) (p : Nat) : State :=
  let x := s.port p
  let s := if cyc < (s.shuttle p).txEnd then
      (s.emit (.abort (BitVec.ofNat 4 p) (abortSyms x.rd x.speed))).updShuttle p (fun y => { y with txEnd := cyc })
    else s
  if s.portActive p && decide (x.speed ≠ .field) then s.emit (.line (BitVec.ofNat 4 p) .activity) else s

/-- The latest cycle at which a shuttle has started a sequence. -/
def State.wireNow (s : State) : Nat := (s.shuttles.map (fun x => x.2.lastStart)).foldl max 0

/-- A report at a cycle (R36): the first of a tick, before its selvage, stops the shuttles. A report of the model's own that knows no cycle
counts as made at the latest start on any shuttle (log entry 112). -/
def State.detect (s : State) (d : Nat) (unit : Byte) (injected : Bool) (cyc : Nat) : State :=
  let u := s.report d unit injected
  if u.tick.stopped && !s.tick.stopped then u.forAll (State.abortShuttle cyc) (List.range 16) else u

end Sys2Proof.Machine
end

