-- ==== Sys2Proof/Machine/Dram.lean ====
section
/-! DEFINITION. Module DRAM (11 R369 to R375): the key of a page, a line as it is stored, and the page owner's check of an access. -/
namespace Sys2Proof.Machine

open Sys2Proof

/-- The memory key of a slice; none before its draw and after it is zeroised (R374, R378). -/
def State.sliceKey (s : State) (sl : Nat) : Option (List Byte) := (s.sliceXAt sl).memKey.map memKeyOf

/-- The key under which a page is encrypted (R370). -/
def State.pageKey (s : State) (p : Nat) : Option (List Byte) :=
  if (s.comPage p).st = .module then s.moduleKey.map memKeyOf else s.sliceKey (s.comPage p).sl.toNat

/-- The bytes of a line of the barn or of the device table as committed (R158, R161, R162); none of other lines, whose layout the spec
does not give. -/
def State.plainLine (s : State) (line : Nat) : Option (List Byte) :=
  if line < 5120 * 1024 then some (((s.comCtx line).words.map (fun w => leBytes 8 w.toNat)).flatten)
  else if line < 5184 * 1024 then
    some (((List.range 8).map (fun j => leBytes 8 (s.comDev ((line - 5120 * 1024) * 8 + j)).word.toNat)).flatten)
  else none

/-- A line of DRAM as it is stored, under the key of its page (R370, R375): of a page that the gleaner has filled, with what the
module has written back. -/
def State.dramLine (s : State) (line : Nat) : Option (List Byte) :=
  match s.pageKey (line / 1024), s.plainLine line with
  | some k, some bs => some (xtsEncrypt k line bs)
  | _, _ => none

/-- A page that a slice may reach: its own, and not in FILL (R371, R372). -/
def State.dramOk (s : State) (sl p : Nat) : Bool := (s.comPage p).st == .owned && (s.comPage p).sl.toNat == sl

/-- A DRAM access on behalf of a slice to some pages (R372): blocked, with a report of the page-owner detector, where one of them is not
the slice's or is in FILL. -/
def State.dramAccess (s : State) (sl : Nat) (ps : List Nat) (go : State → State) : State :=
  if ps.all (s.dramOk sl) then go s else s.detect 85 0 false s.wireNow

/-- The pages that hold a context and the device-table entry of its device (R158). -/
def State.ctxPages (s : State) (i : Nat) : List Nat := [i / 1024, 5120 + (s.ctx i).device / 8192]

end Sys2Proof.Machine
end

