-- ==== Sys2Proof/Machine/CacheOps.lean ====
section
/-! DEFINITION. The context cache (05): sets and ways, residence, victims and fills (R174 to R183). -/
namespace Sys2Proof.Machine

open Sys2Proof

/-- The set and the tag of a context (R174). -/
def ctxSet (i : Nat) : Nat := i % 1024
def ctxTag (i : Nat) : Nat := i / 1024

/-- The set and the tag of the device-table line of a device (R175). -/
def lineSet (d : Nat) : Nat := d / 128 % 1024
def lineTag (d : Nat) : Nat := d / 8

/-- The number of a way of a set. -/
def wayKey (set w : Nat) : Nat := set * 12 + w

/-- The valid way of a set that holds a tag (R174, R175). -/
def State.wayOf (s : State) (set tag : Nat) (dev : Bool) : Option Nat :=
  ((List.range 12).map (wayKey set)).find? (fun k => match s.cache.find k with
    | some y => y.tag == tag && y.dev == dev
    | none => false)

/-- The context is in the cache (R182): it has a way, whose fill is complete. -/
def State.resident (s : State) (i : Nat) : Bool :=
  match s.wayOf (ctxSet i) (ctxTag i) false with
  | some k => (match s.cache.find k with
    | some y => !y.filling
    | none => false)
  | none => false

/-- The context of a way. -/
def CWay.ctx (set : Nat) (y : CWay) : Nat := y.tag * 1024 + set

/-- A way is pinned (R174, R183): a pin or an unpin counts from its commit (R177). -/
def State.wayPinned (s : State) (set : Nat) (y : CWay) : Bool := !y.dev && (s.comCtx (y.ctx set)).pin

/-- The context is in the cache and claimed for this tick, or pinned there (R238). -/
def State.claimed (s : State) (i : Nat) : Bool :=
  match s.wayOf (ctxSet i) (ctxTag i) false with
  | some k => (match s.cache.find k with
    | some y => !y.filling && (y.claimCur || s.wayPinned (ctxSet i) y)
    | none => false)
  | none => false

/-- The context waits to be staged (R180). -/
def State.carried (s : State) (i : Nat) : Bool := s.staging.any (fun x => x.ctx.toNat == i && !x.done)

/-- The age of a way (R176). -/
def State.wayAge (s : State) (y : CWay) : Nat := (s.tick.n.setWidth 16 - y.lastUse).toNat

/-- The older of two candidate ways, the first where they are of one age. -/
def olderWay (a : Option (Nat × Nat)) (b : Nat × Nat) : Option (Nat × Nat) :=
  match a with
  | none => some b
  | some x => if x.2 < b.2 then some b else some x

/-- The victim of a fill (R176): the lowest invalid way, else the oldest that is neither pinned nor claimed nor being filled (log entry
122). -/
def State.victim (s : State) (set : Nat) : Option Nat :=
  let ks := (List.range 12).map (wayKey set)
  match ks.find? (fun k => (s.cache.find k).isNone) with
  | some k => some k
  | none =>
    (ks.foldl (fun acc k => match s.cache.find k with
      | some y => if s.wayPinned set y || y.claimCur || y.claimNext || y.filling then acc else olderWay acc (k, s.wayAge y)
      | none => acc) none).map (·.1)

/-- A change of a valid way. -/
def State.updWay (s : State) (k : Nat) (f : CWay → CWay) : State :=
  match s.cache.find k with
  | some y => { s with cache := s.cache.set k (f y) }
  | none => s

/-- A context's way is used in the tick (R174 LAST_USE). -/
def State.useCtx (s : State) (i : Nat) : State :=
  match s.wayOf (ctxSet i) (ctxTag i) false with
  | some k => s.updWay k (fun y => { y with lastUse := s.tick.n.setWidth 16 })
  | none => s

/-- Claims a resident context for the next tick (R174, R179). -/
def State.claimNext (s : State) (i : Nat) : State :=
  match s.wayOf (ctxSet i) (ctxTag i) false with
  | some k => s.updWay k (fun y => { y with claimNext := true, lastUse := s.tick.n.setWidth 16 })
  | none => s

/-- The page that a cache way was filled from (R158). -/
def CWay.page (set : Nat) (y : CWay) : Nat := if y.dev then 5120 + y.tag / 1024 else y.ctx set / 1024

/-- The slice that holds a page of the barn or of the device table (R357). -/
def State.pageHolder (s : State) (p : Nat) : Nat := if p < 5120 then s.barnOwner p else s.idBlockOwner (p - 5120)

/-- Folds an item of a table (R30). -/
def Tab.foldAt {α : Type} (e : W32) (t : Tab (Ver α)) (k : Nat) : Tab (Ver α) :=
  match t.find k with
  | some v => t.set k (v.fold e)
  | none => t

/-- A victim gives up its way (R176): a dirty one is folded and written back, for the slice that holds its page. -/
def State.evict (s : State) (set k : Nat) : State :=
  match s.cache.find k with
  | some y =>
    if y.dirty then
      s.dramAccess (s.pageHolder (y.page set)) [y.page set] (fun s =>
        if y.dev then { s with devs := (List.range 8).foldl (fun t j => Tab.foldAt s.e t (y.tag * 8 + j)) s.devs }
        else { s with ctxs := Tab.foldAt s.e s.ctxs (y.ctx set) })
    else s
  | none => s

/-- A way is given to a new item, its victim evicted (R176); none when the set has no victim. -/
def State.takeWay (s : State) (set : Nat) (y : CWay) : Option State :=
  (s.victim set).map (fun k => let t := s.evict set k; { t with cache := t.cache.set k y })

/-- A fill begins (R176, R179): the context takes the victim's way, claimed for the next tick. -/
def State.fillCtx (s : State) (i : Nat) : Option State :=
  s.takeWay (ctxSet i) { tag := ctxTag i, claimNext := true, filling := true, lastUse := s.tick.n.setWidth 16 }

/-- The claims move at the end of a tick, committed or abandoned (R181); a fill that is not complete carries none over (R180;
log entry 122). -/
def State.moveClaims (s : State) : State :=
  { s with cache := s.cache.mapV (fun y => { y with claimCur := y.claimNext && !y.filling, claimNext := false }) }

/-- A device-table line that was written enters the cache, or is dirty there (R174, R175); its page in FILL is the gleaner's (R371;
log entry 122). -/
def State.markLine (s : State) (d : Nat) : State :=
  match s.wayOf (lineSet d) (lineTag d) true with
  | some k => s.updWay k (fun y => { y with dirty := true, lastUse := s.tick.n.setWidth 16 })
  | none =>
    if (s.comPage (5120 + d / 8192)).st = .owned then
      (s.takeWay (lineSet d) { tag := lineTag d, dev := true, dirty := true, lastUse := s.tick.n.setWidth 16 }).getD s
    else s

/-- At a commit, what the tick has written differs from the barn (R174 DIRTY). `wrote` and `devs` are the contexts and the devices with a
pending version. -/
def State.markDirty (s : State) (wrote devs : List Nat) : State :=
  let s := s.forAll (fun t i => match t.wayOf (ctxSet i) (ctxTag i) false with
    | some k => t.updWay k (fun y => { y with dirty := true })
    | none => t) wrote
  s.forAll State.markLine devs

end Sys2Proof.Machine
end

