-- ==== Sys2Proof/Machine/HostWrites.lean ====
section
/-! DEFINITION. The host-write buffer of a link (R18, R34, R35) and the arrival of writes to tick-transactional
registers of a window or of the indirect space. -/
namespace Sys2Proof.Machine

open Sys2Proof

/-- The warden link as committed (R364, R501). -/
def State.comWarden (s : State) : Nat := (s.warden.comAt s.e).toNat

/-- Nothing is committed or abandoned any more: a tick after the one in which the bank reached 15 J (R451). -/
def State.isDown (s : State) : Bool :=
  match s.supply.downAt with
  | some d => decide (d.toNat < s.now)
  | none => false

/-- A write enters the buffer of its link; when 256 writes are held, the link withholds credits and the write waits
(R35). From the tick after POWER_DOWN such writes are discarded (R451). -/
def State.buffer (s : State) (l : Nat) (w : HWrite) : State :=
  if s.supply.st = .powerDown && s.isDown then s
  else if (s.link l).buf.length < 256 && (s.link l).withheld.isEmpty then
    s.updLink l (fun x => { x with buf := x.buf ++ [w] })
  else (s.updLink l (fun x => { x with withheld := x.withheld ++ [w] })).linkErr l 7

/-- The place of a write of LINK_CTL among the commands of its tick is kept (R75). -/
def State.markLinkCtl (s : State) (addr : Nat) : State :=
  if 0x20000 ≤ addr ∧ addr < 0x21000 ∧ addr % 0x100 = 0 then
    s.updPort (addr / 0x100 % 16) (fun x => { x with hostAt := x.cmds.length })
  else s

/-- A write of a guarded register of the indirect space (R501, R502): ignored from any link but the warden link. -/
def State.guardedWrite (s : State) (l addr : Nat) (v : W32) : State :=
  if s.comWarden = l then
    (s.markLinkCtl addr).buffer l { tgt := .ind (BitVec.ofNat 24 addr), val := v, sl := none, warden := true }
  else s

/-- A write of a register of slice window `w` of link `l` (R362). An access to a window that no slice holds is one to an
unimplemented location, counted and reported (R4, R498). -/
def State.badAccess (s : State) (l : Nat) (off : BarOff) (write : Bool) (ind : Option (BitVec 24)) (bit : Nat) : State :=
  let clean := !(s.link l).err.getLsbD 0 && !(s.link l).err.getLsbD 1
  let s := s.linkErr l bit
  let s := s.updLink l (fun x =>
    let x := { x with errCnt := satInc x.errCnt }
    if clean then
      { x with
        errAddr := BitVec.ofNat 21 (off.toNat / 4 * 4 + (if ind.isSome then 2 else 0) + (if write then 1 else 0))
        errInd := match ind with
          | some a => BitVec.ofNat 22 (a.toNat / 4)
          | none => x.errInd }
    else x)
  s.emit (.aer (BitVec.ofNat 2 l) (BitVec.ofNat 8 bit))

/-- BAR0 offset of a window register (R495). -/
def windowOff (w off : Nat) : BarOff := BitVec.ofNat 21 (0x10000 + w * 0x10000 + off)

/-- A write of a tick-transactional register of a window (R18, R362). -/
def State.windowWrite (s : State) (l w off : Nat) (v : W32) : State :=
  match s.windowSlice l w with
  | some k => s.buffer l { tgt := .bar (windowOff w off), val := v, sl := some (BitVec.ofNat 6 k), warden := false }
  | none => s.badAccess l (windowOff w off) true none 0

/-- The indirect address of LINK_CTL of a port (R103). -/
def linkCtlAddr (p : Nat) : Nat := 0x20000 + p * 0x100
/-- The indirect address of PD_CTL of a domain (R465). -/
def pdCtlAddr (d : Nat) : Nat := 0x80100 + d * 4

end Sys2Proof.Machine
end

