-- ==== Sys2Proof/Machine/ChannelOps.lean ====
section
/-! DEFINITION. Shared operations on DMA channels (09): descriptors and reshuffling, the rate limiter, boundaries,
commands, and what a commit does to a channel. -/
namespace Sys2Proof.Machine

open Sys2Proof

/-! ## Descriptors and reshuffling (R300 to R305) -/

def Desc.length (d : Desc) : Nat := fld d.w2 63 32
def Desc.tag (d : Desc) : W16 := BitVec.ofNat 16 (fld d.w2 31 16)
def Desc.shuf (d : Desc) : Byte := BitVec.ofNat 8 (fld d.w2 15 8)
def Desc.evt (d : Desc) : Bool := fbit d.w2 7
/-- The address of the next descriptor; 0 ends the chain. -/
def Desc.next (d : Desc) : W64 := d.w3 &&& ~~~(31 : W64)

/-- A descriptor passes the checks of R301 for the role. -/
def descOk (role : Role) (d : Desc) : Bool :=
  role == .xport || (fld d.w2 6 0 == 0 && fld d.w3 4 0 == 0 && d.length != 0 && shufValid false d.shuf &&
    shufSuits d.shuf d.length)

/-- The planes of a descriptor's input and of its output (R302, R303). -/
def Desc.inPlanes (d : Desc) : Nat := if shufMode d.shuf = 2 then shufNch d.shuf else 1
def Desc.outPlanes (d : Desc) : Nat := if shufMode d.shuf = 1 then shufNch d.shuf else 1

/-! ## Events, room and records -/

/-- Sets bit `i` of CH_EVENT (R319). -/
def State.chanEvent (s : State) (c i : Nat) : State := s.updChanX c (fun x => { x with event := setBit x.event i })

/-- A change of both versions of a channel. -/
def State.bothChan (s : State) (c : Nat) (f : ChS → ChS) : State :=
  { s with chans := s.chans.set c ((s.chans.get (.of {}) c).both f) }

/-- Records owed to the completion queue of a channel, of this tick and of committed ones. -/
def State.recsOwed (s : State) (c : Nat) : Nat :=
  (s.chan c).owed.length + (s.owedRec.filter (fun r => r.1.toNat == c)).length + (s.due.recs.filter (fun r => r.1.toNat == c)).length

/-- Records issued to the completion queue of a channel and not consumed (R316). -/
def ChS.inRing (x : ChS) : Nat :=
  let n := 2 * 2 ^ x.cqLog2
  (x.prod.toNat + n - x.cons.toNat) % n

/-- Room for one more record in the completion queue of a channel, beside those owed (R312). -/
def State.cqRoom (s : State) (c : Nat) : Bool := decide ((s.chan c).inRing + s.recsOwed c < 2 ^ (s.chan c).cqLog2)

/-- A descriptor ends with a record (R314, R317). -/
def ChS.endWith (x : ChS) (now : W32) (d : Desc) (st : ChStatus) (bytes : Nat) : ChS :=
  { x with
    owed := x.owed ++ [{ tag := d.tag, status := st, last := d.next == 0 || d.addr == 0, bytes := BitVec.ofNat 32 bytes,
                         tick := now, desc := d.addr.setWidth 32, evt := d.evt }]
    count := satInc x.count, active := Option.none, done := 0, read := [], wrote := [], buf := [], data := [], failed := false }

/-- The data of a channel's outstanding reads that a test selects is not wanted any more. -/
def ChX.forget (f : ReadReq → Bool) (y : ChX) : ChX :=
  { y with reqs := y.reqs.map (fun r => { r with stale := r.stale || f r }) }

/-- The channel comes to STOPPED (R310): a GO_CHAIN that waits for its descriptor starts nothing. -/
def State.chanStopped (s : State) (c : Nat) : State :=
  ((s.updChan c (fun x => { x with st := .stopped, chain := Option.none, starts := false })).updChanX c
    (ChX.forget (·.fetch.isSome))).chanEvent c 4

/-- The shadow set becomes active (R308, R312): it ends with FORMAT when it fails its checks, and waits PAUSED, armed, while
the completion queue has no room. A STOP that has committed still acts at its end. -/
def State.startShadow (s : State) (c : Nat) : State :=
  let x := s.chan c
  if !s.cqRoom c then
    if x.st = .stopping then (s.updChan c (fun x => { x with armed := true })).chanStopped c
    else s.updChan c (fun x => { x with armed := true, starts := false, st := .paused })
  else if descOk x.role x.shadow then
    s.updChan c (fun x => { x with
      active := some x.shadow, armed := false, starts := false, done := 0
      read := List.replicate x.shadow.inPlanes 0, wrote := List.replicate x.shadow.outPlanes 0, buf := [], data := [], failed := false
      st := if x.st = .stopping then .stopping else .running })
  else
    (s.updChan c (fun x => { x.endWith s.workTick x.shadow .format 0 with armed := false })).chanStopped c

/-- The shadow set starts with the tick (R308). -/
def State.startDue (s : State) (c : Nat) : State := if (s.chan c).starts then s.startShadow c else s

/-- A boundary (R308 to R310): the failure of a chain ends it, STOP takes effect, else an armed shadow starts, else the channel is IDLE
or fetches the next descriptor of its chain. -/
def State.boundary (s : State) (c : Nat) (next : W64) : State :=
  let x := s.chan c
  if x.chainFail then
    (s.updChan c (fun x => { x with
      chainFail := false
      owed := x.owed ++ [{ tag := 0, status := .chainError, last := false, bytes := 0, tick := s.workTick, desc := 0
                           evt := false }] })).chanStopped c
  else if x.st = .stopping then s.chanStopped c
  else if x.armed then s.startShadow c
  else if next = 0 then s.updChan c (fun x => { x with st := .idle })
  else s.updChan c (fun x => { x with st := .running, chain := some next })

/-! ## Commands (R308 to R313) -/

/-- A committed GO or GO_CHAIN (R308): what it starts starts with the next tick, and BUSY answers another that comes before it (log
entry 118). -/
def State.applyGo (s : State) (c : Nat) (chain : Bool) : State :=
  let x := s.chan c
  let busy := s.chanEvent c 6
  match x.role with
  | .none => busy
  | .queue =>
    match x.st with
    | .stopped => s.updChan c (fun x => { x with st := .idle })
    | .killed => s.updChan c (fun x => { x with st := .idle, shadow := {}, active := Option.none })
    | _ => busy
  | _ =>
    let fetch : State := s.updChan c (fun x => { x with chain := some x.shadow.next, armed := false })
    let start : State := s.updChan c (fun x => { x with starts := true, shadow := { x.shadow with addr := 0 } })
    let waits := x.starts || x.chain.isSome
    match x.st with
    | .killed => s.updChan c (fun x => { x with st := .idle, shadow := {}, active := Option.none, armed := false })
    | .idle => if waits then busy else if chain then fetch else start
    | .stopped => if waits then busy else if chain then fetch else start
    | _ =>
      let more := match x.active with
        | some d => d.next != 0
        | Option.none => false
      if x.armed || more || waits then busy
      else if chain then s.updChan c (fun x => { x with chain := some x.shadow.next })
      else s.updChan c (fun x => { x with armed := true, shadow := { x.shadow with addr := 0 } })

/-- The bytes that a phase of an entry's reading needs: its fragment table, then its payload. -/
def Entry.readTotal (e : Entry) (legacy : Bool) : Nat :=
  if legacy && e.frags == [] then fld e.q1 22 11 * 16 else e.length

/-- An entry's reading has begun and has not ended: some of it was requested. -/
def Entry.reading (e : Entry) (legacy : Bool) : Bool :=
  decide (0 < e.inFlight) || (decide (0 < e.toRead) && decide (e.toRead < e.readTotal legacy))

/-- The queues that a QUEUE channel serves. -/
def State.queuesThrough (s : State) (c : Nat) : List Nat :=
  (s.queues.map (·.1)).filter (fun k =>
    (s.queue k).live && k % 4096 != 0 && (s.queue k).chan.toNat == c && s.chanOwner c == k / 4096)

/-- The channel is moving a payload or a table of one of its queues (R307, R310). -/
def State.chanMoving (s : State) (c : Nat) : Bool :=
  (s.queuesThrough c).any (fun k => (s.queue k).entries.any (fun e => e.reading (s.queue k).legacy))

/-- A committed STOP (R310). -/
def State.applyStop (s : State) (c : Nat) : State :=
  let x := s.chan c
  let stopping : State := s.updChan c (fun x => { x with st := .stopping })
  if x.role = .queue then
    match x.st with
    | .idle | .running => if s.chanMoving c then stopping else s.chanStopped c
    | _ => s
  else
    match x.st with
    | .running => if x.active.isSome || x.starts then stopping else s.chanStopped c
    | .paused => stopping
    | .idle => if x.starts then stopping else s.chanStopped c
    | .stopped => if x.starts then stopping else s.chanStopped c
    | _ => s

/-- A committed write of CH_CTL (R313): KILL has acted at its arrival and silences the others; STOP silences GO. -/
def State.applyChCtl (s : State) (c : Nat) (v : W32) : State :=
  if v.getLsbD 3 then s
  else if v.getLsbD 2 then
    let s := if v.getLsbD 0 || v.getLsbD 1 then s.chanEvent c 6 else s
    s.applyStop c
  else if v.getLsbD 1 then s.applyGo c true
  else if v.getLsbD 0 then s.applyGo c false
  else s

/-- Replaces one DWORD of a descriptor, by its place in the shadow set (R319). -/
def Desc.setWord (d : Desc) (k : Nat) (v : W32) : Desc :=
  let put (w : W64) : W64 :=
    if k % 2 = 0 then BitVec.ofNat 64 (w.toNat / 2 ^ 32 * 2 ^ 32 + v.toNat)
    else BitVec.ofNat 64 (w.toNat % 2 ^ 32 + v.toNat * 2 ^ 32)
  match k / 2 with
  | 0 => { d with w0 := put d.w0, addr := 0 }
  | 1 => { d with w1 := put d.w1, addr := 0 }
  | 2 => { d with w2 := put d.w2, addr := 0 }
  | _ => { d with w3 := put d.w3, addr := 0 }

/-- One DWORD of a descriptor (R319). -/
def Desc.word (d : Desc) (k : Nat) : W32 :=
  let get (w : W64) : W32 := if k % 2 = 0 then w.setWidth 32 else BitVec.ofNat 32 (w.toNat / 2 ^ 32)
  match k / 2 with
  | 0 => get d.w0
  | 1 => get d.w1
  | 2 => get d.w2
  | _ => get d.w3

/-- A committed write of the shadow set: ignored with BUSY while ARMED (R308). -/
def State.applyShadow (s : State) (c k : Nat) (v : W32) : State :=
  if (s.chan c).armed then s.chanEvent c 6
  else s.updChan c (fun x => { x with shadow := x.shadow.setWord k v })

/-- Stops the queues that name a channel, as QUEUE_MODE would (R311, R368). -/
def State.stopQueuesOf (s : State) (c : Nat) : State :=
  s.forAll (fun t k => t.updQueue k (fun q => { q with run := false })) (s.queuesThrough c)

/-- Something of an entry has yet to be read through the queue's channel: its fragment table or its OUT payload (R12, R269). -/
def State.unread (s : State) (legacy : Bool) (e : Entry) : Bool :=
  e.op == 1 && !e.staged && (e.begun || legacy || !s.entryIn e.handle e.q3)

/-- Entries whose OUT payload or fragment table the channel has not finished reading complete WITHDRAWN (R311, R368). -/
def State.withdrawUnread (s : State) (c : Nat) : State :=
  s.forAll (fun t k => t.endAll (k / 4096) (k % 4096) (fun e =>
    if t.unread (t.queue k).legacy e then some stWithdrawn else none)) (s.queuesThrough c)

/-- The completion record of a transfer whose payload is withdrawn: status WITHDRAWN, MOVED a free value (R311, R365). -/
def Cpl.withdrawn (r : Cpl) (free : W64) : Cpl :=
  { r with
    c0 := BitVec.ofNat 64 (r.c0.toNat / 2 ^ 32 * 2 ^ 32 + stWithdrawn * 2 ^ 24 + r.c0.toNat % 2 ^ 24)
    c1 := BitVec.ofNat 64 (free.toNat % 2 ^ 32 * 2 ^ 32 + r.c1.toNat % 2 ^ 32) }

/-- The completion is that of the entry at a place. -/
def Cpl.of (x : Sys2Proof.Slice × QNum × BitVec 17) (r : Cpl) : Bool := x.1 == r.slice && x.2.1 == r.queue && x.2.2 == r.pos

/-- The place of the entry that payload belongs to. -/
def Pay.place (p : Pay) : Sys2Proof.Slice × QNum × BitVec 17 := (p.slice, p.queue, p.pos)

/-- All IN payload that is not issued: of committed ticks, of this tick's commit, and of a tick that has not committed. -/
def State.allPay (s : State) : List Pay := s.owedPay ++ s.due.pay ++ s.payPend

/-- A change of every completion that is not issued. -/
def State.mapCpl (s : State) (f : Cpl → Cpl) : State :=
  { s with owedCpl := s.owedCpl.map f, cplPend := s.cplPend.map f, due := { s.due with cpl := s.due.cpl.map f } }

/-- The IN payload that a test selects stays, the rest goes. -/
def State.keepPay (s : State) (f : Pay → Bool) : State :=
  { s with owedPay := s.owedPay.filter f, payPend := s.payPend.filter f, due := { s.due with pay := s.due.pay.filter f } }

/-- The completion of a transfer whose payload is gone is WITHDRAWN, with one free value as MOVED (R311, R365). -/
def State.withdrawAt (s : State) (x : Sys2Proof.Slice × QNum × BitVec 17) : State :=
  (s.mapCpl (fun r => if r.of x then r.withdrawn s.free else r)).useFree

/-- A transfer that has lost payload ends WITHDRAWN, also where it has ended in this tick (R311, R365; log entry 67). -/
def State.endLost (s : State) (x : Sys2Proof.Slice × QNum × BitVec 17) : State :=
  match (s.queue (qKey x.1.toNat x.2.1.toNat)).entryAt x.2.2 with
  | some e => (s.endTransfer x.1.toNat x.2.1.toNat e stWithdrawn).withdrawAt x
  | none => s.withdrawAt x

/-- Each once. -/
def distinct {α : Type} [BEq α] (l : List α) : List α := l.foldl (fun acc x => if acc.contains x then acc else acc ++ [x]) []

/-- The transfers to which payload belongs that a test selects. -/
def payPlaces (l : List Pay) (f : Pay → Bool) : List (Sys2Proof.Slice × QNum × BitVec 17) := distinct ((l.filter f).map Pay.place)

/-- IN payload of committed ticks that a test selects is dropped, and its completions are WITHDRAWN (R311; log entry 67). -/
def State.dropOwedPay (s : State) (f : Pay → Bool) : State :=
  let s := s.forAll State.withdrawAt (payPlaces (s.owedPay ++ s.due.pay) f)
  { s with owedPay := s.owedPay.filter (fun p => !f p), due := { s.due with pay := s.due.pay.filter (fun p => !f p) } }

/-- At a commit: all IN payload that is not issued and that a test selects is dropped, and its transfers, with those of `more`, are
WITHDRAWN (R311, R365; log entry 67). -/
def State.withdrawPayload (s : State) (more : List (Sys2Proof.Slice × QNum × BitVec 17)) (f : Pay → Bool) : State :=
  (s.forAll State.endLost (distinct (more ++ payPlaces s.allPay f))).keepPay (fun p => !f p)

/-- KILL in the clock in which it arrives (R311): descriptors, data and owed records are dropped, ACT_DONE becomes a free
value, and completions whose IN payload had not been issued are withdrawn (log entry 67). -/
def State.killNow (s : State) (c : Nat) : State :=
  let mine (p : Pay) : Bool := p.chan.toNat == c
  let lost := payPlaces (s.owedPay ++ s.due.pay) mine
  let s := s.bothChan c (fun x => { x with
    active := Option.none, shadow := {}, data := [], buf := [], read := [], wrote := [], failed := false, owed := [], armed := false
    starts := false, chain := Option.none, chainFail := false, done := s.free.setWidth 32, job := Option.none })
  let s := { s with
    owedRec := s.owedRec.filter (fun r => r.1.toNat != c), due := { s.due with recs := s.due.recs.filter (fun r => r.1.toNat != c) } }
  let s := s.updChanX c (fun x => { x.forget (fun _ => true) with killNow := true, lost := x.lost ++ lost })
  s.useFree.dropOwedPay mine

/-- The commit after a KILL (R311; log entry 67): KILLED; of a QUEUE channel the queues stop, unread entries and transfers that have lost
payload, or would lose that of this tick, are withdrawn. -/
def State.commitKill (s : State) (c : Nat) : State :=
  let mine (p : Pay) : Bool := p.chan.toNat == c
  let s := s.updChan c (fun x => { x with st := .killed })
  let s :=
    if (s.chan c).role = .queue then
      ((s.withdrawUnread c).withdrawPayload (s.chanXAt c).lost mine).stopQueuesOf c
    else s
  (s.chanEvent c 5).updChanX c (fun x => { x with killNow := false, lost := [] })

/-! ## The rate limiter (R297) -/

/-- Payload rate of a link in bytes per system clock. -/
def LinkS.rate (x : LinkS) : Nat :=
  let base := if 8 ≤ x.gts then 37 else if 5 ≤ x.gts then 18 else 9
  max 1 (base * x.width / 4)

/-- Spacing after a burst of `b` bytes: the ceiling of B × 64 / (SHARE × r). -/
def burstSpace (b share r : Nat) : Nat := (b * 64 + share * r - 1) / (share * r)

/-- Bytes of a burst at an address with `n` bytes left: up to the next 512-byte boundary. -/
def burstLen (addr : W64) (n : Nat) : Nat := min n (512 - addr.toNat % 512)

end Sys2Proof.Machine
end

