-- ==== Sys2Proof/Machine/Queues.lean ====
section
/-! DEFINITION. Work queues (08): polling, fetching and the format checks, the queue registers' writes, the operations
of a transfer queue, and the admin commands that make, stop and change queues. -/
namespace Sys2Proof.Machine

open Sys2Proof

/-! ## Format checks (R270) -/

/-- A mask of bits hi to lo. -/
def bitsMask (hi lo : Nat) : Nat := 2 ^ (hi + 1) - 2 ^ lo

/-- The fields of an admin operation (R289, R296, R352, R388, R412, R438): HANDLE is used, the mask of Q1's fields, and
whether Q2 is used. None for a reserved code (log entry 20). -/
def adminFields (op : Nat) : Option (Bool × Nat × Bool) :=
  let m := bitsMask
  match op with
  | 0x10 => some (false, m 63 3, true)
  | 0x11 => some (false, m 63 52, false)
  | 0x12 => some (false, m 63 52 + m 43 42, false)
  | 0x13 => some (false, m 63 52 + m 42 32 + m 20 3, false)
  | 0x20 => some (false, m 63 36, true)
  | 0x21 => some (false, m 63 56, false)
  | 0x22 => some (false, 0, true)
  | 0x23 => some (false, m 63 52, false)
  | 0x24 => some (true, m 63 51, false)
  | 0x25 => some (true, 0, false)
  | 0x26 => some (false, m 63 59 + m 45 32, false)
  | 0x27 => some (false, m 63 59 + m 45 24, true)
  | 0x30 => some (true, m 63 32, false)
  | 0x31 => some (false, m 63 30 + m 18 0, false)
  | 0x32 => some (true, 0, false)
  | 0x33 => some (true, 0, false)
  | 0x34 => some (true, 0, true)
  | 0x35 => some (true, 0, false)
  | 0x40 => some (false, m 63 33, false)
  | 0x41 => some (false, m 63 27, false)
  | 0x50 => some (false, m 63 37, true)
  | 0x60 => some (false, m 63 53, true)
  | 0x61 => some (false, m 63 49, true)
  | 0x62 => some (false, m 63 51, false)
  | 0x63 => some (false, m 63 47, false)
  | 0x64 => some (false, m 63 52, true)
  | 0x65 => some (false, m 63 40, true)
  | 0x66 => some (false, m 63 48, true)
  | 0x67 => some (false, m 50 48, false)
  | 0x70 => some (false, m 63 56, false)
  | 0x71 => some (false, m 63 24, false)
  | 0x72 => some (false, m 63 58, false)
  | 0x73 => some (false, m 63 59, false)
  | 0x74 => some (false, m 63 59, false)
  | 0x80 => some (false, m 63 58, true)
  | 0x81 => some (false, m 63 58, true)
  | 0x82 => some (false, m 63 31, false)
  | 0x83 => some (false, m 63 58, false)
  | 0x84 => some (false, m 63 58, false)
  | 0x85 => some (false, m 63 58, false)
  | 0x86 => some (false, m 63 58, false)
  | 0x87 => some (false, m 63 23, false)
  | 0x88 => some (false, m 63 58, true)
  | 0x89 => some (false, m 63 52, true)
  | 0x8A => some (false, m 63 52, true)
  | 0x8B => some (false, 0, false)
  | 0x8C => some (false, m 63 58, true)
  | _ => none

/-- The reserved bits of an entry's first word: [58:56] and [31:23] (R265; log entry 20). -/
def headReserved (q0 : W64) : Bool := fld q0 58 56 != 0 || fld q0 31 23 != 0

/-- Reasons 0x01 and 0x02 of an admin entry. DEDUCED: bits that the command's table does not name are reserved
fields (log entry 20). -/
def adminReason (q0 q1 q2 q3 : W64) : Nat :=
  match adminFields (fld q0 55 48) with
  | none => 1
  | some (h, m, two) =>
    if headReserved q0 || (!h && fld q0 22 0 != 0) || q1.toNat &&& (2 ^ 64 - 1 - m) != 0 || (!two && q2 != 0) || q3 != 0
    then 2 else 0

/-- The fragments of words that hold `n` of them (R266). -/
def fragsOf : Nat → List W64 → List (W64 × Nat)
  | 0, _ => []
  | n + 1, a :: b :: t => (a, fld b 63 32) :: fragsOf n t
  | _ + 1, _ => []

/-- Some fragment word of `n` fragments has a nonzero reserved field. -/
def fragReserved : Nat → List W64 → Bool
  | 0, _ => false
  | n + 1, _ :: b :: t => fld b 31 0 != 0 || fragReserved n t
  | _ + 1, _ => false

/-- Fragment lengths are nonzero and add up to LENGTH (R266, reason 0x05; log entry 64). -/
def fragsFit (len : Nat) (fs : List (W64 × Nat)) : Bool :=
  fs.all (fun f => f.2 != 0) && (fs.map (·.2)).sum == len

/-- Reasons 0x06 to 0x08 of a TRANSFER. -/
def State.lengthReason (s : State) (qs : QueueS) (h len : Nat) (q3 : W64) : Nat :=
  if h % 16 = 0 then
    if len ≠ setupLength q3 ∨ (len = 0 ∧ setupIn q3 = true) then 6 else if q3 = 0 then 7 else 0
  else if len = 0 ∧ s.entryIn h q3 = true then 6
  else if q3 ≠ 0 then 7
  else if shufSuits (s.comChan qs.chan.toNat).qshuf len then 0 else 8

/-- The reason of R270 with which an entry is MALFORMED, the lowest that applies; 0 when it passes. -/
def State.formatReason (s : State) (sl q : Nat) (qs : QueueS) (units : Nat) (raw : List W64) : Nat :=
  let w (i : Nat) : W64 := raw.getD i 0
  let op := fld (w 0) 55 48
  let len := fld (w 1) 63 32
  let nseg := fld (w 1) 31 24
  let nfrag := fld (w 1) 22 11
  let r12 :=
    if q = 0 then adminReason (w 0) (w 1) (w 2) (w 3)
    else if 1 < op then 1
    else if headReserved (w 0) then 2
    else if qs.legacy then (if nseg ≠ 0 ∨ fld (w 1) 10 0 ≠ 0 then 2 else 0)
    else if fld (w 1) 22 0 ≠ 0 ∨ (nseg ≠ 0 ∧ w 2 ≠ 0) ∨ fragReserved nseg (raw.drop 4) = true then 2
    else 0
  if r12 ≠ 0 then r12
  else if (if qs.legacy then fld (w 0) 62 59 != 0 else decide (qs.entryMax < units)) ||
      decide (qs.size < qs.slot qs.fetch + units) then 3
  else if q = 0 then 0
  else if qs.legacy then
    if op = 0 then 0
    else if nfrag < 1 ∨ 1024 < nfrag ∨ (w 2).toNat % 16 ≠ 0 then 4
    else s.lengthReason qs (fld (w 0) 22 0) len (w 3)
  else if 30 < nseg ∨ units - 1 < (nseg + 1) / 2 then 4
  else if nseg ≠ 0 ∧ fragsFit len (fragsOf nseg (raw.drop 4)) = false then 5
  else if op = 0 then 0
  else s.lengthReason qs (fld (w 0) 22 0) len (w 3)

/-- The handle checks of R270 for a TRANSFER: a status, 0 when they pass. -/
def State.handleStatus (s : State) (sl : Nat) (qs : QueueS) (h : Nat) : Nat :=
  match s.ctxOfHandle h with
  | none => stNoDevice
  | some _ =>
    let d := s.dev (h / 16)
    if d.slice.toNat ≠ sl then stNotPermitted
    else if (s.ep0 (h / 16)).port ≠ qs.port then stMismatch
    else 0

/-! ## Polling and fetching (R271 to R278) -/

/-- The fetcher works for a slice: within the window of a tick that goes on, with PD8 ON, for a slice whose work runs
and whose host is reached (R9, R36, R380, R456). -/
def State.fetches (s : State) (sl : Nat) : Bool := s.working && s.domOn 8 && s.works sl && s.reach sl

/-- A poll of a queue is due in this tick (R271, R290). -/
def State.pollDue (s : State) (qs : QueueS) : Bool :=
  qs.run && decide (qs.polled ≠ some s.tick.n) &&
    (qs.again || (decide (qs.start.toNat < s.now) && (s.now - qs.start.toNat) % max 1 qs.interval.toNat == 0))

/-- The slots that a poll reads ahead, of those whose OWN bits came back: up to the first with OWN 0, within the ring ahead
of CONS and within 16 fetched entries (R271, R272, R277). -/
def QueueS.ownRun (q : QueueS) (held : Nat) (own : List Bool) : Nat :=
  min (own.takeWhile id).length (min (16 - held) ((q.size - q.dist q.cons q.fetch) / q.entryMax))

/-- QUEUE_POLL (R271 to R277): the read of the units handed over in index mode; in ownership-bit mode the speculative read,
whose headers showed `own`, and a confirmation read of each slot given. -/
def execQueuePoll (sl : Slice) (q : QNum) (own : List Bool) (s : State) : Host.Outcome State Fault Refusal :=
  let k := qKey sl.toNat q.toNat
  let qs := s.queue k
  .next (if s.fetches sl.toNat ∧ s.pollDue qs = true then
      let at' (i : BitVec 17) : W64 := qs.base + BitVec.ofNat 64 (qs.slot i * 32)
      let held := s.fetchedIn k
      let ringRead (s : State) (n : Nat) : State :=
        let first := min n (qs.size - qs.slot qs.fetch)
        let s := if n = 0 then s else s.sendRead sl.toNat (at' qs.fetch) (first * 32)
        if first < n then s.sendRead sl.toNat qs.base ((n - first) * 32) else s
      if qs.own then
        let n := qs.ownRun held own
        let ahead := min (16 - held) ((qs.size - qs.dist qs.cons qs.fetch) / qs.entryMax)
        let seen := (List.range n).map (fun i => (qs.on qs.fetch (i * qs.entryMax)).toNat)
        let s := ringRead s (ahead * qs.entryMax)
        let s := s.forAll (fun t i => t.sendRead sl.toNat (at' (BitVec.ofNat 17 i)) (qs.entryMax * 32)) seen
        s.updQueue k (fun x => { x with polled := some s.tick.n, again := false, seen := seen })
      else
        let n := min (qs.dist qs.fetch (s.comQueue k).prod) (qs.size - qs.dist qs.cons qs.fetch)
        let s := if 16 ≤ held then s else ringRead s n
        s.updQueue k (fun x => { x with polled := some s.tick.n, again := false, seen := [] })
    else s)

/-- The entry at the fetch position may be taken: it is handed over, and the queue holds fewer than 16 (R271, R274, R277). -/
def State.mayTake (s : State) (k : Nat) (units : Nat) : Bool :=
  let qs := s.queue k
  decide (qs.polled = some s.tick.n) && decide (s.fetchedIn k < 16) &&
    (if qs.own then qs.seen.contains qs.fetch.toNat
     else decide (units ≤ qs.dist qs.fetch (s.comQueue k).prod))

/-- ENTRY_FETCHED (R270, R274, R277): the entry at the fetch position, as read; accepted, or completed with the reason
or status of its first failed check. -/
def execEntryFetched (sl : Slice) (q : QNum) (raw : List W64) (s : State) : Host.Outcome State Fault Refusal :=
  let k := qKey sl.toNat q.toNat
  let qs := s.queue k
  let w (i : Nat) : W64 := raw.getD i 0
  let units := if qs.legacy then 1 else fld (w 0) 62 59 + 1
  .next (if s.fetches sl.toNat ∧ s.mayTake k units = true then
      let nseg := fld (w 1) 31 24
      let e : Entry :=
        { pos := qs.fetch, place := qs.base + BitVec.ofNat 64 (qs.slot qs.fetch * 32), units := units, q0 := w 0, q1 := w 1, q2 := w 2, q3 := w 3, tick := s.tick.n
          frags := if qs.legacy || q == 0 then [] else if nseg = 0 then [(w 2, fld (w 1) 63 32)]
            else fragsOf nseg (raw.drop 4) }
      let reason := s.formatReason sl.toNat q.toNat qs units raw
      let s := s.updQueue k (fun x => { x with fetch := x.on x.fetch (x.stride units), entries := x.entries ++ [e] })
      if reason ≠ 0 then
        if q = 0 then s.complete sl.toNat 0 e stMalformed 0 (BitVec.ofNat 64 reason) 0 else s.malformed sl.toNat q.toNat e reason
      else if q = 0 ∨ e.op = 0 then s
      else
        let st := s.handleStatus sl.toNat qs e.handle
        if st ≠ 0 then s.endTransfer sl.toNat q.toNat e st else s
    else s)

/-! ## Writes of the queue registers (R274, R292) -/

/-- A write of QPROD (R274, R276, R292): held for the commit; ignored with BAD_DB for a queue that the slice does not hold or
that is in ownership-bit mode. -/
def State.qprodWrite (s : State) (l w q : Nat) (v : W32) : State :=
  match s.windowSlice l w with
  | some k =>
    let qs := s.comQueue (qKey k q)
    if (q = 0 ∨ qs.live = true) ∧ qs.own = false then s.windowWrite l w (0x8000 + q * 8) v
    else { s with qstat := s.qstat.upd 0 k (fun x => setBit x 1) }
  | none => s.windowWrite l w (0x8000 + q * 8) v

/-- A write of QCONS (R292): read-only; of a queue that the slice does not hold it sets BAD_DB. -/
def State.qconsWrite (s : State) (l w q : Nat) : State :=
  match s.windowSlice l w with
  | some k =>
    if q = 0 ∨ (s.comQueue (qKey k q)).live = true then s
    else { s with qstat := s.qstat.upd 0 k (fun x => setBit x 1) }
  | none => s.windowWrite l w (0x8004 + q * 8) 0

/-- QPROD_WRITE (R274, R276, R292). -/
def execQprodWrite (l : Link) (w : BitVec 4) (q : QNum) (v : W32) (s : State) : Host.Outcome State Fault Refusal :=
  .next (s.qprodWrite l.toNat w.toNat q.toNat v)

/-- ADMIN_CFG_WRITE (R292): held for the commit. -/
def execAdminCfgWrite (l : Link) (w : BitVec 4) (v : W32) (s : State) : Host.Outcome State Fault Refusal :=
  .next (s.windowWrite l.toNat w.toNat 0x0108 v)

/-- A committed write of ADMIN_CFG (R292): while RUN is 1 only RUN is taken; a start takes the fields with it and sets the
indices to 0, and a command in progress still completes; a LOG2SIZE outside 3 to 16 leaves it, an INTERVAL of 0 acts as 1. -/
def State.applyAdminCfg (s : State) (sl : Nat) (v : W32) : State :=
  let run := v.getLsbD 31
  let l2 := v.toNat % 32
  s.updQueue (qKey sl 0) (fun q =>
    let q := { q with interval := BitVec.ofNat 8 (max 1 (v.toNat / 2 ^ 16 % 256)) }
    if q.run then { q with run := run }
    else
      let q := { q with own := v.getLsbD 30, log2 := if 3 ≤ l2 ∧ l2 ≤ 16 then BitVec.ofNat 5 l2 else q.log2 }
      if run then
        { q with
          run := true, start := s.tick.n, prod := 0, cons := 0, fetch := 0, entries := [], doneAt := [], seen := []
          old := q.old ++ q.entries.filter (·.begun) }
      else q)

/-- A committed write of a half of ADMIN_BASE (R292): ignored while RUN is 1. -/
def State.applyAdminBase (s : State) (sl : Nat) (hi : Bool) (v : W32) : State :=
  s.updQueue (qKey sl 0) (fun q =>
    if q.run then q
    else if hi then { q with base := BitVec.ofNat 64 (v.toNat * 2 ^ 32 + q.base.toNat % 2 ^ 32) }
    else { q with base := BitVec.ofNat 64 (q.base.toNat / 2 ^ 32 * 2 ^ 32 + v.toNat / 4096 * 4096) })

/-- A committed write of QPROD (R273, R274), in index mode. -/
def State.applyQprod (s : State) (sl q : Nat) (v : W32) : State :=
  s.updQueue (qKey sl q) (fun x => if x.own then x else { x with prod := v.setWidth 17 })

/-! ## Operations of a transfer queue (R267) -/

/-- NOP_ENTRY (R267): a fetched NOP moves nothing and completes SUCCESS. -/
def execNopEntry (sl : Slice) (q : QNum) (pos : BitVec 17) (s : State) : Host.Outcome State Fault Refusal :=
  .next (match (s.queue (qKey sl.toNat q.toNat)).entryAt pos with
    | some e =>
      if q ≠ 0 ∧ e.op = 0 ∧ s.working = true ∧ s.works sl.toNat = true then
        s.complete sl.toNat q.toNat e stSuccess 0 (transferC2 e 0 0 0) 0
      else s
    | none => s)

/-- TRANSFER (R12, R267, R269): from the tick after its fetch the payload of an OUT transfer, or the fragment table of a
legacy entry, is to be read through the queue's channel; an entry with neither is ready. -/
def execTransfer (sl : Slice) (q : QNum) (pos : BitVec 17) (s : State) : Host.Outcome State Fault Refusal :=
  let qs := s.queue (qKey sl.toNat q.toNat)
  .next (match qs.entryAt pos with
    | some e =>
      if q ≠ 0 ∧ e.op = 1 ∧ e.begun = false ∧ e.tick.toNat < s.now ∧ s.working = true ∧ s.works sl.toNat = true then
        let n := if qs.legacy then fld e.q1 22 11 * 16
          else if s.entryIn e.handle e.q3 then 0 else e.length
        s.bothEntry sl.toNat q.toNat pos (fun x => { x with
          begun := true, toRead := n, staged := decide (n = 0), qshuf := (s.comChan qs.chan.toNat).qshuf })
      else s
    | none => s)

/-! ## Admin commands on queues (R279, R286 to R289) -/

/-- The number of queues that a slice may hold: its allowance, or for S0 what no other slice was given (R262, R357). -/
def State.queueAllowance (s : State) (sl : Nat) : Nat :=
  if sl = 0 then 4096 - (((s.slices.map (·.1)).filter (· != 0)).map (fun k => (s.slice k).res.queues)).sum
  else (s.slice sl).res.queues

/-- The segments of a port under a schedule; without a table the one weaver segment of R230. -/
def State.segsIn (s : State) (p : Nat) (x : SchedS) : Tab Seg :=
  match x.segs with
  | some t => t
  | none => [(0, { weaver := true, slice := BitVec.ofNat 6 (s.portOwner p), stop := 12000 })]

/-- The segments of a port as set. -/
def State.segsOf (s : State) (p : Nat) : Tab Seg := s.segsIn p (s.schedAt p)

/-- A port belongs to a slice (R287): by a prefix on it, by a segment, and every port to S0. -/
def State.portHeld (s : State) (sl p : Nat) : Bool :=
  sl == 0 ||
  ((s.attach.map (·.1)).any (fun k => k % 32 == p && (match s.attachAt k with
    | some e => e.1.toNat == sl
    | none => false))) ||
  (p < 16 && (s.segsOf p).any (fun g => g.2.slice.toNat == sl))

/-- The queue number is held by the slice, and is no admin queue. -/
def State.queueHeld (s : State) (sl q : Nat) : Bool := q != 0 && (s.queue (qKey sl q)).live

/-- CREATE_QUEUE (R264, R287, R289, R296). -/
def execCreateQueue (sl : Slice) (s : State) : Host.Outcome State Fault Refusal :=
  .next (s.admin sl.toNat 0x10 false (fun e s =>
    let q := fld e.q1 63 52
    let l2 := fld e.q1 51 48 + 3
    let em := fld e.q1 46 44
    let port := fld e.q1 31 27
    let c := fld e.q1 26 21
    let legacy := fbit e.q1 47
    let done (st : Nat) : State := s.adminDone sl.toNat e st
    if q = 0 then done stNotPermitted
    else if 16 < l2 ∨ 4 < em ∨ (legacy = true ∧ em ≠ 0) ∨ fld e.q1 42 35 = 0 ∨ fld e.q1 18 11 = 0 ∨ 16 < port ∨
        e.q2.toNat % 4096 ≠ 0 then done stMalformed
    else if (s.queue (qKey sl.toNat q)).live = true ∨ s.queueAllowance sl.toNat ≤ (s.queuesOf sl.toNat).length + 1 then
      done stNoResource
    else if s.chanOwner c ≠ sl.toNat ∨ s.portHeld sl.toNat port = false then done stNotPermitted
    else if (s.chan c).role ≠ .queue then s.adminDone sl.toNat e stRejected (reportC2 8 0xFF 0xFFFF) 0
    else
      (s.updQueue (qKey sl.toNat q) (fun _ => {
        live := true, legacy := legacy, entryMax := 2 ^ em, own := fbit e.q1 43
        interval := BitVec.ofNat 8 (fld e.q1 42 35), prio := BitVec.ofNat 3 (fld e.q1 34 32)
        port := BitVec.ofNat 5 port, chan := BitVec.ofNat 6 c, cev := BitVec.ofNat 2 (fld e.q1 20 19)
        errLimit := BitVec.ofNat 8 (fld e.q1 18 11), nakLimit := BitVec.ofNat 8 (fld e.q1 10 3)
        base := e.q2, log2 := BitVec.ofNat 5 l2 })).adminDone sl.toNat e stSuccess))

/-- DESTROY_QUEUE (R279, R288): in the commit of the tick in which it is executed polling stops, every fetched entry completes
WITHDRAWN, and so does a mode change that waits; the command itself completes in the next commit. -/
def execDestroyQueue (sl : Slice) (s : State) : Host.Outcome State Fault Refusal :=
  .next (s.admin sl.toNat 0x11 false (fun e s =>
    let q := fld e.q1 63 52
    if s.queueHeld sl.toNat q then
      (s.adminBegin sl.toNat e).updQueue (qKey sl.toNat q) (fun x => { x with run := false, dying := some e })
    else s.adminDone sl.toNat e stNotPermitted))

/-- The end of a queue whose DESTROY_QUEUE commits (R288): what is still fetched completes WITHDRAWN. -/
def State.destroyCommit (s : State) (k : Nat) : State :=
  let x := s.queue k
  match x.dying with
  | some e =>
    if x.live then
      let s := s.endAll (k / 4096) (k % 4096) (fun _ => some stWithdrawn)
      let s := match x.wait with
        | some w => s.adminDone (k / 4096) w.entry stWithdrawn
        | none => s
      s.updQueue k (fun _ => { dying := some e })
    else s
  | none => s

/-- The DESTROY_QUEUE whose queue ended in an earlier commit completes in this one (R288). -/
def State.destroyEnd (s : State) (k : Nat) : State :=
  match (s.comQueue k).dying with
  | some e =>
    if (s.comQueue k).live then s
    else (s.updQueue k (fun x => { x with dying := none })).adminDone (k / 4096) e stSuccess
  | none => s

/-- QUEUE_MODE (R279, R287): sets whether the queue runs; a change of mode stops it and waits for its fetched entries, without
holding the admin queue. -/
def execQueueMode (sl : Slice) (s : State) : Host.Outcome State Fault Refusal :=
  .next (s.admin sl.toNat 0x12 false (fun e s =>
    let q := fld e.q1 63 52
    let k := qKey sl.toNat q
    let own := fbit e.q1 43
    let run := fbit e.q1 42
    let x := s.queue k
    if s.queueHeld sl.toNat q = false then s.adminDone sl.toNat e stNotPermitted
    else if x.wait ≠ none then s.adminDone sl.toNat e stRejected (reportC2 8 0xFF 0xFFFF) 0
    else if x.own = own then
      (s.updQueue k (fun y => { y with
        run := run, start := if run && !y.run then s.tick.n else y.start })).adminDone sl.toNat e stSuccess
    else
      (s.adminBegin sl.toNat e).updQueue k (fun y => { y with run := false, wait := some { own := own, run := run, entry := e } })))

/-- A ring index rounded up to the next slot. -/
def QueueS.toSlot (q : QueueS) (i : BitVec 17) : BitVec 17 :=
  q.on 0 ((i.toNat + q.entryMax - 1) / q.entryMax * q.entryMax)

/-- A mode change whose queue has no fetched entry left (R279): the mode switches, the indices follow, and the waiting command
completes. -/
def State.modeSwitch (s : State) (k : Nat) : State :=
  let x := s.queue k
  match x.wait with
  | some w =>
    if x.entries = [] ∧ s.works (k / 4096) = true then
      let pos := if w.own then x.toSlot x.fetch else x.fetch
      (s.updQueue k (fun y => { y with
        own := w.own, run := w.run, wait := none, fetch := pos, cons := pos, prod := if w.own then y.prod else pos
        doneAt := [], start := if w.run then s.tick.n else y.start })).adminDone (k / 4096) w.entry stSuccess
    else s
  | none => s

/-- QUEUE_MODE_SWITCH (R279): in a tick that goes on; the commit that completes the last fetched entry does the same. -/
def execQueueModeSwitch (sl : Slice) (q : QNum) (s : State) : Host.Outcome State Fault Refusal :=
  .next (if s.working then s.modeSwitch (qKey sl.toNat q.toNat) else s)

/-- QUEUE_SET (R287, R289): INTERVAL, PRIO, CEV and the limits, the interval counted from this commit. -/
def execQueueSet (sl : Slice) (s : State) : Host.Outcome State Fault Refusal :=
  .next (s.admin sl.toNat 0x13 false (fun e s =>
    let q := fld e.q1 63 52
    if s.queueHeld sl.toNat q = false then s.adminDone sl.toNat e stNotPermitted
    else if fld e.q1 42 35 = 0 ∨ fld e.q1 18 11 = 0 then s.adminDone sl.toNat e stMalformed
    else
      (s.updQueue (qKey sl.toNat q) (fun x => { x with
        interval := BitVec.ofNat 8 (fld e.q1 42 35), prio := BitVec.ofNat 3 (fld e.q1 34 32)
        cev := BitVec.ofNat 2 (fld e.q1 20 19), errLimit := BitVec.ofNat 8 (fld e.q1 18 11)
        nakLimit := BitVec.ofNat 8 (fld e.q1 10 3), start := s.tick.n })).adminDone sl.toNat e stSuccess))

end Sys2Proof.Machine
end

