-- ==== Sys2Proof/Machine/Channels.lean ====
section
/-! DEFINITION. DMA channels (09): SET_CHANNEL, the writes of a channel's registers, bursts under the rate limiter, the
return of reads, and the ends of descriptors. -/
namespace Sys2Proof.Machine

open Sys2Proof

/-! ## SET_CHANNEL (R296) -/

/-- The role of a ROLE code (R294). -/
def roleOf (n : Nat) : Role :=
  match n with
  | 0 => .none | 1 => .queue | 2 => .copy | _ => .xport

/-- The sum of SHARE over the channels of a link whose role is not NONE, other than channel `c` (R296). -/
def State.shareOnLink (s : State) (l c : Nat) : Nat :=
  (((s.chans.map (·.1)).filter (fun k =>
    k != c && (s.chan k).role != .none && (s.slice (s.chanOwner k)).bound && (s.slice (s.chanOwner k)).link.toNat == l)).map
      (fun k => (s.chan k).share)).sum

/-- Some queue names the channel. -/
def State.queueNames (s : State) (c : Nat) : Bool :=
  (s.queues.map (·.1)).any (fun k =>
    (s.queue k).live && k % 4096 != 0 && (s.queue k).chan.toNat == c && s.chanOwner c == k / 4096)

/-- An export in progress names the channel (R296): an image that is saved or loaded, a block on its way, or a trace or raw stream that
runs or still holds data (log entry 65). -/
def State.exporting (s : State) (c : Nat) : Bool :=
  (s.chan c).job.isSome ||
    s.streams.any (fun k => let x := s.stream k.1; x.chan.toNat == c && s.chanOwner c == x.slice.toNat && (x.run || !x.held.isEmpty)) ||
    s.raws.any (fun k => k.2.chan.toNat == c && s.chanOwner c == k.1 && (k.2.run || !k.2.held.isEmpty))

/-- The parameters are out of range (R296). -/
def channelBad (role : Role) (share l2 : Nat) (qshuf : Byte) (base : W64) : Bool :=
  share == 0 || decide (64 < share) || !shufValid true qshuf ||
  (match role with
   | .none | .queue => base != 0 || l2 != 0
   | _ => decide (l2 < 4 ∨ 12 < l2) || base == 0 || base.toNat % 4096 != 0)

/-- SET_CHANNEL (R296): a change of role, base or size sets the indices to 0. A channel that takes the QUEUE role is IDLE, one
that takes another is STOPPED, as R318 restores them (log entry 65). -/
def execSetChannel (sl : Slice) (s : State) : Host.Outcome State Fault Refusal :=
  .next (s.admin sl.toNat 0x50 false (fun e s =>
    let c := fld e.q1 63 58
    let role := roleOf (fld e.q1 57 56)
    let share := fld e.q1 55 49
    let l2 := fld e.q1 48 45
    let qshuf := BitVec.ofNat 8 (fld e.q1 44 37)
    let x := s.chan c
    let moved := x.role != role || x.cqBase != e.q2 || x.cqLog2 != l2
    let total := s.shareOnLink (s.slice sl.toNat).link.toNat c + (if role = .none then 0 else share)
    if s.chanOwner c ≠ sl.toNat then s.adminDone sl.toNat e stNotPermitted
    else if channelBad role share l2 qshuf e.q2 then s.adminDone sl.toNat e stMalformed
    else if (moved && x.st != .idle && x.st != .stopped) || (x.role == .queue && role != .queue && s.queueNames c) ||
        s.exporting c then s.adminDone sl.toNat e stRejected (reportC2 8 0xFF 0xFFFF) 0
    else if 64 < total then s.adminDone sl.toNat e stNoResource
    else
      (s.updChan c (fun x =>
        let x := { x with role := role, share := share, cqLog2 := l2, qshuf := qshuf, cqBase := e.q2 }
        if moved then
          { x with prod := 0, cons := 0, st := if role = .queue then .idle else .stopped }
        else x)).adminDone sl.toNat e stSuccess))

/-! ## Writes of a channel's registers (R308, R319) -/

/-- The window offset of a register of channel `c`. -/
def chanOff (c k : Nat) : Nat := 0x4000 + c * 0x80 + k

/-- A write of a register of a channel through a window: ignored for a channel that the slice does not hold (R319). -/
def State.chanWrite (s : State) (l w c k : Nat) (v : W32) : State :=
  match s.windowSlice l w with
  | some sl => if s.chanOwner c = sl then s.windowWrite l w (chanOff c k) v else s
  | none => s.windowWrite l w (chanOff c k) v

/-- A write of CH_CTL with KILL (R311, R313): at once, and the other bits of the write are ignored (log entry 67). -/
def State.killWrite (s : State) (l w c : Nat) (v : W32) : State :=
  match s.windowSlice l w with
  | some sl => if s.chanOwner c = sl then s.killNow c else s
  | none => s.windowWrite l w (chanOff c 8) v

/-- A write of CH_CTL (R308, R313): KILL acts at once, and every other bit is held for the commit. -/
def State.ctlWrite (s : State) (l w c : Nat) (v : W32) : State :=
  if v.getLsbD 3 then s.killWrite l w c v else s.chanWrite l w c 8 v

/-- GO (R308, R313). -/
def execGo (l : Link) (w : BitVec 4) (c : Chan) (v : W32) (s : State) : Host.Outcome State Fault Refusal :=
  .next (if v.getLsbD 0 then s.ctlWrite l.toNat w.toNat c.toNat v else s)
/-- GO_CHAIN (R308, R313). -/
def execGoChain (l : Link) (w : BitVec 4) (c : Chan) (v : W32) (s : State) : Host.Outcome State Fault Refusal :=
  .next (if v.getLsbD 1 then s.ctlWrite l.toNat w.toNat c.toNat v else s)
/-- STOP (R310, R313). -/
def execStop (l : Link) (w : BitVec 4) (c : Chan) (v : W32) (s : State) : Host.Outcome State Fault Refusal :=
  .next (if v.getLsbD 2 then s.ctlWrite l.toNat w.toNat c.toNat v else s)

/-- KILL (R311, R313). -/
def execKill (l : Link) (w : BitVec 4) (c : Chan) (v : W32) (s : State) : Host.Outcome State Fault Refusal :=
  .next (if v.getLsbD 3 then s.killWrite l.toNat w.toNat c.toNat v else s)
/-- SHADOW_WRITE (R308): held for the commit. -/
def execShadowWrite (l : Link) (w : BitVec 4) (c : Chan) (k : BitVec 3) (v : W32) (s : State) :
    Host.Outcome State Fault Refusal :=
  .next (s.chanWrite l.toNat w.toNat c.toNat (0x10 + 4 * k.toNat) v)
/-- CQ_CONS_WRITE (R312): held for the commit. -/
def execCqConsWrite (l : Link) (w : BitVec 4) (c : Chan) (v : W32) (s : State) : Host.Outcome State Fault Refusal :=
  .next (s.chanWrite l.toNat w.toNat c.toNat 0x58 v)

/-! ## Reads of queue payload (R12, R269, R295) -/

/-- The address of byte `off` of a transfer's buffer, and the bytes left in its fragment. -/
def fragAt : List (W64 × Nat) → Nat → W64 × Nat
  | [], _ => (0, 0)
  | (a, n) :: t, off => if off < n then (a + BitVec.ofNat 64 off, n - off) else fragAt t (off - n)

/-- Where the next read of an entry starts, and how many bytes lie on from there. -/
def Entry.readAt (e : Entry) (legacy : Bool) : W64 × Nat :=
  let off := e.readTotal legacy - e.toRead
  if legacy && e.frags == [] then (e.q2 + BitVec.ofNat 64 off, e.toRead) else fragAt e.frags off

/-- The next read burst of an entry: its address and its length (R297). -/
def Entry.nextBurst (e : Entry) (legacy : Bool) : W64 × Nat :=
  let x := e.readAt legacy
  (x.1, burstLen x.1 (min x.2 e.toRead))

/-- What an entry reads goes into the OUT half of its port: payload, for a root port (R11, R295). -/
def Entry.toHalf (e : Entry) (q : QueueS) : Bool := decide (q.port.toNat < 16) && !(q.legacy && e.frags == [])

/-- A half of a staging buffer (R11). -/
def halfBytes : Nat := 16384

/-- Bytes requested for the next-tick OUT half of a port that have not returned. -/
def State.halfComing (s : State) (p : Nat) : Nat :=
  ((s.queues.map (·.1)).map (fun k =>
    let q := s.queue k
    if q.port.toNat = p then ((q.entries.filter (fun e => e.toHalf q)).map (·.inFlight)).sum else 0)).sum

/-- The next-tick OUT half of the port has room for the next burst of an entry (R11). -/
def State.halfRoom (s : State) (q : QueueS) (e : Entry) : Bool :=
  !e.toHalf q ||
    decide ((s.half q.port.toNat).outNext + s.halfComing q.port.toNat + (e.nextBurst q.legacy).2 ≤ halfBytes)

/-- The next entry that a QUEUE channel reads for: the lowest queue, then ring order, of those whose half has room; a channel STOPPING
takes only an entry that it is moving (R310; log entry 118). -/
def State.nextRead (s : State) (c : Nat) : Option (Nat × Entry) :=
  let stopping := (s.chan c).st == .stopping
  firstSome (fun k =>
    let q := s.queue k
    (q.entries.find? (fun e => decide (0 < e.toRead) && e.begun && (!stopping || e.reading q.legacy) && s.halfRoom q e)).map
      (fun e => (k, e))) (s.queuesThrough c)

/-- The burst split into TLPs of at most `m` bytes (R513). -/
def tlps (m : Nat) : Nat → W64 → Nat → List (W64 × Nat)
  | 0, _, _ => []
  | f + 1, a, n => if n = 0 then [] else if n ≤ m then [(a, n)] else (a, m) :: tlps m f (a + BitVec.ofNat 64 m) (n - m)

/-- Sends a read burst of a slice. -/
def State.readBurst (s : State) (sl : Nat) (a : W64) (n : Nat) : State :=
  s.forAll (fun t x => t.sendRead sl x.1 x.2) (tlps (s.link (s.comSlice sl).link.toNat).mrrs 8 a n)

/-- Sends a write burst of a slice. -/
def State.writeBurst (s : State) (sl : Nat) (a : W64) (bs : List Byte) : State :=
  s.forAll (fun t x => t.sendBytes sl x.1 ((bs.drop (x.1 - a).toNat).take x.2))
    (tlps (s.link (s.comSlice sl).link.toNat).mps 8 a bs.length)

/-- The channel's next burst in a direction may not issue before this clock (R297), under the committed share (R296). -/
def State.spaceFrom (s : State) (c : Nat) (d : Dir) (clk n : Nat) : State :=
  let sp := burstSpace n (max 1 (s.comChan c).share) (s.link (s.comSlice (s.chanOwner c)).link.toNat).rate
  s.updChanX c (fun y => match d with
    | .read => { y with nextRead := clk + sp }
    | .write => { y with nextWrite := clk + sp })

/-- A read burst of a channel: the request, its spacing and its place among the reads outstanding (R297, R298). -/
def State.chanRead (s : State) (c clk : Nat) (sl : Nat) (a : W64) (r : ReadReq) : State :=
  ((s.readBurst sl a r.n).spaceFrom c .read clk r.n).updChanX c (fun y => { y with reqs := y.reqs ++ [r] })

/-- The times of the tick at which channels issue bursts: up to cycle 12,000, and after the selvage has latched and rotated (R9, R27, R32;
log entry 117). -/
def State.burstTime (s : State) (cyc : Nat) : Bool :=
  if s.tick.selvage then decide (12100 ≤ cyc) else decide (cyc < 12000)

/-- What is owed to a slice may be issued now: its work runs, or the tick after its freeze (R380), and its host is reached. -/
def State.mayIssue (s : State) (k : Nat) : Bool := s.mayWrite k && s.reach k

/-- IN payload may be written now: through a KILLED channel nothing moves until GO (R307; log entry 67). -/
def State.mayPay (s : State) (p : Pay) : Bool :=
  s.mayIssue p.slice.toNat && (s.comChan p.chan.toNat).st != .killed && !(s.chanXAt p.chan.toNat).killNow

/-- IN payload of committed ticks that may be written now waits on the host link of channel `c`: it takes precedence over every paced
burst (R299). -/
def State.payFirst (s : State) (c : Nat) : Bool :=
  s.owedPay.any (fun p => s.mayPay p && s.boundLink p.slice.toNat == s.boundLink (s.chanOwner c))

/-- The channel works: its slice's host is reached, PD8 is ON, it was not killed in this tick, and work on it goes on under
R380: a frozen slice's channel only runs to its boundary. -/
def State.chanWorks (s : State) (c : Nat) : Bool :=
  s.domOn 8 && s.reach (s.chanOwner c) && !(s.chanXAt c).killNow && (s.works (s.chanOwner c) || (s.chan c).st == .stopping)

/-- The spacing of the last burst in a direction has passed, and at most 15 reads are outstanding (R297, R298). -/
def ChX.spaced (y : ChX) (d : Dir) (clk : Nat) : Bool :=
  match d with
  | .read => decide (y.nextRead ≤ clk) && decide (y.reqs.length < 16)
  | .write => decide (y.nextWrite ≤ clk)

/-! ## Descriptor data through the buffer (R303 to R306) -/

/-- The input byte that byte `o` of the output is, under de-interleave and re-interleave (R303). -/
def Desc.source (d : Desc) (o : Nat) : Nat :=
  match shufMode d.shuf with
  | 1 => interleavedOf (shufNch d.shuf) (shufS d.shuf) d.length o
  | 2 => planeOf (shufNch d.shuf) (shufS d.shuf) d.length o
  | _ => o

/-- Byte `o` of the output, when the buffer holds what it needs: the byte itself, or its whole block of 128 (R304). -/
def ChS.outByte (x : ChS) (d : Desc) (o : Nat) : Option Byte :=
  if x.role == .xport then x.data[o]?
  else if shufMode d.shuf = 3 then
    let blk := (List.range 128).map (fun i => x.buf.find (o / 128 * 128 + i))
    if blk.all (·.isSome) then some (transposeByte (blk.map (·.getD 0)) (o % 128)) else none
  else x.buf.find (d.source o)

/-- The bytes of the output from `o` on that are ready, up to `n`. -/
def ChS.ready (x : ChS) (d : Desc) (o n : Nat) : List Byte :=
  (((List.range n).map (fun i => x.outByte d (o + i))).takeWhile (·.isSome)).map (·.getD 0)

/-- The input bytes that nothing needs once `n` bytes of the output from `o` are written leave the buffer. -/
def ChS.consume (x : ChS) (d : Desc) (o n : Nat) : Tab Byte :=
  if shufMode d.shuf = 3 then x.buf.filter (fun b => decide ((o + n) / 128 * 128 ≤ b.1))
  else
    let gone := (List.range n).map (fun i => d.source (o + i))
    x.buf.filter (fun b => !gone.contains b.1)

/-- The plane that goes on next: the one of which least is done, the lowest of these (log entry 118); none when all are whole. -/
def leastPlane (l : List Nat) (size : Nat) : Option Nat :=
  match ((List.range l.length).filter (fun k => decide (l.getD k 0 < size))) with
  | [] => none
  | k :: t => some (t.foldl (fun m j => if l.getD j 0 < l.getD m 0 then j else m) k)

/-- The bytes of the channel's buffer that are held or on their way (R306). -/
def State.bufUsed (s : State) (c : Nat) : Nat :=
  (s.chan c).buf.length + (((s.chanXAt c).reqs.filter (fun r => !r.stale && r.fetch.isNone)).map (·.n)).sum

/-- The size of a channel's reshuffle buffer (R306). -/
def bufBytes : Nat := 16384

/-- Where the reading of a descriptor's source ends: an import that has read its header reads to the end of the image (R383, R386). -/
def ChS.readEnd (x : ChS) (d : Desc) : Nat :=
  if x.role = .xport ∧ 32 ≤ x.data.length then min d.length (112 + leAt x.data 24 8) else d.length

/-- A read burst of an active descriptor: COPY reads ahead as far as its buffer has room, an import reads on (R306, R386). -/
def State.descRead (s : State) (c clk : Nat) (d : Desc) : State :=
  let x := s.chan c
  let size := x.readEnd d / d.inPlanes
  match leastPlane x.read size with
  | some k =>
    let off := k * size + x.read.getD k 0
    let a := d.w0 + BitVec.ofNat 64 off
    let n := burstLen a (size - x.read.getD k 0)
    if x.failed = false ∧ (x.role = .xport ∨ s.bufUsed c + n ≤ bufBytes) then
      (s.chanRead c clk (s.chanOwner c) a { lane := k, off := off, n := n }).updChan c (fun x => { x with
        read := x.read.set k (x.read.getD k 0 + n) })
    else s
  | none => s

/-- The plane that is written next: the one of which least is written, or, after a failed read, the first of which something is ready. -/
def ChS.writePlane (x : ChS) (d : Desc) : Option Nat :=
  let size := d.length / d.outPlanes
  if x.failed then
    (List.range x.wrote.length).find? (fun k =>
      decide (x.wrote.getD k 0 < size) && (x.outByte d (k * size + x.wrote.getD k 0)).isSome)
  else leastPlane x.wrote size

/-- A write burst of an active descriptor: whole, but for what a failed read leaves of it (R297, R315). -/
def State.descWrite (s : State) (c clk : Nat) (d : Desc) : State :=
  let x := s.chan c
  let size := d.length / d.outPlanes
  match x.writePlane d with
  | some k =>
    let o := k * size + x.wrote.getD k 0
    let a := d.w1 + BitVec.ofNat 64 o
    let n := burstLen a (size - x.wrote.getD k 0)
    let bs := x.ready d o n
    if bs ≠ [] ∧ (bs.length = n ∨ x.failed = true) then
      ((s.writeBurst (s.chanOwner c) a bs).updChan c (fun x => { x with
        done := x.done + BitVec.ofNat 32 bs.length, wrote := x.wrote.set k (x.wrote.getD k 0 + bs.length)
        buf := x.consume d o bs.length })).spaceFrom c .write clk bs.length
    else s
  | none => s

/-- The channel reads from the host in EXPORT role: it loads an image (R386). -/
def ChS.loads (x : ChS) : Bool :=
  match x.job with
  | some (.load _) => true
  | _ => false

/-- The address from which the channel fetches a descriptor now: that of its chain, else the active descriptor's NEXT while the shadow is
not armed (R308, R309). -/
def ChS.fetchAt (x : ChS) : Option W64 :=
  if x.role == .none || x.role == .queue || x.st == .killed then none
  else match x.chain with
  | some a => some a
  | none =>
    match x.active with
    | some d => if d.next != 0 && !x.armed && !x.chainFail then some d.next else none
    | none => none

/-- A fetch of the channel is on its way. -/
def ChX.fetching (y : ChX) : Bool := y.reqs.any (fun r => r.fetch.isSome && !r.stale)

/-- A read burst of a QUEUE channel for an entry of a queue (R12, R269). -/
def State.entryBurst (s : State) (c clk k : Nat) (e : Entry) : State :=
  let b := e.nextBurst (s.queue k).legacy
  let s := s.chanRead c clk (k / 4096) b.1 { q := BitVec.ofNat 12 (k % 4096), pos := e.pos, n := b.2 }
  let s := s.bothEntry (k / 4096) (k % 4096) e.pos (fun e => { e with toRead := e.toRead - b.2, inFlight := e.inFlight + b.2 })
  s.updChan c (fun x => { x with st := if x.st = .idle then .running else x.st })

/-- BURST_ISSUE (R295, R297 to R299, R309, R310): once its spacing has passed, a channel issues its next burst in a direction, at most 16
reads outstanding; a QUEUE channel reads for its queues, another fetches a descriptor that its chain needs, reads its source and writes
its destination (log entries 66, 118). -/
def execBurstIssue (c : Chan) (d : Dir) (cyc : Cycle) (s : State) : Host.Outcome State Fault Refusal :=
  let k := c.toNat
  let x := s.chan k
  let clk := s.clockAt cyc
  .next (if s.burstTime cyc.toNat && s.chanWorks k && !s.payFirst k && (s.chanXAt k).spaced d clk then
      match x.role with
      | .none => s
      | .queue =>
        if d = .read ∧ (x.st = .idle ∨ x.st = .running ∨ x.st = .stopping) then
          match s.nextRead k with
          | some (qk, e) => s.entryBurst k clk qk e
          | none => s
        else s
      | role =>
        match d, (if (s.chanXAt k).fetching then none else x.fetchAt) with
        | .read, some a => s.chanRead k clk (s.chanOwner k) a { fetch := some a, n := 32 }
        | _, _ =>
          match x.active with
          | some a =>
            if x.st = .running ∨ x.st = .stopping then
              match d with
              | .read => if role = .copy ∨ x.loads = true then s.descRead k clk a else s
              | .write => if x.loads then s else s.descWrite k clk a
            else s
          | none => s
    else s)

/-! ## The return of reads (R12, R269, R298, R315) -/

/-- What an OUT payload read from the owner's buffer is on the wire under QSHUF (R302, R305): planes are re-interleaved, and
EP0 is never reshuffled. -/
def outPayload (qshuf : Byte) (ep len : Nat) (bs : List Byte) : List Byte :=
  if ep = 0 then bs
  else match shufMode qshuf with
    | 0 => bs
    | 1 => (List.range len).map (fun k => bs.getD (planeOf (shufNch qshuf) (shufS qshuf) len k) 0)
    | _ => (List.range len).map (transposeByte bs)

/-- The fragments in a legacy table (R268). -/
def tableFrags : Nat → List Byte → List (W64 × Nat)
  | 0, _ => []
  | n + 1, bs => (BitVec.ofNat 64 (leAt bs 0 8), leAt bs 12 4) :: tableFrags n (bs.drop 16)

/-- Some fragment of a table has a nonzero reserved field (R266, R270 reason 0x02; log entry 64). -/
def tableReserved (n : Nat) (bs : List Byte) : Bool := (List.range n).any (fun i => leAt bs (16 * i + 8) 4 != 0)

/-- The bytes that a channel reads for an entry are all there (R12, R269): the fragment table is checked and the payload's
reading begins, or the payload is staged in the OUT half for the next tick (log entries 64, 85). -/
def State.readDone (s : State) (sl q : Nat) (e : Entry) : State :=
  let qs := s.queue (qKey sl q)
  if qs.legacy && e.frags == [] then
    let n := fld e.q1 22 11
    let fs := tableFrags n e.data
    if tableReserved n e.data then s.malformed sl q e 2
    else if fragsFit e.length fs then
      let out := !s.entryIn e.handle e.q3
      s.bothEntry sl q e.pos (fun x => { x with
        frags := fs, data := [], toRead := if out then e.length else 0, staged := !out || decide (e.length = 0) })
    else s.malformed sl q e 5
  else
    s.bothEntry sl q e.pos (fun x => { x with
      staged := true, data := outPayload e.qshuf (e.handle % 16) e.length e.data })

/-- A QUEUE channel that moves nothing leaves RUNNING, or STOPPING for STOPPED (R307, R310). -/
def State.chanRest (s : State) (c : Nat) : State :=
  if s.chanMoving c then s
  else match (s.chan c).st with
    | .running => s.updChan c (fun x => { x with st := .idle })
    | .stopping => s.chanStopped c
    | _ => s

/-- Bytes return for the oldest outstanding read that a test selects: the read, and what is still outstanding. -/
def takeReq (f : ReadReq → Bool) (n : Nat) : List ReadReq → Option (ReadReq × List ReadReq)
  | [] => none
  | r :: t =>
    if f r then some (r, if r.n ≤ n then t else { r with off := r.off + n, n := r.n - n } :: t)
    else (takeReq f n t).map (fun x => (x.1, r :: x.2))

/-- Bytes read for a fetched entry, placed in order (R12, R269). -/
def State.entryBytes (s : State) (c sl q : Nat) (pos : BitVec 17) (bs : List Byte) : State :=
  let qs := s.queue (qKey sl q)
  match qs.entryAt pos with
  | some e =>
    let s := if e.toHalf qs then s.updHalf qs.port.toNat (fun h => { h with outNext := h.outNext + bs.length }) else s
    let e := { e with data := e.data ++ bs, inFlight := e.inFlight - bs.length }
    let s := s.bothEntry sl q pos (fun x => { x with data := e.data, inFlight := e.inFlight })
    (if e.inFlight = 0 ∧ e.toRead = 0 then s.readDone sl q e else s).chanRest c
  | none => s

/-- The outputs that an input byte belongs to have not been written yet. -/
def ChS.wanted (x : ChS) (d : Desc) (i : Nat) : Bool :=
  let o := match shufMode d.shuf with
    | 1 => planeOf (shufNch d.shuf) (shufS d.shuf) d.length i
    | 2 => interleavedOf (shufNch d.shuf) (shufS d.shuf) d.length i
    | 3 => i / 128 * 128 + 127
    | _ => i
  let size := d.length / d.outPlanes
  decide (x.wrote.getD (o / max 1 size) 0 ≤ o % max 1 size)

/-- Bytes read of a descriptor's source: an import keeps them all, COPY those that it has yet to write. -/
def ChS.take (x : ChS) (d : Desc) (off : Nat) (bs : List Byte) : ChS :=
  if x.role == .xport then { x with data := x.data ++ bs }
  else { x with buf := ((List.range bs.length).filter (fun i => x.wanted d (off + i))).foldl (fun t i =>
    Tab.set t (off + i) (bs.getD i 0)) x.buf }

/-- The read that a return is for: on a QUEUE channel one of the entry named, on another the oldest of its data. -/
def readMatch (role : Role) (q : QNum) (pos : BitVec 17) (r : ReadReq) : Bool :=
  r.fetch.isNone && (role != .queue || (r.q == q && r.pos == pos))

/-- DMA_READ_COMPLETION (R12, R269, R298): data of the oldest request outstanding, placed in order; what nothing wants is discarded. -/
def execDmaReadCompletion (c : Chan) (q : QNum) (pos : BitVec 17) (data : List Byte) (s : State) :
    Host.Outcome State Fault Refusal :=
  let k := c.toNat
  let x := s.chan k
  .next (match takeReq (readMatch x.role q pos) data.length (s.chanXAt k).reqs with
    | some (r, rest) =>
      let s := s.updChanX k (fun y => { y with reqs := rest })
      let bs := data.take r.n
      if r.stale then s
      else match x.role with
        | .none => s
        | .queue => s.entryBytes k (s.chanOwner k) q.toNat pos bs
        | _ =>
          match x.active with
          | some d => s.updChan k (fun x => x.take d r.off bs)
          | none => s
    | none => s)

/-- A read of a slice's channel failed (R315, R511, R514). -/
def State.readFailed (s : State) (c : Nat) : State :=
  let l := (s.comSlice (s.chanOwner c)).link.toNat
  ((s.linkErr l 4).emit (.aer (BitVec.ofNat 2 l) 4)).chanEvent c 2

/-- DMA_READ_ERROR (R313, R315, R511, R514): the descriptor reads nothing more, and ends READ_ERROR once what was read before is written;
in QUEUE role the entry completes XFER_ERROR with OUTCOME 0xF. -/
def execDmaReadError (c : Chan) (q : QNum) (pos : BitVec 17) (_err : ReadError) (s : State) :
    Host.Outcome State Fault Refusal :=
  let k := c.toNat
  let x := s.chan k
  .next (match takeReq (readMatch x.role q pos) (2 ^ 32) (s.chanXAt k).reqs with
    | some (r, rest) =>
      let s := (s.updChanX k (fun y => { y with reqs := rest })).readFailed k
      if r.stale then s
      else match x.role with
        | .none => s
        | .queue =>
          let sl := s.chanOwner k
          match (s.queue (qKey sl q.toNat)).entryAt pos with
          | some e => (s.endTransfer sl q.toNat { e with outcome := 0xF } stXferError).chanRest k
          | none => s
        | _ =>
          (s.updChan k (fun x => { x with failed := true })).updChanX k (ChX.forget (fun r => r.fetch.isNone))
    | none => s)

/-! ## Chains and ends (R308 to R314) -/

/-- CHAIN_FETCH (R308, R309, R315): the descriptor that was requested returns: into the shadow set, ARMED, or it starts where nothing is
active. A failed fetch ends the chain with CHAIN_ERROR once the active descriptor has ended (log entry 118). -/
def execChainFetch (c : Chan) (d : Option (List W64)) (s : State) : Host.Outcome State Fault Refusal :=
  let k := c.toNat
  .next (match takeReq (·.fetch.isSome) 32 (s.chanXAt k).reqs with
    | some (r, rest) =>
      let s := s.updChanX k (fun y => { y with reqs := rest })
      let s := if d.isNone then s.readFailed k else s
      if r.stale then s
      else
        match d with
        | some ws =>
          let new : Desc :=
            { w0 := ws.getD 0 0, w1 := ws.getD 1 0, w2 := ws.getD 2 0, w3 := ws.getD 3 0, addr := r.fetch.getD 0 }
          let s := s.updChan k (fun x => { x with shadow := new, chain := none })
          if (s.chan k).active.isSome then s.updChan k (fun x => { x with armed := true }) else s.startShadow k
        | none =>
          let s := s.updChan k (fun x => { x with chain := none, chainFail := true })
          if (s.chan k).active.isSome then s else s.boundary k 0
    | none => s)

/-- The active descriptor has ended (R314, R315): its last write is issued, or a read failed and nothing that was read is left to write. -/
def ChS.finished (x : ChS) (d : Desc) : Bool :=
  decide (x.st = .running ∨ x.st = .stopping) &&
    (if x.loads then x.failed else x.done.toNat == d.length || (x.failed && (x.writePlane d).isNone))

/-- The end of the active descriptor (R312 to R315): its record is owed, and the channel is at a boundary, STOPPED after a failed read. -/
def State.descEnd (s : State) (c : Nat) : State :=
  let x := s.chan c
  match x.active with
  | some d =>
    if x.finished d then
      if x.loads = false ∧ x.done.toNat = d.length then
        (s.updChan c (fun x => { x.endWith s.workTick d .done d.length with job := none })).boundary c (if x.role = .xport then 0 else d.next)
      else (s.updChan c (fun x => { x.endWith s.workTick d .readError (if x.loads then x.data.length else x.done.toNat) with job := none })).chanStopped c
    else s
  | none => s

/-- DESCRIPTOR_END (R312 to R315): an import ends by its own check (R386; log entry 66). -/
def execDescriptorEnd (c : Chan) (s : State) : Host.Outcome State Fault Refusal := .next (s.descEnd c.toNat)

/-- A channel at a commit: a descriptor whose last write was issued in the tick ends in it (R314); a KILL takes the channel's state
(R311); it leaves PAUSED when there is room, to start with the next tick (R312, R313); a STOP of a PAUSED channel ends when its owed
records are written (R310). -/
def State.commitChan (s : State) (c : Nat) : State :=
  let s := s.descEnd c
  let x := s.chan c
  if (s.chanXAt c).killNow then s.commitKill c
  else if x.st = .paused then
    if s.cqRoom c then s.updChan c (fun x => { x with st := .running, armed := false, starts := true })
    else if (s.comChan c).st = .paused then s else s.chanEvent c 1
  else if x.st = .stopping ∧ x.active = Option.none ∧ x.role ≠ .queue ∧ x.starts = false ∧ s.recsOwed c = 0 then s.chanStopped c
  else s

/-- Where the reads of each plane begin again after an abandon: at the first byte that some output still needs (R314). -/
def ChS.restart (x : ChS) (d : Desc) : List Nat :=
  let nch := shufNch d.shuf
  let sz := shufS d.shuf
  let w := x.wrote.getD 0 0
  match shufMode d.shuf with
  | 1 =>
    let p := d.length / nch
    [(List.range nch).foldl (fun m k =>
      let y := x.wrote.getD k 0
      if y < p then min m (y / sz * (nch * sz) + k * sz + y % sz) else m) d.length]
  | 2 => (List.range nch).map (fun k => w / (nch * sz) * sz + min sz (w % (nch * sz) - k * sz))
  | 3 => [w / 128 * 128]
  | _ => [w]

/-- What an abandoned tick leaves of a channel's reads (R314): those of descriptors are made again from the committed position; those for
queues go on (R11). -/
def State.abandonChan (s : State) (c : Nat) : State :=
  if (s.chan c).role = .queue then s
  else
    (s.bothChan c (fun x => match x.active with
      | some d => { x with
          read := if x.role == .xport then [x.data.length] else x.restart d
          buf := [], data := x.data, failed := false }
      | none => x)).updChanX c (ChX.forget (fun _ => true))

/-- A fragment table whose check failed in an abandoned tick is read again. -/
def Entry.reread (legacy : Bool) (e : Entry) : Entry :=
  if legacy && e.begun && !e.staged && e.frags == [] && e.toRead == 0 && e.inFlight == 0 then
    { e with begun := false, data := [] } else e

/-- What an abandoned tick leaves of a queue's entries. -/
def State.abandonEntries (s : State) (k : Nat) : State :=
  { s with queues := s.queues.set k ((s.queues.get (.of {}) k).both (fun x => { x with entries := x.entries.map (Entry.reread x.legacy) })) }

/-! ## Exports (R294) -/

/-- The module starts an export of `bs` to an address as one descriptor (R351, R385, R489), when the channel's completion queue has room
(log entry 66). -/
def State.startExport (s : State) (c : Nat) (job : Export) (dst : W64) (tag : Nat) (bs : List Byte) : State :=
  s.updChan c (fun x => { x with
    job := some job, st := .running, done := 0, read := [0], wrote := [0], buf := [], data := bs, failed := false
    active := some { w0 := 0, w1 := dst, w2 := BitVec.ofNat 64 (bs.length * 2 ^ 32 + tag * 2 ^ 16), w3 := 0, addr := 0 } })

/-- An export stream may start its next block on the channel now (log entries 54, 66). -/
def State.exportFree (s : State) (c : Nat) : Bool :=
  let x := s.chan c
  x.role == .xport && x.st == .idle && x.active.isNone && s.cqRoom c && !(s.chanXAt c).killNow

end Sys2Proof.Machine
end

