-- ==== Sys2Proof/Machine/LinkLayer.lean ====
section
/-! DEFINITION. The link layer of the root ports (03): presence, reset and chirp, suspend, resume and wake, surges, and
the commands of LINK_CTL. -/
namespace Sys2Proof.Machine

open Sys2Proof

/-- A line reads high above 2.0 V, low below 0.8 V, and as before in between (R77). -/
def readLine (prev : Bool) : Level → Bool
  | .low => false
  | .mid => prev
  | .high => true

/-- The decode of a presence sample (R77). -/
def decodePresence (a b : Bool) : Presence :=
  match a, b with
  | false, false => .absent
  | true, false => .field
  | false, true => .plant
  | true, true => .invalid

/-- What a presence sample does to a port (R76 to R79, R86): the sample is recorded, and in DETACHED, DEBOUNCE and INVALID
it moves the port and its count; elsewhere it counts absent samples. DB_COUNT stands still in the other states, and is 0 after a switch-off
and in DETACHED (log entry 124). -/
def PortL.sample (now : BitVec 48) (a b : Level) (x : PortL) : PortL :=
  let pa := readLine x.presA a
  let pb := readLine x.presB b
  let d := decodePresence pa pb
  let x := { x with presA := pa, presB := pb }
  match x.st with
  | .detached => if d = .absent then x else { x with st := .debounce, since := now, dbCount := 1, decode := d }
  | .debounce =>
    if d = .absent then { x with st := .detached, since := now, dbCount := 0, decode := .absent }
    else if d = x.decode then { x with dbCount := if x.dbCount.toNat < 800 then x.dbCount + 1 else x.dbCount }
    else { x with dbCount := 1, decode := d }
  | _ => { x with absent := if d = .absent then x.absent + 1 else 0 }

/-- DEBOUNCE_ENTER (R77, R78): the presence sample of cycle 0. -/
def execDebounceEnter (p : Port) (a b : Level) (s : State) : Host.Outcome State Fault Refusal :=
  .next (s.updPort p.toNat (PortL.sample s.tick.n a b))

/-- The supply lets presence lead to POWERING: not in HOLDUP or LAST_GASP (R452). -/
def State.supplyPowers (s : State) : Bool := decide (s.supply.st = .normal ∨ s.supply.st = .start)

/-- PRESENCE_DECLARED (R78, R422): after 800 matching samples the port moves to POWERING, to FAULT with OFF_CMD when PORT_ON
is 0, or to INVALID. In HOLDUP and LAST_GASP presence of a device is declared only after MAINS_BACK, until when the port stays in DEBOUNCE
(R452; log entry 125). -/
def execPresenceDeclared (p : Port) (s : State) : Host.Outcome State Fault Refusal :=
  let k := p.toNat
  let x := s.port k
  .next (
    if x.st = .debounce ∧ x.dbCount.toNat = 800 then
      if x.decode = .invalid then
        (s.updPort k (fun x => { x with st := .invalid, since := s.tick.n, declared := .invalid, absent := 0 })).linkEvent k 2
      else if s.supplyPowers then
        let s := (s.updPort k (fun x => { x with declared := x.decode, speed := x.decode.speed })).linkEvent k 0
        let clk := s.now * 12500
        let s := (s.wakeRet (frontDom k) 3 clk).wakeRet (loomDom k) 3 clk
        if (s.comPSet k).on then (s.wakeRet 12 3 clk).portTo k .powering
        else (s.updFuse k (fun f => { f with cause := .offCmd, st := .off })).portTo k .fault
      else s
    else s)

/-- INVALID_RETURN (R79). -/
def execInvalidReturn (p : Port) (s : State) : Host.Outcome State Fault Refusal :=
  .next (if (s.port p.toNat).st = .invalid ∧ 800 ≤ (s.port p.toNat).absent then s.portDetached p.toNat else s)

/-- PWR_WAIT in ticks: values below 16 act as 16 (R80, R103). -/
def PortL.waitTicks (x : PortL) : Nat := max 16 x.pwrWait.toNat

/-- `n` ticks have passed since the port entered its state, and no detach has stopped it (R88). -/
def State.portDue (s : State) (p n : Nat) : Bool := decide ((s.port p).since.toNat + n ≤ s.now) && !(s.port p).gone

/-- PWR_WAIT_END (R80, R82): the first reset begins. -/
def execPwrWaitEnd (p : Port) (s : State) : Host.Outcome State Fault Refusal :=
  let k := p.toNat
  .next (if (s.port k).st = .powerWait ∧ s.portDue k (s.port k).waitTicks ∧ s.frontOn k then s.startReset k else s)

/-- RST_PHASE_END (R82): electrical idle from tick r + 16. -/
def execRstPhaseEnd (p : Port) (s : State) : Host.Outcome State Fault Refusal :=
  let k := p.toNat
  .next (if (s.port k).st = .resetting ∧ (s.port k).rstDone = false ∧ s.portDue k 16 then
      (s.updPort k (fun x => { x with rstDone := true })).emit (.line p .idle)
    else s)

/-- CHIRP_D_RECOGNISED (R83, R84): in the chirp window of a Plant attach, lock held for 200 µs is answered when CAB_EN is 1 and
selects Cabinet; comma activity without lock raises CHIRP_FAIL. -/
def execChirpDRecognised (p : Port) (held : Bool) (s : State) : Host.Outcome State Fault Refusal :=
  let k := p.toNat
  let x := s.port k
  .next (if x.st = .resetting ∧ x.rstDone = true ∧ x.chirp = .none ∧ x.declared = .plant ∧ s.now < x.since.toNat + 32 then
      if held then
        if x.cabEn then
          ((s.updPort k (fun x => { x with chirp := .answered, speed := .cabinet })).linkEvent k 4).emit (.line p .chirpH)
        else s
      else (s.updPort k (fun x => { x with chirp := .failed })).linkEvent k 5
    else s)

/-- RESET_END (R82): line activity at the selected speed, and RECOVERY. -/
def execResetEnd (p : Port) (s : State) : Host.Outcome State Fault Refusal :=
  let k := p.toNat
  .next (if (s.port k).st = .resetting ∧ s.portDue k 80 then (s.portTo k .recovery).emit (.line p .activity) else s)

/-- RECOVERY_END (R82, R92): ACTIVE 16 ticks after line activity began. -/
def execRecoveryEnd (p : Port) (s : State) : Host.Outcome State Fault Refusal :=
  let k := p.toNat
  .next (if (s.port k).st = .recovery ∧ s.portDue k 16 then
      (s.portTo k .active).linkEvent k (if (s.port k).afterReset then 3 else 7)
    else s)

/-- The states in which a detach is recognised: the port is powered and past its ramp (R86, R88, R437). -/
def PState.attached : PState → Bool
  | .powerWait | .resetting | .recovery | .active | .suspending | .suspended | .resuming => true
  | _ => false

/-- DETACH (R86, R87, R88): presence lost for 32 samples at Plant or Cabinet speed, or undercurrent for 160 ticks. It is recorded at
once and stops signalling in progress; the power command and the move to DETACHED are carried out by the next commit (R72). -/
def execDetach (p : Port) (s : State) : Host.Outcome State Fault Refusal :=
  let k := p.toNat
  let x := s.port k
  .next (if x.st.attached = true ∧ x.gone = false ∧ ((32 ≤ x.absent ∧ x.declared ≠ .field) ∨ 160 ≤ x.under) then
      let s := (s.updPort k (fun x => { x with gone := true })).linkEvent k 1
      if x.st = .resetting ∨ x.st = .recovery ∨ x.st = .resuming then s.emit (.line p .idle) else s
    else s)

/-- The commit carries out a detach (R72, R87): the port's power goes off, and it returns to DETACHED. -/
def State.commitGone (s : State) (k : Nat) : State :=
  let s := s.updFuse k (fun f => { f with
    gate := false, pg := false, limiting := false, st := .off, offAt := s.now * 12500 + 12033, poweredAt := none })
  (s.portDetached k).updPort k (fun x => { x with gone := false, detachNow := true })

/-- LINK_RESET (R82, R103): the write is held for the commit. -/
def execLinkReset (l : Link) (p : Port) (v : W32) (s : State) : Host.Outcome State Fault Refusal :=
  .next (if v.getLsbD 0 then s.guardedWrite l.toNat (linkCtlAddr p.toNat) v else s)
/-- LINK_SUSPEND (R90, R103). -/
def execLinkSuspend (l : Link) (p : Port) (v : W32) (s : State) : Host.Outcome State Fault Refusal :=
  .next (if v.getLsbD 1 then s.guardedWrite l.toNat (linkCtlAddr p.toNat) v else s)
/-- LINK_RESUME (R91, R103). -/
def execLinkResume (l : Link) (p : Port) (v : W32) (s : State) : Host.Outcome State Fault Refusal :=
  .next (if v.getLsbD 2 then s.guardedWrite l.toNat (linkCtlAddr p.toNat) v else s)
/-- LINK_DISABLE (R103). -/
def execLinkDisable (l : Link) (p : Port) (v : W32) (s : State) : Host.Outcome State Fault Refusal :=
  .next (if v.getLsbD 5 then s.guardedWrite l.toNat (linkCtlAddr p.toNat) v else s)
/-- LINK_ENABLE (R103). -/
def execLinkEnable (l : Link) (p : Port) (v : W32) (s : State) : Host.Outcome State Fault Refusal :=
  .next (if v.getLsbD 5 then s else s.guardedWrite l.toNat (linkCtlAddr p.toNat) v)

/-- SUSPEND_COMPLETE (R90): at tick s + 28, 27 ticks after SUSPENDING began. -/
def execSuspendComplete (p : Port) (s : State) : Host.Outcome State Fault Refusal :=
  let k := p.toNat
  .next (if (s.port k).st = .suspending ∧ s.portDue k 27 then (s.portTo k .suspended).linkEvent k 6 else s)

/-- RSM_END (R92): after 80 ticks of RSM, line activity and RECOVERY. -/
def execRsmEnd (p : Port) (s : State) : Host.Outcome State Fault Refusal :=
  let k := p.toNat
  .next (if (s.port k).st = .resuming ∧ (s.port k).accepted = none ∧ s.portDue k 80 then
      (s.portTo k .recovery).emit (.line p .activity)
    else s)

/-- WKP (R94 to R96): on a SUSPENDED port it is stamped and recorded, wakes the front-end domain, and is answered or
ignored by WAKE_EN; seen while RSM of a host resume begins, it makes the cause BOTH. -/
def execWkp (p : Port) (cyc : Cycle) (s : State) : Host.Outcome State Fault Refusal :=
  let k := p.toNat
  let x := s.port k
  let seen := (s.updPort k (fun x => { x with wakeStamp := s.now32 })).linkEvent k 8
  .next (match x.st with
    | .suspended =>
      let t := (seen.wakeRet (frontDom k) 3 (s.clockAt cyc)).wakeRet (loomDom k) 3 (s.clockAt cyc)
      if x.wakeEn then t.updPort k (fun x => { x with wkp := true }) else t.linkEvent k 9
    | .resuming =>
      if x.cause = .host ∧ (x.accepted ≠ none ∨ s.now < x.since.toNat + 8) then
        seen.updPort k (fun x => { x with cause := .both })
      else s
    | _ => s)

/-- SURGE (R8, R98, R528): the front end records an excursion above 200 V and blanks its receiver, and the line probe counts it; a
line-probe measurement in hand ends NOISY and an insulation half-period is discarded (R525, R527; log entry 78). A front end or a line
probe whose domain is not ON does nothing (R456). -/
def execSurge (p : Port) (peak : W16) (cyc : Cycle) (s : State) : Host.Outcome State Fault Refusal :=
  let k := p.toNat
  .next (if 200 < peak.toNat && s.frontOn k then
      let s := (s.linkEvent k 10).updPort k (PortL.blank (s.clockAt cyc))
      if s.domOn 10 then
        (s.surgeSeen k (if 4000 < peak.toNat then 4000 else peak)).updProbe k (fun x => { x with irHalf := true })
      else s
    else s)

/-- RX_RELOCK (R99): a blanked receiver at Plant or Cabinet speed regains lock. -/
def execRxRelock (p : Port) (s : State) : Host.Outcome State Fault Refusal :=
  let x := s.port p.toNat
  .next (if x.relock = true ∧ (x.speed = .plant ∨ x.speed = .cabinet) then
      (s.updPort p.toNat (fun x => { x with relock := false, rxRelock := satInc x.rxRelock })).countLine p.toNat 0x11
    else s)

/-- CODE_VIOLATION (R103): CODE_ERR and its count. -/
def execCodeViolation (p : Port) (s : State) : Host.Outcome State Fault Refusal :=
  .next (((s.updPort p.toNat (fun x => { x with codeViol := satInc x.codeViol })).linkEvent p.toNat 11).countLine p.toNat 0x10)

/-! ## At a tick's beginning and at a commit -/

/-- What a port keeps of the line at cycle 0: the surges that still blank it (R98), and whether its frame has had a packet (R64). -/
def PortL.lineAt0 (now : Nat) (x : PortL) : PortL :=
  { x with blanks := x.blanks.filter (fun t => decide (now * 12500 < t + 200)), sent := x.sent && decide (now % 8 ≠ 0) }

/-- At cycle 0 the signalling of a command committed in the tick before begins, once the front end is ON (R73, R90, R91,
R95). -/
def State.beginPort (s : State) (k : Nat) : State :=
  let s := s.updPort k (PortL.lineAt0 s.now)
  if s.frontOn k && !(s.port k).gone then
    match (s.port k).accepted with
    | some .reset => (s.updPort k (fun x => { x with accepted := none })).startReset k
    | some .suspend =>
      ((s.updPort k (fun x => { x with accepted := none })).portTo k .suspending).emit (.line (BitVec.ofNat 4 k) .idle)
    | some .resume =>
      let s := s.updPort k (fun x => { x with accepted := none })
      if (s.port k).st = .suspending then
        (((s.updPort k (fun x => { x with afterReset := false })).portTo k .active).linkEvent k 7).emit
          (.line (BitVec.ofNat 4 k) .activity)
      else s.startRsm k
    | _ => s
  else s

/-- RSM for a recognised WKP has not begun, although its resume is committed (R96 item 2). -/
def PortL.wakeWaits (x : PortL) : Bool := decide (x.st = .resuming ∧ x.accepted = some .resume ∧ x.cause = .device)

/-- The command applies to a port in its state (R75); a resume also to one that has not begun to answer its device's wake (R96). -/
def PCmd.applies (x : PortL) : PCmd → Bool
  | .reset => decide (x.st = .powerWait ∨ x.st = .recovery ∨ x.st = .active ∨ x.st = .suspending ∨ x.st = .suspended)
  | .suspend => decide (x.st = .active)
  | .resume => decide (x.st = .suspending ∨ x.st = .suspended) || x.wakeWaits
  | .enable => decide (x.st = .disabled)
  | .disable => decide (x.st ≠ .disabled)

/-- The precedence of R75, lowest number first. -/
def PCmd.rank : PCmd → Nat
  | .disable => 0 | .reset => 1 | .resume => 2 | .suspend => 3 | .enable => 4

/-- The command of highest precedence. -/
def topCmd : List PCmd → Option PCmd
  | [] => none
  | c :: t => match topCmd t with
    | some d => if c.rank ≤ d.rank then some c else some d
    | none => some c

/-- The commands of the last writing of each slice (R75). -/
def lastBySlice : List (Nat × List PCmd) → List PCmd
  | [] => []
  | c :: t => if t.any (fun d => d.1 == c.1) then lastBySlice t else c.2 ++ lastBySlice t

/-- What the slices have written to a port in a tick, in order (R75): the write of LINK_CTL is one writing of the warden slice, at its
arrival among the commands of bus instructions. -/
def PortL.writings (x : PortL) : List (Nat × List PCmd) :=
  let one (c : Nat × PCmd) : Nat × List PCmd := (c.1, [c.2])
  (x.cmds.take x.hostAt).map one ++ (if x.hostCmds = [] then [] else [(0, x.hostCmds)]) ++ (x.cmds.drop x.hostAt).map one

/-- A port ends its use: DISABLED, its power off with a cause (R103, R340, R427). -/
def State.disablePort (s : State) (k : Nat) (c : Cause) : State :=
  let s := if s.powered k then s.switchOff k c (s.now * 12500 + 12033)
    else (s.updFuse k (fun f => { f with cause := c, st := .off, retryAt := none })).portTo k .disabled
  s.updPort k (fun x => { x with disable := true, speed := .none, wkp := false, accepted := none })

/-- The committed view of a port takes what the port is (R72); a POWER_WAIT counts from the tick whose commit records it (R80). -/
def PortL.show (now : BitVec 48) (x : PortL) : PortL :=
  { x with
    since := if x.st = .powerWait ∧ x.shown ≠ .powerWait then now else x.since
    shown := x.st, shownSpeed := x.speed, shownCause := x.cause }

/-- The resume of a port is committed with a cause (R91, R92, R95, R96): from SUSPENDING with no more than 20 ticks of idle
the port returns to ACTIVE in the next tick, else it is RESUMING. -/
def State.commitResume (s : State) (k : Nat) (cause : WakeCause) : State :=
  let quick := decide ((s.port k).st = .suspending ∧ s.now + 1 ≤ (s.port k).since.toNat + 20)
  s.updPort k (fun x => { x with
    accepted := some .resume, cause := cause, wkp := false, st := if quick then x.st else .resuming
    since := if quick then x.since else s.tick.n, afterReset := false })

/-- The outcome of the commands and events of a port at a commit (R75), then its committed view (R72). The committed state to which a
command must apply is the one that this commit makes committed (log entry 114). -/
def State.commitPort (s : State) (k : Nat) : State :=
  let x := s.port k
  let all := lastBySlice x.writings
  let ok := (if x.detachNow || x.gone then all.filter (fun c => decide (c = PCmd.disable)) else all).filter (PCmd.applies x)
  let win := if x.disableNow then some .disable else topCmd ok
  let dropped := if x.disableNow then !all.isEmpty else decide (all.length ≠ (if win.isSome then 1 else 0))
  let s := if dropped then s.linkEvent k 12 else s
  let s := match win with
    | some .disable => s.disablePort k (if x.disableNow then .isolated else .disabled)
    | some .reset => (s.markReset k []).updPort k (fun y => { y with accepted := some .reset, wkp := false })
    | some .resume => s.commitResume k (if x.wkp || x.wakeWaits then .both else .host)
    | some .suspend => s.updPort k (fun y => { y with accepted := some .suspend })
    | some .enable => (s.portDetached k).updPort k (fun y => { y with disable := false })
    | none => if x.wkp && !x.detachNow && !x.gone then s.commitResume k .device else s
  let s := if x.gone then (if win = some .disable then s.updPort k (fun y => { y with gone := false, detachNow := true }) else s.commitGone k)
    else s
  let y := s.port k
  let s := if y.detachNow then s.detachTree k [] else s
  let s := if y.st = .active ∧ y.shown ≠ .active ∧ y.afterReset = true then
      s.updEnum k (fun e => { e with waiting := e.waiting ++ [{ port := BitVec.ofNat 5 k, hops := [] }] })
    else s
  s.updPort k (fun y => { y.show s.tick.n with cmds := [], hostCmds := [], hostAt := 0, detachNow := false, disableNow := false })

/-- What an abandoned tick drops of a port: the commands of its bus instructions (R73; log entry 70). -/
def State.abandonPort (s : State) (k : Nat) : State := s.updPort k (fun x => { x with cmds := [], hostAt := 0 })

/-- A committed write of LINK_CTL (R103): its fields, and its commands, of which the last write's count (R75). DISABLE commands the port
only where it is not yet in the state that the bit asks for (log entry 115). -/
def State.applyLinkCtl (s : State) (k : Nat) (v : W32) : State :=
  s.updPort k (fun x => { x with
    pwrWait := BitVec.ofNat 10 (v.toNat / 2 ^ 16), wakeEn := v.getLsbD 4, cabEn := v.getLsbD 3, disable := v.getLsbD 5
    hostCmds :=
      (if v.getLsbD 0 then [.reset] else []) ++ (if v.getLsbD 1 then [.suspend] else []) ++
      (if v.getLsbD 2 then [.resume] else []) ++ (if v.getLsbD 5 && decide (x.st ≠ .disabled) then [.disable] else []) ++
      (if !v.getLsbD 5 && decide (x.st = .disabled) then [.enable] else []) })

end Sys2Proof.Machine
end

