-- ==== Sys2Proof/Machine/Power.lean ====
section
/-! DEFINITION. Port power (13): the admin commands of a port's setting, the fuse, retries, the shedding sequencer, and
what a commit does to a port's power. -/
namespace Sys2Proof.Machine

open Sys2Proof

/-- The profiles of R419: PWR_MAX, ILIM_SET in 10 mA, RAMP_T, FAULT_T, RETRY_MAX, RETRY_DELAY in 10 ms. -/
def profileSet (k : Nat) (x : PortSet) : PortSet :=
  let mk (w i r f m d : Nat) : PortSet :=
    { x with direct := false, profile := BitVec.ofNat 3 k, pwrMax := w, ilimSet := i, rampT := r, faultT := f,
             retryMax := m, retryDelay := d, ilim := i * 10 }
  match k with
  | 0 => mk 15 40 5 20 8 100
  | 1 => mk 4 15 2 5 8 50
  | 2 => mk 8 25 5 10 8 50
  | 3 => mk 15 60 5 50 4 200
  | 4 => mk 30 70 10 30 4 200
  | 5 => mk 30 80 10 20 8 100
  | 6 => mk 15 40 10 20 15 250
  | _ => mk 8 25 20 10 8 100

/-- The actuators of a port (R338). -/
def actPortOn (p : Nat) : Nat := p * 8
def actIlim (p : Nat) : Nat := p * 8 + 1
def actShedPrio (p : Nat) : Nat := p * 8 + 2
def actIsolate (p : Nat) : Nat := p * 8 + 3

/-- The owner sets a parameter in this tick, so that a steward decision on it is superseded (R19). -/
def State.ownerSets (s : State) (a : Nat) : State := { s with ownerSet := s.ownerSet ++ [BitVec.ofNat 15 a] }

/-- A port power command of a port (R438): the port must exist and belong to the slice; `any` lifts the owner check for
PASS_CLEAR from S0. -/
def State.portCommand (s : State) (sl op : Nat) (warden : Bool) (f : Nat → Entry → State → State) : State :=
  s.admin sl op false (fun e s =>
    let p := fld e.q1 63 59
    if 15 < p then s.adminDone sl e stMalformed
    else if (if warden then sl != 0 else s.portOwner p != sl) then s.adminDone sl e stNotPermitted
    else f p e s)

/-- SET_PORT_PROFILE (R419, R420, R438). -/
def execSetPortProfile (sl : Slice) (s : State) : Host.Outcome State Fault Refusal :=
  .next (s.portCommand sl.toNat 0x70 false (fun p e s =>
    ((s.updPSet p (profileSet (fld e.q1 58 56))).ownerSets (actIlim p)).adminDone sl.toNat e stSuccess))

/-- The ranges of R418. -/
def directOk (w i r f d : Nat) : Bool :=
  decide (1 ≤ w ∧ w ≤ 30 ∧ 10 ≤ i ∧ i ≤ 80 ∧ 1 ≤ r ∧ r ≤ 20 ∧ 1 ≤ f ∧ f ≤ 50 ∧ 1 ≤ d)

/-- SET_PORT_DIRECT (R418, R420, R438). -/
def execSetPortDirect (sl : Slice) (s : State) : Host.Outcome State Fault Refusal :=
  .next (s.portCommand sl.toNat 0x71 false (fun p e s =>
    let w := fld e.q1 58 54
    let i := fld e.q1 53 47
    let r := fld e.q1 46 42
    let f := fld e.q1 41 36
    let d := fld e.q1 31 24
    if directOk w i r f d then
      ((s.updPSet p (fun x => { x with
        direct := true, pwrMax := w, ilimSet := i, rampT := r, faultT := f, retryMax := fld e.q1 35 32,
        retryDelay := d, ilim := i * 10 })).ownerSets (actIlim p)).adminDone sl.toNat e stSuccess
    else s.adminDone sl.toNat e stMalformed))

/-- PORT_POWER (R438): PORT_ON, subject to R19 and R428. -/
def execPortPower (sl : Slice) (s : State) : Host.Outcome State Fault Refusal :=
  .next (s.portCommand sl.toNat 0x72 false (fun p e s =>
    ((s.updPSet p (fun x => { x with on := fbit e.q1 58, offCause := .offCmd, onSet := true })).ownerSets (actPortOn p)).adminDone
      sl.toNat e stSuccess))

/-- PORT_REARM (R429): carried out at its commit. -/
def execPortRearm (sl : Slice) (s : State) : Host.Outcome State Fault Refusal :=
  .next (s.portCommand sl.toNat 0x73 false (fun p e s =>
    (s.updPSet p (fun x => { x with rearm := true })).adminDone sl.toNat e stSuccess))

/-- PASS_CLEAR (R432): the warden's, carried out at its commit. -/
def execPassClear (sl : Slice) (s : State) : Host.Outcome State Fault Refusal :=
  .next (s.portCommand sl.toNat 0x74 true (fun p e s =>
    (s.updPSet p (fun x => { x with passClear := true })).adminDone sl.toNat e stSuccess))

/-! ## The fuse (R422 to R432) -/

/-- Clocks of a time in ms. -/
def msClocks (ms : Nat) : Nat := ms * 100000

/-- GATE_RAMP (R422): from the tick after the commit to POWERING, once PD12 is ON. -/
def execGateRamp (p : Port) (s : State) : Host.Outcome State Fault Refusal :=
  let k := p.toNat
  let x := s.port k
  .next (if x.st = .powering ∧ x.shown = .powering ∧ x.since.toNat < s.now ∧ s.powered k = false ∧ s.domOn 12 = true ∧
        s.relay.getLsbD k = false then
      (s.updFuse k (fun f => { f with
        st := .ramping, gate := true, pg := false, limiting := false, ramped := false, rampAt := s.now * 12500, timer := 0
        released := none, pgAt := none, limitAt := none, overFor := 0
        rampT := (s.comPSet k).rampT, faultT := (s.comPSet k).faultT, pgFault := (s.comPSet k).faultT })).pwrEvent k 0
    else s)

/-- The limit in force in mA: the committed ILIM actuator, never above ILIM_SET (R421). -/
def State.limitNow (s : State) (k : Nat) : Nat := min (s.comPSet k).ilim ((s.comPSet k).ilimSet * 10)

/-- A current in mA above the foldback limit of R423, max(50 mA, limit × max(0.25, V_out / V_bus)). -/
def aboveFoldback (limit vout vbus i : Nat) : Bool :=
  decide (50 < i ∧ limit < 4 * i ∧ limit * vout < i * vbus)

/-- A current in mA below the foldback limit of R423. -/
def belowFoldback (limit vout vbus i : Nat) : Bool :=
  decide (i < 50 ∨ 4 * i < limit ∨ i * vbus < limit * vout)

/-- LIMIT (R423, R425): a current above the foldback limit, up to 1.60 A, engages the limiter, and the fault timer runs, from 0 unless it
held; a power-good of the same clock is withdrawn. -/
def execLimit (p : Port) (i vout vbus : W16) (cyc : Cycle) (s : State) : Host.Outcome State Fault Refusal :=
  let k := p.toNat
  let f := s.fuse k
  let clk := s.clockAt cyc
  .next (if f.gate = true ∧ f.limiting = false ∧ i.toNat ≤ 1600 ∧
        aboveFoldback (s.limitNow k) vout.toNat vbus.toNat i.toNat = true then
      let hold := match f.released with
        | some r => decide (clk < r + msClocks 1)
        | none => false
      let s := (s.updFuse k (fun f => { f with
        limiting := true, limitAt := some clk, timerFrom := clk, timer := if hold then f.timer else 0, released := none
        faultT := if hold then f.faultT else (s.comPSet k).faultT })).pwrEvent k 2
      if f.pg = true ∧ f.pgAt = some clk then
        ((s.updFuse k (fun f => { f with pg := false, st := .ramping, ramped := true, poweredAt := none })).pwrEvent k 3).updPort k
          (fun x => { x with st := .powering })
      else s
    else s)

/-- LIMITER_RELEASE (R423): the current is below the foldback limit, and the timer holds its count. -/
def execLimiterRelease (p : Port) (i vout vbus : W16) (cyc : Cycle) (s : State) : Host.Outcome State Fault Refusal :=
  let k := p.toNat
  let clk := s.clockAt cyc
  .next (if (s.fuse k).limiting = true ∧ belowFoldback (s.limitNow k) vout.toNat vbus.toNat i.toNat = true then
      s.updFuse k (fun f => { f with limiting := false, released := some clk, timer := f.timer + (clk - f.timerFrom) })
    else s)

/-- Power-good asserts: the port's move to POWER_WAIT is committed in this tick (R80, R424). -/
def State.assertPg (s : State) (k clk : Nat) : State :=
  ((s.updFuse k (fun f => { f with
    pg := true, st := .on, ramped := true, pgAt := some clk, poweredAt := some s.tick.n })).pwrEvent k 1).portTo k .powerWait

/-- V_out is at least 90 % of V_bus (R424). -/
def pgLevel (vout vbus : W16) : Bool := decide (vbus.toNat * 9 ≤ vout.toNat * 10)

/-- Power-good would assert in the clock in which the limiter engages: it is withdrawn (R425). -/
def State.withdrawPg (s : State) (k : Nat) : State := (s.pwrEvent k 1).pwrEvent k 3

/-- RAMP_END (R424, R425): power-good, RAMP_FAIL, or waiting. -/
def execRampEnd (p : Port) (vout vbus : W16) (cyc : Cycle) (s : State) : Host.Outcome State Fault Refusal :=
  let k := p.toNat
  let f := s.fuse k
  let clk := s.clockAt cyc
  .next (if f.gate = true ∧ f.st = .ramping ∧ f.ramped = false ∧ f.rampAt + msClocks f.rampT ≤ clk then
      if pgLevel vout vbus && !f.limiting then s.assertPg k clk
      else if vout.toNat * 2 < vbus.toNat then (s.switchOff k .rampFail clk).updFuse k (fun f => { f with tripped := true })
      else
        (if pgLevel vout vbus && decide (f.limitAt = some clk) then s.withdrawPg k else s).updFuse k (fun f => { f with ramped := true })
    else s)

/-- POWER_GOOD (R424, R425): after the ramp; in the clock in which the limiter engages it is withdrawn. -/
def execPowerGood (p : Port) (vout vbus : W16) (cyc : Cycle) (s : State) : Host.Outcome State Fault Refusal :=
  let k := p.toNat
  let f := s.fuse k
  let clk := s.clockAt cyc
  .next (if f.gate = true ∧ f.ramped = true ∧ f.pg = false ∧ pgLevel vout vbus = true ∧
        clk ≤ f.rampAt + msClocks (f.rampT + f.pgFault) then
      if f.limiting = true then
        if f.limitAt = some clk then s.withdrawPg k else s
      else s.assertPg k clk
    else s)

/-- PG_TIMEOUT (R424). -/
def execPgTimeout (p : Port) (cyc : Cycle) (s : State) : Host.Outcome State Fault Refusal :=
  let k := p.toNat
  let f := s.fuse k
  let clk := s.clockAt cyc
  .next (if f.gate = true ∧ f.ramped = true ∧ f.pg = false ∧ f.rampAt + msClocks (f.rampT + f.pgFault) ≤ clk then
      (s.switchOff k .pgTimeout clk).updFuse k (fun f => { f with tripped := true })
    else s)

/-- FAULT_TIMER (R423, R424): the timer reaches FAULT_T; in the clock of a RAMP_FAIL it is the cause. -/
def execFaultTimer (p : Port) (cyc : Cycle) (s : State) : Host.Outcome State Fault Refusal :=
  let k := p.toNat
  let f := s.fuse k
  let clk := s.clockAt cyc
  .next (if f.gate = true ∧ f.limiting = true ∧ msClocks f.faultT ≤ f.timer + (clk - f.timerFrom) then
      (s.switchOff k .faultTimer clk).updFuse k (fun f => { f with tripped := true })
    else if f.gate = false ∧ f.cause = .rampFail ∧ f.offAt = clk then s.updFuse k (fun f => { f with cause := .faultTimer })
    else s)

/-- SHORT_TRIP (R426): a current in mA above 1.60 A for 2 µs, its time in ns. -/
def execShortTrip (p : Port) (i ns : W16) (cyc : Cycle) (s : State) : Host.Outcome State Fault Refusal :=
  .next (if s.powered p.toNat = true ∧ 1600 < i.toNat ∧ 2000 ≤ ns.toNat then
      (s.switchOff p.toNat .shortTrip (s.clockAt cyc)).updFuse p.toNat (fun f => { f with tripped := true })
    else s)

/-- OVERLOAD (R426): the power of 400 consecutive ticks exceeded PWR_MAX. -/
def execOverload (p : Port) (cyc : Cycle) (s : State) : Host.Outcome State Fault Refusal :=
  .next (if s.powered p.toNat = true ∧ 400 ≤ (s.fuse p.toNat).overFor then
      (s.switchOff p.toNat .overload (s.clockAt cyc)).updFuse p.toNat (fun f => { f with tripped := true })
    else s)

/-- A temperature in 0.1 °C is at least `t` (R431). -/
def hot (x : W16) (t : Int) : Bool := decide (t ≤ x.toInt)

/-- A stage's rise in nK moves toward its target in one evaluation of 1 µs, its time constant in µs (R430; log entry 128). -/
def riseStep (target tau r : Nat) : Nat := if r ≤ target then r + (target - r) / tau else r - (r - target) / tau

/-- `n` evaluations of the thermal model with a loss in 10 µW (R430): junction to case of 1.5 K/W and 2 ms, case to board of 6.0 K/W and
1.5 s. -/
def PortP.heat (loss : Nat) : Nat → PortP → PortP
  | 0, f => f
  | n + 1, f => PortP.heat loss n { f with
      riseJc := riseStep (loss * 15000) 2000 f.riseJc, riseCb := riseStep (loss * 60000) 1500000 f.riseCb }

/-- The thermal model's temperature in 0.1 °C: the board's plus the rises of the two stages (R430). -/
def PortP.modelAt (board : W16) (f : PortP) : W16 := board + BitVec.ofNat 16 ((f.riseJc + f.riseCb) / 100000000)

/-- THERMAL (R430, R431, R437): the sensor is read, and the model evaluated over the µs since it last was, with the loss
(V_bus − V_out) × I of the voltages in 10 mV and the current in mA; at 150.0 °C by sensor or model the gate switches off, and THERMAL is
the cause recorded when another falls in the same clock. -/
def execThermal (p : Port) (sensor board : W16) (i vout vbus us : W16) (cyc : Cycle) (s : State) : Host.Outcome State Fault Refusal :=
  let k := p.toNat
  let clk := s.clockAt cyc
  let f := PortP.heat ((vbus.toNat - vout.toNat) * i.toNat) us.toNat (s.fuse k)
  let model := f.modelAt board
  .next (if s.domOn 12 then
    let s := s.updFuse k (fun _ => { f with sensor := sensor, model := model })
    if hot sensor 1500 || hot model 1500 then
      if s.powered k then (s.switchOff k .thermal clk).updFuse k (fun f => { f with tripped := true })
      else if (s.fuse k).offAt = clk ∧ (s.fuse k).cause.isFault = true then
        (s.updFuse k (fun f => { f with cause := .thermal })).pwrEvent k 5
      else s
    else s
  else s)

/-- PASS_FAIL (R432): the output node above 10 V for more than 5 ms with the gate off for at least 1 ms opens the relay. -/
def execPassFail (p : Port) (vout us : W16) (cyc : Cycle) (s : State) : Host.Outcome State Fault Refusal :=
  let k := p.toNat
  let f := s.fuse k
  let clk := s.clockAt cyc
  .next (if s.domOn 12 = true ∧ f.gate = false ∧ f.offAt + msClocks 1 ≤ clk ∧ 1000 < vout.toNat ∧ 5000 < us.toNat ∧
        s.relay.getLsbD k = false then
      let s := { s with relay := setBit s.relay k }
      let s := (s.switchOff k .passFail clk).logAon 0x0A k 0
      s.updFuse k (fun f => { f with tripped := true })
    else s)

/-- RETRY (R427, R431): the delay is over; a THERMAL retry waits for both temperatures below 125.0 °C. -/
def execRetry (p : Port) (s : State) : Host.Outcome State Fault Refusal :=
  let k := p.toNat
  let f := s.fuse k
  let due := match f.retryAt with
    | some t => decide (t.toNat ≤ s.now)
    | none => false
  .next (if f.st = .wait ∧ due = true ∧ (f.cause = .thermal → hot f.sensor 1250 = false ∧ hot f.model 1250 = false) then
      ((s.updFuse k (fun f => { f with
        st := .off, retryAt := none, retries := f.retries + 1, retryCnt := satInc f.retryCnt })).portDetached k).pwrEvent k 6
    else s)

/-- RETRY_COUNT_CLEAR (R427): powered for 80,000 ticks. -/
def execRetryCountClear (p : Port) (s : State) : Host.Outcome State Fault Refusal :=
  let k := p.toNat
  .next (match (s.fuse k).poweredAt with
    | some t => if t.toNat + 80000 ≤ s.now then s.updFuse k (fun f => { f with retries := 0 }) else s
    | none => s)

/-! ## The shedding sequencer (R433 to R436) -/

/-- The sequencer switches a port off with a cause, and remembers its draw (R341). -/
def State.shedPort (s : State) (c : Cause) (clk p : Nat) : State :=
  (s.switchOff p c clk).updFuse p (fun f => { f with tripped := true, shedDraw := portPower f })

/-- The port that the shed order gives next: powered (R433). -/
def State.shedNext (s : State) : Option Nat :=
  s.shedForce.find? (fun p =>
    s.powered p && !decide ((s.port p).st = .fault ∨ (s.port p).st = .disabled ∨ (s.port p).st = .contained))

/-- The sequencer has not switched a port off in this tick. -/
def State.shedFree (s : State) : Bool := decide (s.supply.shedAt ≠ some s.tick.n)

/-- Sheds the next port of the order, once per tick. -/
def State.shedOne (s : State) (c : Cause) (clk : Nat) : State :=
  match s.shedNext with
  | some p =>
    let s := s.shedPort c clk p
    { s with supply := { s.supply with shedAt := some s.tick.n } }
  | none => s

/-- OVERLOAD_SHED (R434). -/
def execOverloadShed (cyc : Cycle) (s : State) : Host.Outcome State Fault Refusal :=
  .next (if s.domOn 12 && s.supply.shedding && s.shedFree then s.shedOne .shed (s.clockAt cyc) else s)

/-- MAINS_SHED (R435): below 44.5 V every powered port; below 47.0 V from tick m + 161 the next of the order. BUS in 10 mV. -/
def execMainsShed (bus : W16) (cyc : Cycle) (s : State) : Host.Outcome State Fault Refusal :=
  let s := { s with supply := { s.supply with bus := bus } }
  .next (if s.domOn 12 = true ∧ (s.supply.st = .holdup ∨ s.supply.st = .lastGasp) ∧ s.supply.back = false then
      if bus.toNat < 4450 then
        s.forAll (fun t p => if t.powered p then t.shedPort .mainsShed (s.clockAt cyc) p else t) (List.range 16)
      else if bus.toNat < 4700 ∧ s.supply.lostAt.toNat + 161 ≤ s.now ∧ s.shedFree = true then
        s.shedOne .mainsShed (s.clockAt cyc)
      else s
    else s)

/-! ## At a commit (R17, R428, R429, R432, R436, R437) -/

/-- PORT_REARM at its commit: a fault or a delay ends; a fault of the same tick stands, taken with the retry count at 0. -/
def State.rearmPort (s : State) (k : Nat) : State :=
  let f := s.fuse k
  let set := s.psetAt k
  if f.cause.isFault = true ∧ (f.st = .wait ∨ f.st = .latched) then
    if f.tripped then
      s.updFuse k (fun f =>
        if retriesLeft set 0 then
          { f with retries := 0, st := .wait, retryAt := some (BitVec.ofNat 48 (s.now + retryTicks set 0)) }
        else { f with retries := 0, st := .latched, retryAt := none })
    else (s.updFuse k (fun f => { f with retries := 0, st := .off, retryAt := none })).portDetached k
  else s.updFuse k (fun f => { f with retries := 0 })

/-- PASS_CLEAR at its commit: the relay closes and the port moves to DETACHED, unless the check failed in this tick. -/
def State.passClearPort (s : State) (k : Nat) : State :=
  if s.relay.getLsbD k && !((s.fuse k).tripped && decide ((s.fuse k).cause = .passFail)) then
    (({ s with relay := clrBit s.relay k }).updFuse k (fun f => { f with st := .off })).portDetached k
  else s

/-- The shedding policy or the sequencer is the cause (R436). -/
def Cause.isShed (c : Cause) : Bool := decide (c = .shed ∨ c = .mainsShed)

/-- What counts as shed by the shedding policy (R341, R436): a port whose PORT_ON 0 came from it or from the sequencer, until another
setting of PORT_ON replaces it; also one that the sequencer shed while its owner set PORT_ON 1 (log entry 130). -/
def State.trackShed (s : State) (k : Nat) : State :=
  let set := s.psetAt k
  let is := if set.on then (s.fuse k).cause.isShed && decide ((s.port k).st = .fault) else set.offCause.isShed
  if s.policyNow.shedPorts.contains k == is then s
  else s.updPolicy (fun y => { y with shedPorts := if is then k :: y.shedPorts else y.shedPorts.filter (· != k) })

/-- The power of a port at a commit: the sequencer's switch-off becomes PORT_ON 0 unless PORT_ON was set in the tick, PORT_REARM and
PASS_CLEAR act, PORT_ON 0 switches a powered port off, and PORT_ON 1 ends OFF_CMD, SHED and MAINS_SHED (log entry 130). -/
def State.commitPower (s : State) (k : Nat) : State :=
  let f := s.fuse k
  let shedNow := f.tripped && f.cause.isShed && !(s.psetAt k).onSet
  let s := if shedNow then s.updPSet k (fun x => { x with on := false, offCause := f.cause }) else s
  let was := s.comPSet k
  let set := s.psetAt k
  let s := if set.rearm then s.rearmPort k else s
  let s := if set.passClear then s.passClearPort k else s
  let s :=
    if was.on && !set.on then
      if s.powered k || decide ((s.port k).st = .powering) then s.switchOff k set.offCause (s.now * 12500 + 12033) else s
    else if set.on && (!was.on || set.onSet) && !f.tripped && decide ((s.port k).st = .fault) then
      match (s.fuse k).cause with
      | .offCmd => s.portDetached k
      | .shed => (s.portDetached k).pwrEvent k 9
      | .mainsShed => (s.portDetached k).pwrEvent k 9
      | _ => s
    else s
  let s := if set.rearm || set.passClear || set.onSet then
      s.updPSet k (fun x => { x with onSet := false, rearm := false, passClear := false })
    else s
  (s.trackShed k).updFuse k (fun f => { f with tripped := false })

end Sys2Proof.Machine
end

