-- ==== Sys2Proof/Machine/Domains.lean ====
section
/-! DEFINITION. The switched power domains (14): the registers that request their states, wakes and their failures,
quarantine, and what a commit does to them. -/
namespace Sys2Proof.Machine

open Sys2Proof

/-- Sets bit `i` of DOM_EVENT of domain `d` (R465). -/
def State.domEvent (s : State) (d i : Nat) : State := s.updDom d (fun x => { x with event := setBit x.event i })

/-- The ports that domain `d` carries (R456, R460). -/
def portsOfDom (d : Nat) : List Nat :=
  if d = 3 ∨ d = 5 then List.range 8
  else if d = 4 ∨ d = 6 then (List.range 8).map (· + 8)
  else if d = 7 ∨ d = 9 ∨ d = 12 then List.range 16
  else []

/-- The links that domain `d` carries (R456). -/
def linksOfDom (d : Nat) : List Nat := if d = 1 then [0, 1] else if d = 2 then [2, 3] else []

/-- Port `p` enters CONTAINED (R43, R460): its devices detach at the commit; its power stays as commanded (log entry 32). -/
def State.containPort (s : State) (p : Nat) : State :=
  s.updPort p (fun x => { x with
    st := .contained, since := s.tick.n, speed := .none, accepted := none, wkp := false, dbCount := 0, cmds := [],
    detachNow := true })

/-- A port whose domain was switched off by RESET loses its supply or its line and detaches (log entry 30). -/
def State.losePort (s : State) (p : Nat) : State :=
  let s := s.updFuse p (fun f => { f with
    gate := false, pg := false, limiting := false, st := .off, offAt := s.now * 12500 + 12033, poweredAt := none })
  ((s.portDetached p).updPort p (fun x => { x with detachNow := true })).linkEvent p 1

/-- A domain enters OFF (R456): its links go down, its looms stop (log entry 113). -/
def State.domOff (s : State) (d : Nat) : State :=
  let s := (s.updDom d (fun x => { x with st := .off, idle := 0, good := false, held := false })).domEvent d 2
  let s := s.forAll (fun t l => t.updLink l (fun x => { x with up := false, downNow := x.downNow || x.up })) (linksOfDom d)
  if d = 3 ∨ d = 4 then
    s.forAll (fun t p => t.updThread p (fun x => { x with running := false, weave := none })) (portsOfDom d)
  else s

/-- A domain enters RETENTION: its clocks stop, its state stays (log entry 113). -/
def State.domRetain (s : State) (d : Nat) : State :=
  let s := (s.updDom d (fun x => { x with st := .retention, idle := 0, autoNow := false })).domEvent d 1
  if d = 3 ∨ d = 4 then
    s.forAll (fun t p => t.updThread p (fun x => { x with running := false, weave := none })) (portsOfDom d)
  else s

/-- A domain becomes ON: the ports that its quarantine contained move to DETACHED (R460), a RESET is done (R462). A port that
another quarantined domain carries stays CONTAINED for that one (log entry 32). -/
def State.domTurnsOn (s : State) (d : Nat) : State :=
  let x := s.dom d
  let s := (s.updDom d (fun x => { x with st := .on, good := false, resetRun := false, idle := 0 })).domEvent d 0
  let s := if x.resetRun then s.domEvent d 6 else s
  let ps := s.domPorts.get [] d
  let s := { s with domPorts := s.domPorts.del d }
  s.forAll (fun t p =>
    match ([3, 4, 5, 6, 7, 9, 12].filter (fun e => decide ((t.dom e).st = .quarantined) && (portsOfDom e).contains p)) with
    | e :: _ => { t with domPorts := t.domPorts.upd [] e (fun l => l ++ [p]) }
    | [] =>
      if (t.port p).st = .contained then (t.portDetached p).updPort p (fun x => { x with disable := false }) else t) ps

/-- The quarantine of a domain with a cause of DOMAIN_FAIL (R460): the domains that wake because they require it return to
the state they held, and the ports it carries enter CONTAINED. -/
def State.quarantine (s : State) (d cause clk : Nat) : State :=
  let s := ((s.updDom d (fun x => { x with st := .quarantined, good := false, idle := 0, resetRun := false })).domEvent d 4).logAon
    0x07 d (BitVec.ofNat 32 cause)
  let s := s.forAll (fun t e =>
    if (t.dom e).st = .waking then t.updDom e (fun x => { x with st := x.before, good := false }) else t) (requiredBy d)
  let s := s.forAll (fun t l => t.updLink l (fun x => { x with up := false, downNow := x.downNow || x.up })) (linksOfDom d)
  let ps := (portsOfDom d).filter (fun p => decide ((s.port p).st ≠ .contained))
  let s := if d = 12 then s.forAll (fun t p => t.switchOff p .domainOff clk) (portsOfDom 12) else s
  let s := s.forAll State.containPort ps
  { s with domPorts := if portsOfDom d = [] then s.domPorts else s.domPorts.upd [] d (fun l => l ++ ps) }

/-! ## Wakes (R458 to R461) -/

/-- A timer that PD11 left with AON is due, or an admission request waits (R458). -/
def State.stewardDue (s : State) : Bool :=
  !s.admitting.isEmpty || s.cores.any (fun c => (s.coreAt c.1).timers.any (fun t => decide (t.deadline.toNat ≤ s.now)))

/-- The domains that a cause of R458 wakes, by its code of R465 (log entry 33). -/
def causeDoms (cause : Nat) : List Nat :=
  match cause with
  | 3 => [3, 4, 5, 6, 12]
  | 4 => [1, 2]
  | 5 => [1, 2, 8]
  | 6 => [11]
  | _ => []

/-- DOMAIN_WAKE (R458): a cause wakes a domain in RETENTION with the domains it requires; a timer or an admission
request only while one is due. -/
def execDomainWake (d : Dom) (cause : BitVec 3) (cyc : Cycle) (s : State) : Host.Outcome State Fault Refusal :=
  let k := domNum d
  .next (if (causeDoms cause.toNat).contains k && (cause.toNat != 6 || s.stewardDue) then
      s.wakeRet k cause.toNat (s.clockAt cyc)
    else s)

/-- The clock at which an attempt's power-good counts last: 500 µs after its start (R459). -/
def wakeDeadline (since : Nat) : Nat := since + 50000

/-- DOMAIN_POWER_GOOD (R459): within the attempt, its last clock included, it is taken for the next commit. -/
def execDomainPowerGood (d : Dom) (cyc : Cycle) (s : State) : Host.Outcome State Fault Refusal :=
  let k := domNum d
  let x := s.dom k
  .next (if x.st = .waking ∧ x.since ≤ s.clockAt cyc ∧ s.clockAt cyc ≤ wakeDeadline x.since then
      s.updDom k (fun x => { x with good := true })
    else s)

/-- WAKE_ATTEMPT_FAIL (R459, R460): after the first and the second the next attempt follows its back-off of 125 µs and 250 µs;
after the third the domain is quarantined, with cause regulator or clock. -/
def execWakeAttemptFail (d : Dom) (clock : Bool) (cyc : Cycle) (s : State) : Host.Outcome State Fault Refusal :=
  let k := domNum d
  let x := s.dom k
  .next (if x.st = .waking ∧ x.good = false ∧ wakeDeadline x.since ≤ s.clockAt cyc then
      let s := s.domEvent k 3
      if x.attempts.toNat < 3 then
        s.updDom k (fun x => { x with
          since := wakeDeadline x.since + 12500 * x.attempts.toNat, attempts := x.attempts + 1 })
      else s.quarantine k (if clock then 2 else 1) (s.clockAt cyc)
    else s)

/-! ## Requests (R457, R462) -/

/-- PD_REQUEST (R457): the write is held for the commit. -/
def execPdRequest (l : Link) (d : Dom) (v : W32) (s : State) : Host.Outcome State Fault Refusal :=
  .next (s.guardedWrite l.toNat (pdCtlAddr (domNum d)) v)
/-- PD_RESET (R462). -/
def execPdReset (l : Link) (d : Dom) (v : W32) (s : State) : Host.Outcome State Fault Refusal :=
  .next (if v.getLsbD 3 then s.guardedWrite l.toNat (pdCtlAddr (domNum d)) v else s)
/-- CLEAR_Q (R460). -/
def execClearQ (l : Link) (d : Dom) (v : W32) (s : State) : Host.Outcome State Fault Refusal :=
  .next (if v.getLsbD 4 then s.guardedWrite l.toNat (pdCtlAddr (domNum d)) v else s)

/-- A committed write of PD_CTL (R465): a REQ of 11 is ignored. -/
def State.applyPdCtl (s : State) (d : Nat) (v : W32) : State :=
  let r : Option DomReq := match v.toNat % 4 with
    | 0 => some .on
    | 1 => some .retention
    | 2 => some .off
    | _ => none
  s.updDom d (fun x => { x with
    auto := v.getLsbD 2, reset := x.reset || v.getLsbD 3, clearQ := x.clearQ || v.getLsbD 4
    req := r.getD x.req, act := x.act || r.isSome })

/-- AUTO_RETENTION (R462): AUTO and REQ ON, the conditions held through the last 64 ticks, and the links in L1 for PD1
and PD2: retention follows at the commit. -/
def execAutoRetention (d : Dom) (l1 : Bool) (s : State) : Host.Outcome State Fault Refusal :=
  let k := domNum d
  let x := s.dom k
  .next (if x.auto = true ∧ x.req = .on ∧ x.st = .on ∧ 64 ≤ x.idle ∧ [1, 2, 5, 6, 7, 8, 9, 12].contains k = true ∧
        (k ≤ 2 → l1 = true) then
      s.updDom k (fun x => { x with autoNow := true })
    else s)

/-- The states of a port that let its front-end domain go (R456). -/
def PState.restful (off : Bool) : PState → Bool
  | .disabled | .contained => true
  | .detached | .invalid | .suspended | .fault => !off
  | _ => false

/-- The row of R456 allows a domain to leave ON. -/
def State.rowAllows (s : State) (d : Nat) (off : Bool) : Bool :=
  match d with
  | 5 | 6 => (portsOfDom d).all (fun p => (s.port p).st.restful off)
  | 7 => !off
  | 8 => (s.queues.map (·.1)).all (fun k => !(s.queue k).run) &&
      (s.chans.map (·.1)).all (fun c => match (s.chan c).st with
        | .idle | .stopped | .killed => true
        | _ => false)
  | 9 => !off && s.jwait.isEmpty
  | 12 => (List.range 16).all (fun p => !s.powered p)
  | _ => true

/-- The domain asks to leave ON, or to go from RETENTION to OFF (R457). -/
def DomS.leaves (x : DomS) : Bool :=
  x.act && (decide (x.st = .on ∧ x.req ≠ .on) || decide (x.st = .retention ∧ x.req = .off))

/-- The requests to leave that commit together (R457): each round takes out those that a domain still ON requires. -/
def State.leaving (s : State) : Nat → List Nat → List Nat
  | 0, l => l
  | n + 1, l => State.leaving s n
      (l.filter (fun d => (requiredBy d).all (fun r => !s.domOn r || l.contains r)))

/-- REFUSE of a request to leave (R465), none when R456 allows it (log entry 31). -/
def State.refusal (s : State) (d : Nat) : Option Nat :=
  let off := decide ((s.dom d).req = .off)
  if off && (d == 7 || d == 9) then some 3 else if s.rowAllows d off then none else some 2

/-- A request refused (R457; log entry 31). -/
def State.refuse (s : State) (d code : Nat) : State :=
  (s.updDom d (fun x => { x with refuse := BitVec.ofNat 4 code, act := false })).domEvent d 5

/-- RESET of a domain at its commit (R462): the domain and every domain that requires it go off and wake from OFF (log entries 30, 31). -/
def State.resetDom (s : State) (d : Nat) : State :=
  let s := s.updDom d (fun x => { x with reset := false })
  let x := s.dom d
  if x.st = .quarantined then s.refuse d 4
  else if s.domHeld d then s.refuse d 5
  else if d = 7 ∨ d = 9 then s.refuse d 3
  else
    let all := (d :: requiredBy d).filter (fun e => e == d || decide ((s.dom e).st ≠ .off ∧ (s.dom e).st ≠ .quarantined))
    let s := s.forAll State.domOff all
    let s := if d = 12 then s.forAll State.losePort ((portsOfDom 12).filter s.powered)
      else if d = 5 ∨ d = 6 then s.forAll State.losePort ((portsOfDom d).filter (fun p => (s.port p).st.attached))
      else s
    let s := s.updDom d (fun x => { x with resetRun := true })
    s.forAll (fun t e => (t.wake e 1 ((t.now + 1) * 12500)).updDom e (fun x => { x with act := decide (x.req ≠ .on) })) all

/-- CLEAR_Q at its commit (R460, R463): a quarantine ends with a fresh wake; elsewhere it is ignored (log entry 32). -/
def State.clearQuarantine (s : State) (d : Nat) : State :=
  let s := s.updDom d (fun x => { x with clearQ := false })
  if (s.dom d).st = .quarantined then
    (((s.updDom d (fun x => { x with st := .off })).domEvent d 7).logAon 0x08 d 0).wake d 1 ((s.now + 1) * 12500)
  else s

/-- A request for ON at its commit: the wake begins at cycle 0 of the next tick; a quarantined domain refuses. -/
def State.requestOn (s : State) (d : Nat) : State :=
  let x := s.dom d
  match x.st with
  | .quarantined => s.refuse d 4
  | .off | .retention => (s.wake d 1 ((s.now + 1) * 12500)).updDom d (fun x => { x with act := false })
  | _ => s.updDom d (fun x => { x with act := false })

/-- The domains that a commit moves: power-good (R459), the leave requests together (R457), AUTO (R462) and R449; a wake of
the same commit wins over leaving (R463; log entries 31, 34). -/
def State.commitDomains (s : State) : State :=
  let ds := (List.range 12).map (· + 1)
  let s := s.forAll (fun t d =>
    let x := t.dom d
    if x.st = .waking ∧ x.good = true then
      if x.before = .off then t.updDom d (fun x => { x with st := .restoring, good := false }) else t.domTurnsOn d
    else t) ds
  let s := s.forAll (fun t d => if (t.dom d).clearQ then t.clearQuarantine d else t) ds
  let s := s.forAll (fun t d => if (t.dom d).reset then t.resetDom d else t) ds
  let s :=
    if s.supply.hold then
      s.forAll (fun t d =>
        if (t.dom d).st = .on then (t.domRetain d).updDom d (fun x => { x with held := true }) else t) gaspDoms
    else s
  let asks := ds.filter (fun d => (s.dom d).act && !s.domHeld d)
  let s := s.forAll (fun t d => if (t.dom d).req = .on then t.requestOn d else t) asks
  let quar := asks.filter (fun d => decide ((s.dom d).req ≠ .on ∧ (s.dom d).st = .quarantined))
  let s := s.forAll (fun t d => t.refuse d 4) quar
  let want := asks.filter (fun d => (s.dom d).leaves && !(s.dom d).wakeNow)
  let bad := want.filter (fun d => (s.refusal d).isSome)
  let s := s.forAll (fun t d => t.refuse d ((t.refusal d).getD 0)) bad
  let want := want.filter (fun d => !bad.contains d)
  let go := s.leaving 12 want
  let s := s.forAll (fun t d => if go.contains d then t else t.refuse d 1) want
  let s := s.forAll (fun t d =>
    let t := if (t.dom d).req = .off then t.domOff d else t.domRetain d
    t.updDom d (fun x => { x with act := false })) go
  let auto := ds.filter (fun d => (s.dom d).autoNow && s.domOn d && !(s.dom d).wakeNow && s.rowAllows d false)
  let s := s.forAll State.domRetain (s.leaving 12 auto)
  let s := s.forAll (fun t d => t.updDom d (fun x => { x with
    autoNow := false, wakeNow := false
    shown := if x.st = .waking ∧ x.attempts = 1 ∧ (t.now + 1) * 12500 ≤ x.since then x.before else x.st
    idle := if x.st = .on && t.rowAllows d false && !x.wakeNow then x.idle + 1 else 0 })) ds
  s

end Sys2Proof.Machine
end

