-- ==== Sys2Proof/Machine/Supply.lean ====
section
/-! DEFINITION. The mains supply (14): loss and return of the input, the last-gasp bank, and the ledger of POWER_DOWN. -/
namespace Sys2Proof.Machine

open Sys2Proof

/-- A change of the supply's record. -/
def State.updSupply (s : State) (f : SupplyS → SupplyS) : State := { s with supply := f s.supply }

/-- Sets bit `i` of SUP_EVENT (R465). -/
def State.supEvent (s : State) (i : Nat) : State := s.updSupply (fun x => { x with event := setBit x.event i })

/-- AON release (R445, R452, R464): in START, with the input qualified and the bank at 60 J or given up; the cold start that
follows has cause 1. -/
def State.aonRelease (s : State) : State :=
  let x := s.supply
  if x.st = .start ∧ x.inputOk = true ∧ (x.bankReady = true ∨ x.bankFault = true) then
    s.updSupply (fun x => { x with st := .normal, release := some 1 })
  else s

/-- MAINS_LOST (R447, R448, R452): NORMAL becomes HOLDUP at once, each ACTIVE port owes a POWER_NOTICE, and the AON log takes
the cause; before AON release the module stays in START. -/
def execMainsLost (bulk : Bool) (s : State) : Host.Outcome State Fault Refusal :=
  .next (match s.supply.st with
    | .start => s.updSupply (fun x => { x with inputOk := false })
    | .normal =>
      let s := s.updSupply (fun x => { x with
        st := .holdup, inputOk := false, lostAt := s.tick.n, back := false, losses := satInc x.losses })
      let s := (s.supEvent 0).logAon 0x03 0 (if bulk then 2 else 1)
      s.forAll (fun t p => if t.portActive p then t.updShuttle p (fun h => { h with notice := some t.now32 }) else t)
        (List.range 16)
    | _ => s)

/-- LAST_GASP (R445, R449): the bank first carries the internal rail; retention follows at the commit. -/
def execLastGasp (s : State) : Host.Outcome State Fault Refusal :=
  .next (if s.supply.st = .holdup then
      ((s.updSupply (fun x => { x with st := .lastGasp, hold := true })).supEvent 2).logAon 0x04 0
        (s.supply.energy.setWidth 32)
    else s)

/-- MAINS_BACK (R446, R450): declared at once; NORMAL follows at the commit. -/
def execMainsBack (s : State) : Host.Outcome State Fault Refusal :=
  .next (if (s.supply.st = .holdup ∨ s.supply.st = .lastGasp) ∧ s.supply.back = false then
      let s := (s.supEvent 1).logAon 0x05 0 (BitVec.ofNat 32 (s.now - s.supply.lostAt.toNat))
      s.updSupply (fun x => { x with
        back := true, inputOk := true, rides := if x.st = .lastGasp then satInc x.rides else x.rides })
    else s)

/-- POWER_DOWN (R451, R452): the bank falls to 15 J in this tick; it proceeds even when MAINS_BACK was declared in it. -/
def execPowerDown (s : State) : Host.Outcome State Fault Refusal :=
  .next (if s.supply.st = .lastGasp then
      (s.updSupply (fun x => { x with st := .powerDown, back := false, downAt := some s.tick.n, downStep := 0 })).supEvent 3
    else s)

/-- BANK_FAULT (R444): 60 s of charging have not brought 60 J; start-up proceeds without the bank. -/
def execBankFault (s : State) : Host.Outcome State Fault Refusal :=
  .next (if s.supply.bankReady then s
    else ((s.updSupply (fun x => { x with bankFault := true })).supEvent 5).aonRelease)

/-- BANK_READY (R444, R464): the bank holds 60 J (log entry 26). -/
def execBankReady (s : State) : Host.Outcome State Fault Refusal :=
  .next (((s.updSupply (fun x => { x with bankReady := true })).supEvent 4).aonRelease)

/-- INPUT_QUALIFIED (R446): INPUT_OK and the kind of input. -/
def execInputQualified (ok dc : Bool) (s : State) : Host.Outcome State Fault Refusal :=
  .next ((s.updSupply (fun x => { x with inputOk := ok, dc := if ok then dc else x.dc })).aonRelease)

/-! ## At a commit -/

/-- The supply at a commit (R450): MAINS_BACK gives NORMAL, and each domain that R449 held returns to its request. -/
def State.commitSupply (s : State) : State :=
  if s.supply.back = true ∧ (s.supply.st = .holdup ∨ s.supply.st = .lastGasp) then
    let s := s.updSupply (fun x => { x with st := .normal, back := false, hold := false })
    s.forAll (fun t d =>
      if (t.dom d).held then
        let t := t.updDom d (fun x => { x with held := false })
        match (t.dom d).req with
        | .on => t.wake d 7 (t.now * 12500 + 12033)
        | .retention => t
        | .off => t.updDom d (fun x => { x with act := true })
      else t) gaspDoms
  else if s.supply.back then s.updSupply (fun x => { x with back := false })
  else s

/-! ## The ledger of POWER_DOWN (R451) -/

/-- The domains that each step of the switch-off turns off (log entry 29). -/
def downDoms : Nat → List Nat
  | 0 => [3, 4, 11]
  | 1 => [10, 5, 6, 12]
  | 2 => [8, 1, 2]
  | _ => [7, 9]

/-- The ledger at cycle 0 of a tick: from d + 2, once the journal is durable, POWER_DOWN is logged; then one step each tick, the
last with the key slots zeroised (log entry 29). -/
def State.downTick (s : State) : State :=
  match s.supply.downAt with
  | none => s
  | some d =>
    if s.now < d.toNat + 2 then s
    else if s.supply.downStep = 0 then
      if s.tick.journalEpoch = s.e then
        (s.logAon 0x06 0 s.e).updSupply (fun x => { x with downStep := 1 })
      else s
    else if s.supply.downStep ≤ 4 then
      let k := s.supply.downStep
      let s := s.forAll State.domOff (downDoms (k - 1))
      let s := if k = 4 then
          { s with sliceX := s.sliceX.mapV (fun x => { x with memKey := none }), moduleKey := none }
        else s
      s.updSupply (fun x => { x with downStep := k + 1 })
    else s

/-- The switch-off of POWER_DOWN has ended (log entry 28). -/
def State.downDone (s : State) : Bool := decide (s.supply.st = .powerDown) && decide (5 ≤ s.supply.downStep)

end Sys2Proof.Machine
end

