-- ==== Sys2Proof/Machine/Detectors.lean ====
section
/-! DEFINITION. Fault detectors and their injection, line probes, insulation and surges (17). -/
namespace Sys2Proof.Machine

open Sys2Proof

/-! ## Detectors (R517, R518) -/

/-- The containment classes of R517. -/
inductive DetClass where
  | none | port (p : Nat) | loom (k : Nat) | core (c : Nat) | chan (c : Nat) | domain (d : Nat) | module
deriving DecidableEq, Repr

/-- The code of a containment class (R43, R454). -/
def DetClass.code : DetClass → Nat
  | .none => 0 | .port _ => 1 | .loom _ => 2 | .core _ => 3 | .chan _ => 4 | .domain _ => 5 | .module => 6

/-- The place of a detector in its range (R517). -/
def detPlace (d : Nat) : Nat :=
  if d < 4 then 0
  else if d < 12 then d - 4
  else if d < 20 then d - 12
  else if d < 36 then d - 20
  else if d < 52 then d - 36
  else if d < 68 then d - 52
  else if d < 72 then d - 68
  else if d < 76 then d - 72
  else if d < 80 then d - 76
  else if d < 95 then 0
  else if d < 99 then d - 95
  else if d < 103 then d - 99
  else if d < 119 then d - 103
  else 0

/-- The containment class of a detector for a UNIT (R517, R519). -/
def detClass (d unit : Nat) : DetClass :=
  if d = 1 then (if 128 ≤ unit then .core (unit % 4) else .port (unit % 16))
  else if d < 4 then .module
  else if d < 20 then .loom (unit % 8)
  else if d < 68 then .port (unit % 16)
  else if d < 80 then .core (unit % 4)
  else if d < 82 then .domain 11
  else if d < 87 then .domain 7
  else if d < 90 then .domain 9
  else if d = 90 then .chan (unit % 64)
  else if d < 94 then .domain 8
  else if d = 94 then .module
  else if d < 103 then .domain (linkDom unit)
  else if d < 119 then .port (unit % 16)
  else if d = 119 then .domain 12
  else if d < 122 then .domain 10
  else if d = 122 ∨ d = 123 ∨ d = 124 ∨ d = 126 then .module
  else .none

/-- UNIT of a report (R518): what DT001 and DT090 name, else the block's own number. -/
def detUnit (d : Nat) (unit : Byte) : Byte := if d = 1 ∨ d = 90 then unit else BitVec.ofNat 8 (detPlace d)

/-- What an uncorrectable error struck lies in a page in FILL, where errors are ignored (R373). -/
def State.inFillPage (s : State) : LostItem → Bool
  | .none => false
  | .context i => (s.comPage (i.toNat / 1024)).st == .fill
  | .devLine l => (s.comPage (5120 + l.toNat / 1024)).st == .fill

/-- DETECTOR_REPORT (R36, R48, R373, R518): a report at a cycle, with what an uncorrectable error in committed state has struck (log entry 112). -/
def execDetectorReport (d : Detector) (unit : Byte) (injected : Bool) (lost : LostItem) (cyc : Cycle) (s : State) :
    Host.Outcome State Fault Refusal :=
  .next (if d = 87 ∧ s.inFillPage lost = true then s
    else
      let s := s.detect d.toNat (detUnit d.toNat unit) injected cyc.toNat
      if lost = .none then s else { s with tick := { s.tick with lost := s.tick.lost ++ [lost] } })

/-! ## Injection (R520 to R523) -/

/-- A write of INJ_CTL (R521 to R523): from the warden link, at once; arming is logged, ARM 0 cancels what is not made yet. -/
def State.injCtlWrite (s : State) (l d : Nat) (v : W32) : State :=
  if s.comWarden = l then
    let cnt : Byte := BitVec.ofNat 8 (v.toNat / 2 ^ 16)
    let arm := v.getLsbD 31
    let s := s.updDet d (fun x => { x with
      arm := arm, injCount := cnt, cycle := v.setWidth 14, made := 0, doneAt := none
      start := if (s.now32 - x.injTick).toNat < 2 ^ 31 ∧ x.injTick ≠ s.now32 then s.now32 + 1 else x.injTick })
    if arm then s.logAon 0x21 d (BitVec.ofNat 32 (max 1 cnt.toNat)) else s
  else s

/-- INJ_CTL_WRITE (R521 to R523). -/
def execInjCtlWrite (l : Link) (d : Detector) (v : W32) (s : State) : Host.Outcome State Fault Refusal :=
  .next (s.injCtlWrite l.toNat d.toNat v)

/-- The lowest-numbered ACTIVE port whose front end is on (R521; log entry 75). -/
def State.firstActive (s : State) : Option Nat := (List.range 16).find? (fun p => s.portActive p && s.frontOn p)

/-- The lowest-numbered RUNNING channel (R521; log entry 75). -/
def State.firstRunning (s : State) : Option Nat :=
  (List.range 64).find? (fun c => decide ((s.chan c).st = .running))

/-- A loom thread is executing and not idle (R521). -/
def State.threadBusy (s : State) (u : Nat) : Bool := (s.thread u).running

/-- The UNIT on which an injection of detector `d` acts now, none when its block has nothing in progress, is contained or
lies in a domain that is not ON (R521; log entry 75). -/
def State.injectUnit (s : State) (d : Nat) : Option Nat :=
  let p := detPlace d
  let port (dom : Nat) (need : Bool) : Option Nat :=
    if s.domOn dom && need && decide ((s.port p).st ≠ .contained) then some p else none
  let whenOn (dom : Nat) : Option Nat := if s.domOn dom then some p else none
  if d = 1 then s.firstActive
  else if d < 4 then some 0
  else if d < 20 then
    if s.domOn (if p < 4 then 3 else 4) && (s.threadBusy (2 * p) || s.threadBusy (2 * p + 1)) then some p else none
  else if d < 52 then port (frontDom p) (s.portActive p)
  else if d < 68 then port 10 true
  else if d < 80 then
    if s.domOn 11 && (s.thread (16 + p)).running && !(s.coreContained.get false p) then some p else none
  else if d < 82 then whenOn 11
  else if d < 87 then whenOn 7
  else if d < 90 then whenOn 9
  else if d = 90 then if s.domOn 8 then s.firstRunning else none
  else if d < 94 then whenOn 8
  else if d = 94 then some 0
  else if d < 103 then whenOn (linkDom p)
  else if d < 119 then port 12 true
  else if d = 119 then whenOn 12
  else if d < 122 then whenOn 10
  else some 0

/-- INJECTION (R520 to R522): once in each tick from the first, an armed point makes its fault, and its detector reports; a tick
in which its block does nothing is skipped and counted (log entry 75). -/
def execInjection (d : Detector) (s : State) : Host.Outcome State Fault Refusal :=
  let k := d.toNat
  let x := s.det k
  .next (if x.arm = true ∧ (s.now32 - x.start).toNat < 2 ^ 31 ∧ x.doneAt ≠ some s.now32 ∧ s.tick.selvage = false then
      match s.injectUnit k with
      | some u =>
        let s := s.updDet k (fun x => { x with
          made := x.made + 1, doneAt := some s.now32, arm := decide (x.made + 1 < max 1 x.injCount.toNat) })
        ({ s with injMade := satInc s.injMade }).detect k (BitVec.ofNat 8 u) true (min 11999 x.cycle.toNat)
      | none =>
        { s.updDet k (fun x => { x with doneAt := some s.now32 }) with injSkipped := satInc s.injSkipped }
    else s)

/-! ## Line probes (R524 to R529) -/

/-- Sets bit `i` of PROBE_EVENT (R529). -/
def State.probeEvent (s : State) (p i : Nat) : State := s.updProbe p (fun x => { x with event := setBit x.event i })

/-- The link layer gives the pair to the probe outside slots (R100). -/
def PState.lendsPair : PState → Bool
  | .detached | .invalid | .fault | .disabled | .suspended => true
  | _ => false

/-- The shots of a slot of VAL µs, or of a probe outside slots (R525). -/
def tdrShots (slot : Option (BitVec 14)) : Nat :=
  match slot with
  | some v => if v.toNat < 14 then 0 else (v.toNat - 2) / 12
  | none => 8

/-- The result word of R526 (log entry 77). -/
def tdrWord (kind shots rho dist : Nat) : W32 :=
  BitVec.ofNat 32 (kind * 2 ^ 28 + min shots 15 * 2 ^ 24 + rho * 2 ^ 16 + dist)

/-- The distance to a reflection in 0.1 m (R524): VF × c × Δt / 2 with VF in 0.0001, c of 299.79 m/µs and Δt in ps, rounded down (log
entry 77). -/
def tdrMetres (vf delay : Nat) : Nat := vf * delay * 149895 / 10 ^ 12

/-- The first reflection of 10 % of the pulse or more, within 1,000 m (R524, R526). -/
def tdrFirst (vf : Nat) (es : List Echo) : Option Echo :=
  es.find? (fun e => decide (10 ≤ e.rho.toNat ∧ tdrMetres vf e.delay.toNat ≤ 10000))

/-- The result of a measurement of `n` shots (R525, R526; log entry 77). -/
def tdrResult (vf n : Nat) (res : TdrEnd) : W32 :=
  if n = 0 then tdrWord 6 0 0 0xFFFF
  else match res with
    | .busy => tdrWord 5 0 0 0xFFFF
    | .noisy => tdrWord 7 0 0 0xFFFF
    | .done es =>
      match tdrFirst vf es with
      | some e =>
        tdrWord (if e.rho.toNat < 50 then 4 else if e.inverted then 3 else 2) n (min 100 e.rho.toNat) (tdrMetres vf e.delay.toNat)
      | none => tdrWord 1 n 0 0xFFFF

/-- KIND and DIST of a result (log entry 77). -/
def tdrKind (w : W32) : Nat := w.toNat / 2 ^ 28
def tdrDist (w : W32) : Nat := w.toNat % 2 ^ 16

/-- KIND differs, or DIST moves by more than 2 m (R526). -/
def tdrChanged (old new : W32) : Bool :=
  tdrKind old != tdrKind new || decide (tdrDist old + 20 < tdrDist new ∨ tdrDist new + 20 < tdrDist old)

/-- TDR_INTERVAL as it acts: 0 disables, 1 to 799 act as 800 (R529). -/
def ProbeS.tdrEvery (x : ProbeS) : Nat := if x.interval = 0 then 0 else max 800 x.interval.toNat

/-- A TDR result is recorded (R526, R529). -/
def State.tdrRecord (s : State) (p : Nat) (r : W32) : State :=
  let changed := tdrChanged (s.probe p).tdr r
  let s := s.updProbe p (fun x => { x with tdr := r, tdrTick := s.now32, probed := s.tick.n })
  let s := s.probeEvent p 0
  let s := if changed then s.probeEvent p 1 else s
  if tdrKind r = 5 ∨ tdrKind r = 7 then s.probeEvent p 4 else s

/-- The pair is in a probe slot: the sequence that the port's shuttle carries is a PROBE of VAL µs (R216). -/
def State.inSlot (s : State) (p : Nat) (v : BitVec 14) : Bool :=
  match (s.shuttle p).seqs with
  | q :: _ => decide (q.kind = .probe v.toNat)
  | [] => false

/-- TDR_PROBE (R100, R525, R526): in a probe slot of an ACTIVE port, or outside slots every TDR_INTERVAL ticks in the states that
lend the pair, starting no later than cycle 2,199. -/
def execTdrProbe (p : Port) (slot : Option (BitVec 14)) (res : TdrEnd) (cyc : Cycle) (s : State) :
    Host.Outcome State Fault Refusal :=
  let k := p.toNat
  let x := s.probe k
  let n := tdrShots slot
  let due := match slot with
    | some v => s.portActive k && s.inSlot k v
    | none => (s.port k).st.lendsPair && decide (x.tdrEvery ≠ 0) && decide (x.probed.toNat + x.tdrEvery ≤ s.now) &&
        decide (cyc.toNat ≤ 2199)
  .next (if s.domOn 10 = true ∧ due = true then
      (if n = 0 then s else s.emit (.tdr p)).tdrRecord k (tdrResult x.vf.toNat n res)
    else s)

/-- IR_RESULT (R527): every 3,200 ticks while IR_EN is 1; a surge makes the half-period again (log entry 78). -/
def execIrResult (p : Port) (kohm : W32) (s : State) : Host.Outcome State Fault Refusal :=
  let k := p.toNat
  let x := s.probe k
  .next (if s.domOn 10 = true ∧ x.irEn = true ∧ x.irAt.toNat + 3200 ≤ s.now then
      if x.irHalf then s.updProbe k (fun x => { x with irHalf := false, irAt := x.irAt + 1600 })
      else
        let v : W32 := if kohm.toNat < 100 then 0 else if 100000 < kohm.toNat then 100001 else kohm
        let s := (s.updProbe k (fun x => { x with ir := v, irTick := s.now32, irAt := s.tick.n })).probeEvent k 2
        if kohm.toNat < 100 then s.probeEvent k 3 else s
    else s)

/-- SURGE_MAINS (R528, R539): an excursion of the mains above 1,000 V, counted and logged. -/
def execSurgeMains (v : W16) (s : State) : Host.Outcome State Fault Refusal :=
  .next (if 1000 < v.toNat then
      ({ s with surgeMainsCnt := satInc s.surgeMainsCnt, surgeMainsPeak := v }).logAon 0x30 0 (v.setWidth 32)
    else s)

end Sys2Proof.Machine
end

