-- ==== Sys2Proof/Machine/StewardOps.lean ====
section
/-! DEFINITION. Shared operations of the steward (10): the scheduling trace, readiness and ready queues, bounds and
decisions, and the end of a task run. -/
namespace Sys2Proof.Machine

open Sys2Proof

/-! ## The scheduling trace (R350, R351) -/

/-- Sets bit `i` of a slice's STW_EVENT (R354). -/
def State.stwEventSet (s : State) (sl i : Nat) : State :=
  { s with stwEvent := Tab.upd 0 s.stwEvent sl (fun x => setBit x i) }

/-- The stream takes a record: every record for ALL, else those of its own slice (R351). -/
def Stream.takes (x : Stream) (r : TraceRec) : Bool := x.run && (x.all || x.slice == r.slice)

/-- A record joins the records a stream holds; one that falls 8,192 behind loses the oldest (R351). -/
def Stream.push (r : TraceRec) (x : Stream) : Stream :=
  if x.takes r then
    if 8192 ≤ x.held.length then { x with held := x.held.drop 1 ++ [r], lost := satInc x.lost }
    else { x with held := x.held ++ [r] }
  else x

/-- The slices whose streams lose a record when `r` is written (log entry 111). -/
def State.traceLosers (s : State) (r : TraceRec) : List Nat :=
  ((s.streams.map (·.1)).filter (fun k => (s.stream k).takes r && decide (8192 ≤ (s.stream k).held.length))).map
    (fun k => (s.stream k).slice.toNat)

/-- A record of the trace ring, of 8,192 records, and of the export streams: never rolled back (R29, R350; log entry 92). -/
def State.traceRec (s : State) (r : TraceRec) : State :=
  let s := s.forAll (fun t k => t.stwEventSet k 2) (s.traceLosers r)
  { s with
    trace := (s.trace ++ [r]).drop (s.trace.length + 1 - 8192)
    streams := s.streams.mapV (fun v => v.both (Stream.push r)) }

/-- A trace record of the current tick: core, cycle, kind, task, slice, ARG, CAUSE and VALUE (R350; log entry 92). -/
def State.tr (s : State) (core cyc kind task sl arg : Nat) (val : W32) (cause : Nat := 0) : State :=
  s.traceRec { tick := s.now32, cycle := BitVec.ofNat 14 cyc, core := BitVec.ofNat 2 core, kind := BitVec.ofNat 4 kind,
               task := BitVec.ofNat 12 task, slice := BitVec.ofNat 6 sl, arg := BitVec.ofNat 16 arg,
               cause := BitVec.ofNat 8 cause, val := val }

/-! ## Readiness (R322 to R328) -/

/-- The thread number of a steward core. -/
def coreThread (c : Nat) : Nat := 16 + c

/-- The task's condition holds (R322). -/
def TaskS.ready (x : TaskS) : Bool :=
  x.live && x.m != 0 && (if x.all then x.f &&& x.m == x.m else x.f &&& x.m != 0)

/-- A core runs the task. -/
def State.taskRuns (s : State) (t : Nat) : Bool :=
  (List.range 4).any (fun c => (s.thread (coreThread c)).running && (s.thread (coreThread c)).task.toNat == t)

/-- The task has an entry in a ready queue, a spill ring or a bitmap (R325). -/
def State.hasEntry (s : State) (t : Nat) : Bool :=
  let x := s.task t
  (List.range 4).any (fun c =>
    (s.coreAt c).ready.any (fun e => e.task.toNat == t) || (s.coreAt c).bitmap.any (fun k => k.toNat == t)) ||
  (s.graph x.graph.toNat).spill.any (fun e => e.2.task.toNat == t)

/-- The task is back-pressured (log entry 110). -/
def State.inBitmap (s : State) (t : Nat) : Bool :=
  (List.range 4).any (fun c => (s.coreAt c).bitmap.any (fun k => k.toNat == t))

/-- Bit [15:0] of a place in a trace record, or 0. -/
def placeArg (p : Option W32) : Nat :=
  match p with
  | some x => x.toNat % 65536
  | none => 0

/-- Makes the entry of a ready task (R325, R329): a flow member's captures and clears its flags in M and takes the next
place of the flow. -/
def State.makeEntry (s : State) (t cyc : Nat) : ReadyE × State :=
  let x := s.task t
  let since := s.now * 12500 + cyc
  match x.member with
  | some f =>
    let e : ReadyE := { task := BitVec.ofNat 12 t, flags := x.f &&& x.m, place := some (s.flowAt f.toNat).place, since := since }
    let u := (s.updFlow f.toNat (fun y => { y with place := y.place + 1 })).updTask t (fun y => { y with f := y.f &&& ~~~y.m })
    (e, u.tr x.last.toNat cyc 2 t x.slice.toNat (placeArg e.place) e.flags)
  | none => ({ task := BitVec.ofNat 12 t, since := since }, s.tr x.last.toNat cyc 2 t x.slice.toNat 0 x.f)

/-- A core's ready queue holds 64 entries (R326; log entry 110). -/
def readyMax : Nat := 64

/-- The entries in a core's ready queue (R326, R353). -/
def CoreS.queued (x : CoreS) : Nat := x.ready.length + x.policies.length

/-- Puts a number into a rising list, once. -/
def insertTask (t : Task) : List Task → List Task
  | [] => [t]
  | k :: r => if t = k then k :: r else if t.toNat < k.toNat then t :: k :: r else k :: insertTask t r

/-- A task is held by one that it back-pressured (R327; log entry 89). -/
def State.taskHeld (s : State) (t : Nat) : Bool :=
  (List.range 4).any (fun c => (s.coreAt c).held.any (fun h => h.1.toNat == t))

/-- A ready entry for a task (R326 to R328): to the ready queue of the core that last ran it, else to the spill ring of its
graph, dropped when that is full, or to the core's back-pressure bitmap. `raiser` is the task whose RAISE made it ready (log entry 89). -/
def State.queueTask (s : State) (t cyc : Nat) (raiser : Option Nat) : State :=
  let x := s.task t
  let c := x.last.toNat
  let g := s.graph x.graph.toNat
  let sl := x.slice.toNat
  let full := decide (readyMax ≤ (s.coreAt c).queued)
  if g.spillMode then
    if full || g.spill.any (fun e => e.1.toNat == c) then
      if 2 ^ g.log2 ≤ g.spill.length then
        let s := { s with stwStat := Tab.upd (0, 0) s.stwStat sl (fun v => (satInc v.1, v.2)) }
        (s.tr c cyc 8 t sl x.graph.toNat ((s.stwStat.get (0, 0) sl).1.setWidth 32)).stwEventSet sl 0
      else
        s.dramAccess sl g.pages (fun s =>
          let (e, s) := s.makeEntry t cyc
          let s := s.updGraph x.graph.toNat (fun y => { y with spill := y.spill ++ [(x.last, e)] })
          s.tr c cyc 6 t sl x.graph.toNat (BitVec.ofNat 32 (g.spill.length + 1)))
    else
      let (e, s) := s.makeEntry t cyc
      s.updCore c (fun y => { y with ready := y.ready ++ [e] })
  else if full then
    let hold := match raiser with
      | some r => if s.taskHeld t then [] else [(BitVec.ofNat 12 r, BitVec.ofNat 12 t)]
      | none => []
    (s.updCore c (fun y => { y with bitmap := insertTask (BitVec.ofNat 12 t) y.bitmap, held := y.held ++ hold })).tr
      c cyc 7 t sl (raiser.getD 0xFFFF) (BitVec.ofNat 32 t)
  else
    let (e, s) := s.makeEntry t cyc
    s.updCore c (fun y => { y with ready := y.ready ++ [e] })

/-- Evaluates a task after its flags or mask changed (R322, R325): a task that is running is evaluated at the end of its run. -/
def State.evalTask (s : State) (t cyc : Nat) (raiser : Option Nat := none) : State :=
  let x := s.task t
  if x.ready && !s.taskRuns t then
    match x.member with
    | some _ => if s.inBitmap t then s else s.queueTask t cyc raiser
    | none => if s.hasEntry t then s else s.queueTask t cyc raiser
  else s

/-- Sets a flag of a task in the pending graph state, and evaluates the task (R323). -/
def State.setTaskFlag (s : State) (t flag cyc : Nat) (raiser : Option Nat := none) : State :=
  if (s.task t).live then (s.updTask t (fun x => { x with f := setBit x.f flag })).evalTask t cyc raiser else s

/-! ## Ordered flows (R329, R330) -/

/-- A reorder buffer holds 64 values (R329). -/
def flowRoom (x : FlowS) : Nat := 64 - x.vals.length

/-- Puts a value of a released place into the sink's state words (R330): into word 8 to 15 as a ring by the release count in
word 7, which rises by one, with flag 30 (log entry 90). -/
def sinkTakes (v : W32) (x : TaskS) : TaskS :=
  let n := x.words.get 0 7
  { x with words := (x.words.set (8 + n.toNat % 8) v).set 7 (n + 1), f := setBit x.f 30 }

/-- The release count less the consumed count is 8 or more (R330). -/
def sinkFull (x : TaskS) : Bool := decide (8 ≤ (x.words.get 0 7 - x.words.get 0 6).toNat)

/-- Releases values of a place to the sink until it is full: the values left, and the sink (log entry 90). -/
def releaseVals : List W32 → TaskS → List W32 × TaskS
  | [], x => ([], x)
  | v :: t, x => if sinkFull x then (v :: t, x) else releaseVals t (sinkTakes v x)

/-! ## Run ends (R324, R329, R330) -/

/-- Ends the run of a steward core (R192, R200): AWAIT names the new mask and condition, END keeps them; a flow member's place
ends, and the task is evaluated. -/
def State.endRun (s : State) (c : Nat) (await : Option (W32 × Bool)) : State :=
  let th := s.thread (coreThread c)
  let t := th.task.toNat
  let x := s.task t
  let s := s.updThread (coreThread c) (fun y => { y with running := false, loops := [] })
  let s := s.updCore c (fun y => { y with used := y.used + (th.cycle - th.begun) })
  let s := { s with corePeak := Tab.upd 0 s.corePeak c (max (s.coreAt c).used) }
  let s := match await with
    | some (m, all) => s.updTask t (fun x => { x with m := m, all := all })
    | none => s
  let s := match x.member, th.place with
    | some f, some p => s.updFlow f.toNat (fun y => { y with ended := y.ended ++ [p] })
    | _, _ => s
  let s := s.tr c th.cycle 1 t th.slice.toNat (th.cycle - th.begun) (s.task t).m
  s.evalTask t th.cycle

/-! ## Bounds (R338, R339) -/

/-- The bound pairs that R339 assigns to the built-in policies and their defaults; none for a pair it does not list (log entry 109). -/
def boundDefault (b : Nat) : Option (W32 × W32) :=
  if b < 0x100 then
    match b % 16 with
    | 0 => some (0x1F, 0)
    | 1 => some (500, 64)
    | 2 => some (4, 64)
    | 3 => some (20, 100)
    | 4 => some (8, 8000)
    | _ => none
  else if b = 0x100 then some (200, 16)
  else if b = 0x101 then some (400, 20)
  else if b = 0x102 then some (85, 0)
  else if 0x200 ≤ b ∧ b < 0x240 then some (400, 0)
  else if 0x280 ≤ b ∧ b < 0x284 then some (0, 5)
  else none

/-- The number under which a slice's bound pair is kept: each slice has its own (R339). -/
def boundKey (sl b : Nat) : Nat := (sl + 1) * 2048 + b

/-- A bound pair of a slice, as committed (R220); a pair not set holds its default, and one of the owner's own pairs 0 and 0. -/
def State.boundOf (s : State) (sl b : Nat) : W32 × W32 :=
  match s.comBound (boundKey sl b) with
  | some x => x
  | none => (boundDefault b).getD (0, 0)

/-- The slice that sets a pair (R339): the port's owner, S0, or the bridge's owner; none when every slice has its own. -/
def State.boundHolder (s : State) (b : Nat) : Option Nat :=
  if b < 0x100 then some (s.portOwner (b / 16))
  else if b < 0x200 then some 0
  else if b < 0x280 then
    match (s.bridge (b - 0x200)).dev with
    | some d => some (s.dev d.toNat).slice.toNat
    | none => none
  else none

/-- ACTR is one of R338 (log entry 109). -/
def actrOk (a : Nat) : Bool := decide (a < 128 ∧ a % 8 < 4) || decide (0x200 ≤ a ∧ a < 0x240) || decide (0x300 ≤ a ∧ a < 0x310)

/-- The default bounds of an actuator (R338). -/
def actDefault (a : Nat) : W32 × W32 :=
  if a < 128 then
    match a % 8 with
    | 1 => (100, 0)
    | 2 => (8, 8)
    | _ => (0, 1)
  else if a < 0x300 then (64, 4096)
  else (0x80000000, 0x7FFFFFFF)

/-- The number under which an actuator's bounds are kept: a notice belongs to each slice. -/
def actKey (sl a : Nat) : Nat := if a < 0x300 then a else (sl + 1) * 32768 + a

/-- The bounds of an actuator, as committed; HIGH of ILIM is always ILIM_SET (R338, R420). -/
def State.actBoundOf (s : State) (sl a : Nat) : W32 × W32 :=
  let b := (s.comActBound (actKey sl a)).getD (actDefault a)
  if a < 128 ∧ a % 8 = 1 then (b.1, BitVec.ofNat 32 ((s.comPSet (a / 8)).ilimSet * 10)) else b

/-- The slice that sets an actuator's bounds (R338); none where no slice does. -/
def State.actHolder (s : State) (sl a : Nat) : Option Nat :=
  if a < 128 then some (s.portOwner (a / 8))
  else if a < 0x300 then
    match (s.bridge (a - 0x200)).dev with
    | some d => some (s.dev d.toNat).slice.toNat
    | none => none
  else some sl

/-- Clamps between two signed values (R220, R221). -/
def clamp (lo hi v : W32) : W32 :=
  let x := if v.toInt < lo.toInt then lo else v
  if hi.toInt < x.toInt then hi else x

/-! ## Decisions (R221, R335) -/

/-- Two decisions act on one actuator; a notice is of its own slice. -/
def Decision.same (d e : Decision) : Bool := d.actr == e.actr && (decide (d.actr.toNat < 0x300) || d.slice == e.slice)

/-- A decision dropped (R17, R19, R221): traced, and marked for the slice of an owner's task. -/
def State.superseded (s : State) (d : Decision) (cyc cause : Nat) : State :=
  let s := s.tr d.core.toNat cyc 5 d.task.toNat d.slice.toNat d.actr.toNat d.val cause
  if 32 ≤ d.task.toNat then s.stwEventSet d.slice.toNat 3 else s

/-- A pending decision by ACT or by a policy (R221): clamped to the actuator's bounds; of two tasks the lower number wins, and
a task that decides again replaces its own decision. -/
def State.decideOn (s : State) (task sl a : Nat) (v : W32) (core cyc : Nat) : State :=
  let b := s.actBoundOf sl a
  let w := clamp b.1 b.2 v
  let s := if w ≠ v then s.tr core cyc 4 task sl a v else s
  let s := s.tr core cyc 3 task sl a w
  let d : Decision := { actr := BitVec.ofNat 15 a, core := BitVec.ofNat 2 core, task := BitVec.ofNat 12 task, slice := BitVec.ofNat 6 sl, val := w }
  match s.decisions.find? (fun e => e.same d) with
  | none => { s with decisions := s.decisions ++ [d] }
  | some e =>
    let keep := s.decisions.filter (fun x => !x.same d)
    if e.task = d.task then { s with decisions := keep ++ [d] }
    else if d.task.toNat < e.task.toNat then ({ s with decisions := keep ++ [d] } : State).superseded e cyc 3
    else s.superseded d cyc 3

end Sys2Proof.Machine
end

