-- ==== Sys2Proof/Machine/Flags.lean ====
section
/-! DEFINITION. The predicates of a Coresh machine (R190, R193, R196): reading, writing, guards, comparisons and PLOG. -/
namespace Sys2Proof.Machine

open Sys2Proof

/-- Predicate `i` (R190): p0 reads 1. -/
def Thread.pred (x : Thread) (i : Pred) : Bool := i == 0 || x.p.getLsbD i.toNat

/-- Writes a predicate (R190, R196): a write of p0 is ignored. -/
def Thread.setPred (i : Pred) (v : Bool) (x : Thread) : Thread :=
  if i = 0 then x else { x with p := if v then setBit x.p i.toNat else clrBit x.p i.toNat }

/-- The guard holds (R193): pP XOR N is 1. -/
def Thread.holds (x : Thread) (gd : Guard) : Bool := (x.pred gd.pr).xor gd.neg

/-- COND of CMP and CMPI (R196). -/
def condHolds (c : BitVec 3) (a b : W32) : Bool :=
  match c.toNat with
  | 0 => a == b
  | 1 => a != b
  | 2 => decide (a.toInt < b.toInt)
  | 3 => decide (b.toInt ≤ a.toInt)
  | 4 => decide (a.toNat < b.toNat)
  | _ => decide (b.toNat ≤ a.toNat)

/-- FN of PLOG (R196). -/
def plogFn (fn : BitVec 2) (a b : Bool) : Bool :=
  match fn.toNat with
  | 0 => a && b
  | 1 => a || b
  | 2 => a.xor b
  | _ => a && !b

end Sys2Proof.Machine
end

