-- ==== Sys2Proof/Machine/Operands.lean ====
section
/-! DEFINITION. The operand forms of Coresh and the frame of every Coresh instruction: registers, immediates, costs, waits,
loops and the end of a program or run (06). -/
namespace Sys2Proof.Machine

open Sys2Proof

/-! ## Units and registers (R190, R191) -/

/-- The number of a unit's thread: 0 to 15 the looms, 16 to 19 the steward cores. -/
def unitKey : CUnit → Nat
  | .loom p => p.toNat
  | .core c => coreThread c.toNat

/-- General register `r` (R190): g0 reads zero. -/
def Thread.reg (x : Thread) (r : Reg) : W32 := if r = 0 then 0 else x.g.get 0 r.toNat

/-- Writes a general register (R190): a write of g0 is ignored. -/
def Thread.setReg (r : Reg) (v : W32) (x : Thread) : Thread := if r = 0 then x else { x with g := x.g.set r.toNat v }

/-- IMM15 sign-extended (R195). -/
def immS (i : BitVec 15) : W32 := i.signExtend 32
/-- IMM15 zero-extended (R195). -/
def immZ (i : BitVec 15) : W32 := i.setWidth 32

/-! ## Costs and waits (R195, R226) -/

/-- CNT, RTY and so the cost of a sheaf instruction: 32 + 8 × (CNT + 1) (R195). -/
def sheafCost (cnt : BitVec 3) : Nat := 32 + 8 * (cnt.toNat + 1)

/-- The registers that an instruction reads or writes (R226 item 3). -/
def coreshRegs : Instr → List Reg
  | .add _ _ d a b | .sub _ _ d a b | .and _ _ d a b | .or _ _ d a b | .xor _ _ d a b | .shl _ _ d a b | .shr _ _ d a b
  | .sar _ _ d a b | .min _ _ d a b | .max _ _ d a b | .mul _ _ d a b => [d, a, b]
  | .addi _ _ d a _ | .andi _ _ d a _ | .ori _ _ d a _ | .xori _ _ d a _ | .shli _ _ d a _ | .shri _ _ d a _ => [d, a]
  | .movi _ _ d _ | .movhi _ _ d _ | .rds _ _ d _ | .ldc _ _ d _ _ | .probe _ _ d _ | .weave _ _ d _ => [d]
  | .cmp _ _ _ _ a b => [a, b]
  | .cmpi _ _ _ _ a _ | .await (.core _) _ _ a _ | .stc _ _ a _ _ => [a]
  | .loop _ _ d _ _ => [d]
  | .raise _ _ (.event _ a) => [a]
  | .poll _ _ d _ _ e => [d, e]
  | .take _ _ d _ _ _ | .give _ _ d _ _ _ | .setup _ _ d _ _ _ | .ping _ _ d _ _ _ | .defer _ _ d _ _ _
  | .suspend _ _ d _ _ _ | .resume _ _ d _ _ _ => [d]
  | .bound _ _ d a _ | .ema _ _ d a _ => [d, a]
  | .snap _ _ d _ => [d]
  | .act _ _ a _ | .timer _ _ _ _ a | .flow _ _ _ a | .trace _ _ a => [a]
  | _ => []

/-- The registers into which a sequence in progress will write (R205, R209): gD, and gE of POLL. -/
def WSeq.writes (q : WSeq) : List Reg := if q.weft then [] else (if q.kind == .poll then [q.d, q.e] else [q.d]).filter (· != 0)

/-- A bus instruction in progress will write one of these registers (R226 item 3). -/
def State.regsPend (s : State) (k : Nat) (rs : List Reg) : Bool :=
  (s.shuttle k).seqs.any (fun q => q.writes.any (fun r => rs.contains r))

/-- A bus instruction in progress names the context (R202). -/
def State.ctxPend (s : State) (k i : Nat) : Bool := (s.shuttle k).seqs.any (fun q => match q.kind with
  | .probe _ => false
  | _ => q.ctx.toNat == i)

/-- The first cycle at which registers, or a context under 16 + i, are written (R226 item 3). -/
def Thread.readyAt (x : Thread) (ks : List Nat) : Nat := ks.foldl (fun m r => max m (x.ready.get 0 r)) x.cycle

/-! ## Loops and ends (R192, R198, R199) -/

/-- The back edges at the end of a loop body (R199): 1 cycle each, the next iteration number into the counter register. -/
def settle : List LoopS → Nat → Thread → Thread
  | [], pc, x => { x with pc := pc, loops := [] }
  | l :: r, pc, x =>
    if pc = l.last + 1 then
      let x := { x with cycle := x.cycle + 1 }
      if l.i + 1 < l.n then
        { x.setReg l.ctr (BitVec.ofNat 32 (l.i + 1)) with pc := l.first, loops := { l with i := l.i + 1 } :: r }
      else settle r pc x
    else { x with pc := pc, loops := l :: r }

/-- The thread goes on at `pc` from cycle `cyc`; past its last instruction the program or task run ends (R192). -/
def State.goOn (s : State) (u : CUnit) (pc cyc : Nat) : State :=
  let x := s.thread (unitKey u)
  let x := settle x.loops pc { x with cycle := cyc }
  let s := s.updThread (unitKey u) (fun _ => x)
  if x.code.length ≤ x.pc then
    match u with
    | .loom _ => s.updThread (unitKey u) (fun x => { x with running := false, loops := [] })
    | .core c => s.endRun c.toNat none
  else s

/-- An instruction that starts at `c0` and costs `cost` is passed. -/
def State.advance (s : State) (u : CUnit) (c0 cost : Nat) : State := s.goOn u ((s.thread (unitKey u)).pc + 1) (c0 + cost)

/-! ## The frame of an instruction (R193, R226, R228) -/

/-- The unit is about to execute this instruction: its thread runs, the word at its pc decodes to it, and the tick's work
goes on within the window (log entry 71). -/
def State.atInstr (s : State) (u : CUnit) (i : Instr) : Bool :=
  let x := s.thread (unitKey u)
  x.running && s.working && decide (x.cycle < 12000) &&
    (match x.code[x.pc]? with
     | some w => decodeCoresh u w == some i
     | none => false)

/-- The outcome of a Coresh instruction: a fault when no unit ever runs it (R228); nothing while its unit is elsewhere;
one cycle when its guard fails (R193), else its effect `f`, from the cycle at which its registers are written; nothing while
it waits (R226 item 3, `wait`). `skip` is what it does when its guard fails (log entry 71). -/
def State.coresh (s : State) (u : CUnit) (i : Instr) (gd : Guard) (wait : Bool) (f : Nat → State → State)
    (skip : Nat → State → State) : Host.Outcome State Fault Refusal :=
  if i.coreshWf then
    if s.atInstr u i then
      let x := s.thread (unitKey u)
      if x.holds gd then
        if wait || s.regsPend (unitKey u) (coreshRegs i) then .next s
        else .next (f (x.readyAt ((coreshRegs i).map (·.toNat))) s)
      else .next (skip x.cycle s)
    else .next s
  else .fault .notAdmitted

/-- What a guarded instruction that does not execute does: 1 cycle and no effect (R193). -/
def State.skip1 (u : CUnit) (c0 : Nat) (s : State) : State := s.advance u c0 1

/-- An instruction that writes gD from its unit's state at a fixed cost. -/
def State.coreshReg (s : State) (u : CUnit) (i : Instr) (gd : Guard) (d : Reg) (cost : Nat) (v : Thread → W32) :
    Host.Outcome State Fault Refusal :=
  s.coresh u i gd false
    (fun c0 t => (t.updThread (unitKey u) (fun x => x.setReg d (v x))).advance u c0 cost) (State.skip1 u)

/-- An instruction that writes pPD from its unit's state in 1 cycle. -/
def State.coreshPred (s : State) (u : CUnit) (i : Instr) (gd : Guard) (pd : Pred) (v : Thread → Bool) :
    Host.Outcome State Fault Refusal :=
  s.coresh u i gd false
    (fun c0 t => (t.updThread (unitKey u) (fun x => x.setPred pd (v x))).advance u c0 1) (State.skip1 u)

end Sys2Proof.Machine
end

