-- ==== Sys2Proof/Machine/Flow.lean ====
section
/-! DEFINITION. Coresh instructions of flow, special values, events, contexts and state words (06). -/
namespace Sys2Proof.Machine

open Sys2Proof

/-- END (R192, R195, R200): the program ends, or the task run, whose mask is kept. -/
def execEndRun (u : CUnit) (gd : Guard) (s : State) : Host.Outcome State Fault Refusal :=
  s.coresh u (.endRun u gd) gd false
    (fun c0 t =>
      let t := t.updThread (unitKey u) (fun x => { x with cycle := c0 + 1 })
      match u with
      | .loom p => t.updThread p.toNat (fun x => { x with running := false, loops := [] })
      | .core c => t.endRun c.toNat none)
    (State.skip1 u)

/-- The special value SEL of a unit at cycle `c0` (R197). -/
def State.special (s : State) (u : CUnit) (sel : BitVec 4) (c0 : Nat) : W32 :=
  let x := s.thread (unitKey u)
  match sel.toNat with
  | 0 => BitVec.ofNat 32 (s.now % 2 ^ x.period)
  | 1 => s.now32
  | 2 => BitVec.ofNat 32 c0
  | 3 => match u with
    | .loom p => BitVec.ofNat 32 (s.port p.toNat).speed.code
    | .core _ => 0
  | 4 => x.slice.setWidth 32
  | 5 => BitVec.ofNat 32 (unitKey u)
  | 6 => x.flags
  | _ => match u with
    | .core c => c.setWidth 32
    | .loom _ => 0

/-- RDS (R197). -/
def execRds (u : CUnit) (gd : Guard) (d : Reg) (sel : BitVec 4) (s : State) : Host.Outcome State Fault Refusal :=
  s.coresh u (.rds u gd d sel) gd false
    (fun c0 t => (t.updThread (unitKey u) (fun x => x.setReg d (t.special u sel c0))).advance u c0 1) (State.skip1 u)

/-- A branch to `t` (R198): one to the first instruction after the innermost loop body ends the loop. -/
def State.branch (s : State) (u : CUnit) (t cyc : Nat) : State :=
  let s := s.updThread (unitKey u) (fun x => match x.loops with
    | l :: r => if t = l.last + 1 then { x with loops := r } else x
    | [] => x)
  s.goOn u t cyc

/-- BR (R193, R198): 2 cycles whether or not its guard holds. -/
def execBr (u : CUnit) (gd : Guard) (off : W16) (s : State) : Host.Outcome State Fault Refusal :=
  s.coresh u (.br u gd off) gd false
    (fun c0 t => t.branch u ((t.thread (unitKey u)).pc + 1 + off.toNat) (c0 + 2))
    (fun c0 t => t.advance u c0 2)

/-- LOOP (R193, R199): N iterations of LEN instructions; with a failed guard 1 cycle, and execution goes on after the body. -/
def execLoop (u : CUnit) (gd : Guard) (d : Reg) (n : Byte) (len : BitVec 11) (s : State) : Host.Outcome State Fault Refusal :=
  s.coresh u (.loop u gd d n len) gd false
    (fun c0 t =>
      let pc := (t.thread (unitKey u)).pc
      (t.updThread (unitKey u) (fun x => { x.setReg d 0 with
        loops := { first := pc + 1, last := pc + len.toNat, ctr := d, i := 0, n := n.toNat } :: x.loops })).goOn u (pc + 1) (c0 + 2))
    (fun c0 t => t.goOn u ((t.thread (unitKey u)).pc + 1 + len.toNat) (c0 + 1))

/-- AWAIT (R200): until a cycle, until the shuttle is idle, or the end of a task run with a new mask. -/
def execAwait (u : CUnit) (gd : Guard) (mode : BitVec 2) (a : Reg) (cyc : BitVec 14) (s : State) :
    Host.Outcome State Fault Refusal :=
  s.coresh u (.await u gd mode a cyc) gd (mode == 1 && decide ((s.shuttle (unitKey u)).seqs ≠ []))
    (fun c0 t =>
      match u with
      | .loom p =>
        let till := if mode = 0 then cyc.toNat else (t.shuttle p.toNat).ended
        t.goOn u ((t.thread (unitKey u)).pc + 1) (max (c0 + 2) till)
      | .core c =>
        let t := t.updThread (unitKey u) (fun x => { x with cycle := c0 + 2 })
        t.endRun c.toNat (some ((t.thread (unitKey u)).reg a, mode == 3)))
    (State.skip1 u)

/-- RAISE (R218, R222): on a loom a pending event record with CODE, gA and the handle of the context at cx; on a steward core
a task flag, which may make the task ready in the same tick. -/
def execRaise (u : CUnit) (gd : Guard) (op : RaiseOp) (s : State) : Host.Outcome State Fault Refusal :=
  s.coresh u (.raise u gd op) gd false
    (fun c0 t =>
      let x := t.thread (unitKey u)
      match op with
      | .event code a =>
        let h := match x.cx with
          | some i => (t.ctx i.toNat).handle.toNat
          | none => 0
        (t.occur (srcKey x.slice.toNat 15 code.toNat) (BitVec.ofNat 64 (h * 2 ^ 32 + (x.reg a).toNat))).advance u c0 4
      | .flag k f => (t.setTaskFlag k.toNat f.toNat (c0 + 2) (some x.task.toNat)).advance u c0 2)
    (State.skip1 u)

/-- A guard that always holds: that of SELC, which has none (R193). -/
def noGuard : Guard := { neg := false, pr := 0 }

/-- SELC (R201). -/
def execSelc (p : Port) (idx : CtxIdx) (s : State) : Host.Outcome State Fault Refusal :=
  s.coresh (.loom p) (.selc p idx) noGuard false
    (fun c0 t => (t.updThread p.toNat (fun x => { x with cx := some idx })).advance (.loom p) c0 2) (State.skip1 (.loom p))

/-- SELCR (R201): cx plus the signed OFF; a null cx stays null. -/
def execSelcr (p : Port) (gd : Guard) (off : W16) (s : State) : Host.Outcome State Fault Refusal :=
  s.coresh (.loom p) (.selcr p gd off) gd false
    (fun c0 t => (t.updThread p.toNat (fun x => { x with cx := x.cx.map (· + off.signExtend 23) })).advance (.loom p) c0 2)
    (State.skip1 (.loom p))

/-- Half of a 64-bit word (R202). -/
def half (w : W64) (h : Bool) : W32 := BitVec.ofNat 32 (if h then w.toNat / 2 ^ 32 else w.toNat)

/-- A 64-bit word with one half replaced. -/
def setHalf (w : W64) (h : Bool) (v : W32) : W64 :=
  if h then BitVec.ofNat 64 (v.toNat * 2 ^ 32 + w.toNat % 2 ^ 32)
  else BitVec.ofNat 64 (w.toNat / 2 ^ 32 * 2 ^ 32 + v.toNat)

/-- What LDC loads from a context (R202): half of a word of the pending version; zero from one that is FREE. -/
def Ctx.load (c : Ctx) (word : BitVec 4) (h : Bool) : W32 := if c.st = .free then 0 else half (c.word word.toNat) h

/-- What STC stores into a context (R163, R202): SCRATCH or TKT_TIMEOUT; nothing into one that is FREE. -/
def Ctx.store (word : BitVec 4) (h : Bool) (v : W32) (c : Ctx) : Ctx :=
  if c.st = .free then c
  else if word = 7 then { c with scratch := setHalf c.scratch h v }
  else if word = 2 && h then { c with tktTimeout := v }
  else c

/-- LDC (R202, R203): on a loom it waits for a bus instruction that names the context. -/
def execLdc (u : CUnit) (gd : Guard) (d : Reg) (word : BitVec 4) (h : Bool) (s : State) : Host.Outcome State Fault Refusal :=
  let cx := (s.thread (unitKey u)).cx
  let wait := match u, cx with
    | .loom p, some i => s.ctxPend p.toNat i.toNat
    | _, _ => false
  s.coresh u (.ldc u gd d word h) gd wait
    (fun c0 t =>
      match u with
      | .loom p =>
        match cx with
        | some i =>
          let c1 := max c0 ((t.thread p.toNat).ready.get 0 (16 + i.toNat))
          (t.updThread p.toNat (fun x => x.setReg d ((t.ctx i.toNat).load word h))).advance u c1 2
        | none => (t.updThread p.toNat (fun x => x.setReg d 0)).advance u c0 2
      | .core _ =>
        let x := t.thread (unitKey u)
        (t.updThread (unitKey u) (fun y => y.setReg d ((t.task x.task.toNat).words.get 0 word.toNat))).advance u c0 2)
    (State.skip1 u)

/-- STC (R163, R202, R203). -/
def execStc (u : CUnit) (gd : Guard) (a : Reg) (word : BitVec 4) (h : Bool) (s : State) : Host.Outcome State Fault Refusal :=
  s.coresh u (.stc u gd a word h) gd false
    (fun c0 t =>
      let x := t.thread (unitKey u)
      match u with
      | .loom _ =>
        match x.cx with
        | some i => (t.updCtx i.toNat (Ctx.store word h (x.reg a))).advance u c0 2
        | none => t.advance u c0 2
      | .core _ => (t.updTask x.task.toNat (fun y => { y with words := y.words.set word.toNat (x.reg a) })).advance u c0 2)
    (State.skip1 u)

end Sys2Proof.Machine
end

