-- ==== Sys2Proof/Machine/Receive.lean ====
section
/-! DEFINITION. What a port's shuttle makes of the packets that it receives (04 R107, R115, R118, R122; 06 R207). -/
namespace Sys2Proof.Machine

open Sys2Proof

/-- A reply to an attempt, as the shuttle takes it (R115, R122, R125). -/
inductive Reply where
  /-- ACK with its NEXT (R115). -/
  | ack (next : BitVec 4)
  | nak
  | stall
  /-- TICKET with its number (R115, R147). -/
  | ticket (n : W16)
  /-- ROUTE_ERR with the tier, the port and the reason of the hub that reports (R115). -/
  | routeErr (tier : BitVec 3) (port : BitVec 5) (reason : BitVec 4)
  /-- A damaged handshake (R125). -/
  | damaged
  /-- No SD within the response timeout (R69). -/
  | noReply
  /-- An IN sheaf: the packets received undamaged up to the first damaged one, whether one was damaged, and whether the reply was longer
  than the attempt admits (R122, R207). -/
  | sheaf (pkts : List Pkt) (damaged excess : Bool)
deriving DecidableEq, Repr

/-- A received packet (R107): a handshake with its body, a data packet, or a damaged packet, of which `hs` says that its PID is intact and
a handshake's. -/
inductive Rx where
  | hs (t : BitVec 5) (body : W16)
  | data (x : Pkt)
  | bad (hs : Bool)
deriving DecidableEq, Repr

/-- TYPE is a handshake's (R108). -/
def hsType (t : BitVec 5) : Bool := [ptAck, ptNak, ptStall, ptTicket, ptRouteErr].contains t

/-- The CRC-16 that follows `n` bytes is theirs (R114). -/
def crc16Ok (n : Nat) (bs : List Byte) : Bool := (bs.drop n).take 2 == beBytes 2 (crc16 (bs.take n)).toNat

/-- A packet as received (R107): `lim` is the payload limit, and `blanked` says that the receiver was blanked meanwhile (R98). -/
def decodeRx (lim : Nat) (blanked : Bool) (x : RxPkt) : Rx :=
  match x.bytes with
  | [] => .bad false
  | b :: rest =>
    let t := b.setWidth 5
    if b ≠ pid t then .bad false
    else if blanked || decide (x.fin ≠ .ed) then .bad (hsType t)
    else if hsType t then
      if rest.length = 4 ∧ crc16Ok 3 x.bytes = true then .hs t (BitVec.ofNat 16 (beNat (rest.take 2))) else .bad true
    else if t = ptData ∧ 4 ≤ rest.length ∧ crc16Ok 3 x.bytes = true then
      let h := beNat (rest.take 2)
      let len := h % 2 ^ 11
      let pay := (rest.drop 4).take len
      let tail := rest.drop (4 + len)
      if len ≤ lim ∧ pay.length = len ∧ tail = (if len = 0 then [] else leBytes 4 (crc32 pay).toNat) then
        .data { seq := BitVec.ofNat 4 (h / 2 ^ 12), last := h / 2 ^ 11 % 2 == 1, data := pay }
      else .bad false
    else .bad false

/-- The packets that belong to a sheaf (R118): each begins within `gw` cycles of the end of the one before, and none follows an undamaged
packet with LAST. -/
def sheafOf (dec : RxPkt → Rx) (gw : Nat) : Option Nat → List RxPkt → List RxPkt
  | _, [] => []
  | prev, x :: t =>
    if prev.all (fun e => decide (x.first.toNat ≤ e + gw)) then
      match dec x with
      | .data y => if y.last then [x] else x :: sheafOf dec gw (some x.till.toNat) t
      | _ => x :: sheafOf dec gw (some x.till.toNat) t
    else []

/-- The undamaged packets at the head of a sheaf, within the bytes that the attempt admits. -/
def sheafHead (dec : RxPkt → Rx) : Nat → List RxPkt → List Pkt
  | _, [] => []
  | room, x :: t =>
    if x.bytes.length ≤ room then
      match dec x with
      | .data y => y :: sheafHead dec (room - x.bytes.length) t
      | _ => []
    else []

/-- The longest reply that a sheaf of `n` packets of `mps` bytes admits (R112, R207). -/
def sheafRoom (n mps : Nat) : Nat := n * (if mps = 0 then 5 else 9 + mps)

/-- An IN sheaf as received: at most `n` packets of `mps` bytes (R122, R207). -/
def takeSheaf (dec : RxPkt → Rx) (gw n mps : Nat) (xs : List RxPkt) : Reply :=
  let l := sheafOf dec gw none xs
  let kept := sheafHead dec (sheafRoom n mps) (l.take n)
  .sheaf kept (decide (kept.length < l.length)) (decide (n < l.length) || decide (sheafRoom n mps < (l.map (·.bytes.length)).sum))

/-- A handshake by its TYPE (R115). -/
def handshakeOf (t : BitVec 5) (body : W16) : Reply :=
  if t = ptAck then .ack (BitVec.ofNat 4 (body.toNat / 2 ^ 12))
  else if t = ptNak then .nak
  else if t = ptStall then .stall
  else if t = ptTicket then .ticket body
  else .routeErr (BitVec.ofNat 3 (body.toNat / 2 ^ 13)) (BitVec.ofNat 5 (body.toNat / 2 ^ 8)) (BitVec.ofNat 4 (body.toNat / 2 ^ 4))

/-- What received packets are in answer to an attempt (R125, R207): the longest reply is one handshake, or the sheaf that the attempt
admits. A damaged packet counts as a handshake where its PID says so or the attempt admits nothing else (log entries 47, 49). -/
def decodeReply (dec : RxPkt → Rx) (gw : Nat) (sheaf : Option (Nat × Nat)) (xs : List RxPkt) : Reply :=
  match xs with
  | [] => .noReply
  | x :: t =>
    match dec x, sheaf with
    | .hs ty body, _ => if t = [] then handshakeOf ty body else .damaged
    | .bad true, _ => .damaged
    | _, some (n, mps) => takeSheaf dec gw n mps xs
    | _, none => .damaged

/-- A packet as the receiver of a port delivers it in this tick (R98, R107). -/
def State.rxOf (s : State) (p : Nat) (x : RxPkt) : Rx :=
  decodeRx (payloadLimit (s.port p).speed) ((s.port p).blanked (s.clockAt x.first) (s.clockAt x.till)) x

/-- The reply to an attempt that a port has received; `sheaf` gives the packets and their size where the attempt admits a sheaf. -/
def State.replyOf (s : State) (p : Nat) (sheaf : Option (Nat × Nat)) (xs : List RxPkt) : Reply :=
  decodeReply (s.rxOf p) (gwOf (s.port p).speed / 100) sheaf xs

/-- The response timeout of a port in system clocks (R69). -/
def State.responseTime (s : State) (p : Nat) : Nat := toOf (s.port p).speed / 100

/-- A reply begins in time after packets whose sending ended at `sent`, and has ended by `cyc` within the tick's window (R27, R69). -/
def State.inTime (s : State) (p sent cyc : Nat) (xs : List RxPkt) : Bool :=
  (match xs with
   | x :: _ => decide (sent ≤ x.first.toNat ∧ x.first.toNat ≤ sent + s.responseTime p)
   | [] => false) &&
  xs.all (fun x => decide (x.first ≤ x.till ∧ x.till.toNat ≤ cyc)) && decide (cyc ≤ 12000)

end Sys2Proof.Machine
end

