-- ==== Sys2Proof/Machine/WireOps.lean ====
section
/-! DEFINITION. Wire sequences (04, 06): the checks of R204, what an attempt sends, what a reply does, and how the shuttle goes
from one sequence to the next. -/
namespace Sys2Proof.Machine

open Sys2Proof

/-! ## Outcomes of R205 -/

def oDone : Nat := 0x0
def oPartial : Nat := 0x1
def oNak : Nat := 0x2
def oStall : Nat := 0x3
def oTicket : Nat := 0x4
def oRouteErr : Nat := 0x5
def oNoReply : Nat := 0x6
def oDamaged : Nat := 0x7
def oIdle : Nat := 0x8
def oWaiting : Nat := 0x9
def oHalted : Nat := 0xA
def oNotActive : Nat := 0xB
def oMismatch : Nat := 0xC

/-- The result word of R205. -/
def resultWord (ended : Bool) (attempts outcome : Nat) : W32 :=
  BitVec.ofNat 32 (bnat ended * 128 + attempts % 8 * 16 + outcome % 16)

/-! ## The transfer in progress (R162 W4, R204) -/

/-- The transfer in progress on a context: its queue and its entry. -/
def State.transferOf (s : State) (i : Nat) : Option (Nat × Entry) :=
  let c := s.ctx i
  if c.queue = 0 then none
  else
    let qs := s.queue (qKey c.slice.toNat c.queue.toNat)
    match qs.entries.find? (fun e => qs.slot e.pos == c.entry.toNat) with
    | some e => some (c.queue.toNat, e)
    | none => none

/-- The record of an entry's ticket is committed (R151, R214). -/
def State.recordIn (s : State) (sl q : Nat) (e : Entry) : Option TicketRec :=
  match (s.comQueue (qKey sl q)).entryAt e.pos with
  | some x => if x.record.isSome then e.record else none
  | none => none

/-- Packets of `mps` bytes that `n` bytes take (R210). -/
def packets (n mps : Nat) : Nat := (n + mps - 1) / max 1 mps

/-- A sheaf of at most CNT + 1 packets for `remain` bytes, at least one (R210, R211). -/
def sheafLen (cnt remain mps : Nat) : Nat := max 1 (min (cnt + 1) (packets remain mps))

/-- `k` packets of at most `m` bytes. -/
def chunks (m : Nat) : Nat → List Byte → List (List Byte)
  | 0, _ => []
  | k + 1, bs => bs.take m :: chunks m k (bs.drop m)

/-- The OUT sheaf of `k` packets of a transfer from byte `off` (R211). -/
def outForm (e : Entry) (off k mps : Nat) : Attempt := .outSheaf (chunks mps k (e.data.drop off))

/-! ## The checks of R204 -/

/-- TYPE, DIR and DEFERRED suit the instruction (R204, R209 to R214). -/
def kindSuits (k : WKind) (c : Ctx) : Bool :=
  match k with
  | .poll => !c.deferred && c.typ != 0 && c.dirIn
  | .take => !c.deferred && (c.typ == 0 || c.dirIn)
  | .give => !c.deferred && !c.dirIn
  | .setup => !c.deferred && c.typ == 0
  | .ping => !c.deferred && c.typ != 0 && !c.dirIn
  | .defer => c.deferred
  | .probe _ => true

/-- The instruction needs a transfer in progress (R204, R209). -/
def kindNeeds (k : WKind) (c : Ctx) : Bool :=
  match k with
  | .take | .give | .setup | .defer => true
  | .poll => decide (4 < c.mps.toNat)
  | .ping | .probe _ => false

/-- TAKE or GIVE on EP0 whose control transfer's next stage is not a data stage in its direction (R204). -/
def stageWrong (k : WKind) (c : Ctx) (x : Option (Nat × Entry)) : Bool :=
  match x with
  | some (_, e) =>
    c.typ == 0 && (match k with
      | .take => !(decide (e.stage = .data) && setupIn e.q3)
      | .give => !(decide (e.stage = .data) && !setupIn e.q3)
      | _ => false)
  | none => false

/-- The program that a thread runs. -/
def State.runProg (s : State) (p : Nat) : Option Prog := (s.schedAt p).progs.find (s.thread p).seg.toNat

/-- The context's MPS exceeds that charged at admission, or its speed is not that at admission (R204, R244). -/
def State.offCharge (s : State) (p i : Nat) (weft : Bool) : Bool :=
  let c := s.ctx i
  match s.runProg p with
  | some g =>
    decide (c.sp ≠ g.speed) ||
    (!weft && (match g.named.find i with
      | some m => decide (m < c.mps.toNat)
      | none => false))
  | none => false

/-- The first condition of R204 that holds, as its outcome. -/
def State.wireCheck (s : State) (p : Nat) (k : WKind) (i : Nat) (weft : Bool) : Option Nat :=
  let c := s.ctx i
  let x := s.transferOf i
  if c.port.toNat ≠ p || s.offCharge p i weft || !kindSuits k c || stageWrong k c x then some oMismatch
  else if !(decide (c.st = .active ∨ c.st = .halted)) || !s.portActive p then some oNotActive
  else if c.st = .halted then some oHalted
  else if kindNeeds k c && x.isNone then some oIdle
  else none

/-! ## What an attempt sends (R209 to R214) -/

/-- SETUP's next stage (R130, R212). -/
def setupForm (c : Ctx) (e : Entry) (cnt : Nat) : Attempt :=
  let mps := c.mps.toNat
  let k := sheafLen cnt c.remain.toNat mps
  match e.stage with
  | .setup => .setupStage
  | .data => if setupIn e.q3 then .inSheaf k else outForm e c.moved.toNat k mps
  | .status => if setupIn e.q3 && setupLength e.q3 != 0 then .statusOut else .statusIn

/-- What DEFER performs (R214); none for WAITING, also until the record of the ticket before is committed (R152). -/
def State.deferForm (s : State) (i q : Nat) (e : Entry) (cnt : Nat) : Option Attempt :=
  let c := s.ctx i
  let committed := (s.comCtx i).tktValid
  let mps := c.mps.toNat
  let ctl := c.typ == 0
  match s.recordIn c.slice.toNat q e with
  | some r => some (.inSheaf (sheafLen cnt (r.len.toNat - e.stageDone) mps))
  | none =>
    if c.tktValid && ctl && !setupIn e.q3 && decide (e.stageDone < e.length) then
      some (outForm e e.stageDone (sheafLen cnt (e.length - e.stageDone) mps) mps)
    else if c.tktValid || committed || e.record.isSome then none
    else if ctl then some .setupStage
    else
      let k := sheafLen cnt c.remain.toNat mps
      some (if c.dirIn then .inSheaf k else outForm e c.moved.toNat k mps)

/-- The form of the next attempt; none for WAITING (log entry 83). -/
def State.planWire (s : State) (k : WKind) (i cnt : Nat) : Option Attempt :=
  let c := s.ctx i
  match k, s.transferOf i with
  | .poll, _ => some (.inSheaf 1)
  | .ping, _ => some .ping
  | .probe _, _ => some .slot
  | .take, some _ => some (.inSheaf (sheafLen cnt c.remain.toNat c.mps.toNat))
  | .give, some (_, e) => some (outForm e c.moved.toNat (sheafLen cnt c.remain.toNat c.mps.toNat) c.mps.toNat)
  | .setup, some (_, e) => some (setupForm c e cnt)
  | .defer, some (q, e) => s.deferForm i q e cnt
  | _, none => none

/-- The packets that the port sends for an attempt; `req` is the request of a setup stage (R109, R112, R117, R130; log entry 83). -/
def attemptPackets (c : Ctx) (req : List Byte) (a : Attempt) : List (List Byte) :=
  match a with
  | .inSheaf n => [token ptIn c c.seq (n - 1)]
  | .outSheaf pk => token ptOut c c.seq (pk.length - 1) :: sheafPackets c.seq pk
  | .ping => [token ptPing c c.seq 0]
  | .setupStage => [token ptSetup c c.tag 0, dataPacket 0 true req]
  | .statusIn => [token ptIn c c.seq 0]
  | .statusOut => [token ptOut c c.seq 0, dataPacket c.seq true []]
  | .slot => []

/-- The packets and their size of the sheaf that an attempt admits as its reply (R130, R207); none for one that a handshake answers. -/
def Attempt.sheaf (mps : Nat) : Attempt → Option (Nat × Nat)
  | .inSheaf n => some (n, mps)
  | .statusIn => some (1, 0)
  | _ => none

/-- The packets of an attempt on the context of a sequence. -/
def State.packetsOf (s : State) (i : Nat) (a : Attempt) : List (List Byte) :=
  attemptPackets (s.ctx i) (leBytes 8 (((s.transferOf i).map (·.2.q3.toNat)).getD 0)) a

/-- The sequence at the head of the shuttle begins an attempt at cycle `t0`: the port sends its packets; a probe slot sends nothing. -/
def State.launch (s : State) (p : Nat) (q : WSeq) (a : Attempt) (t0 : Nat) : State :=
  let i := q.ctx.toNat
  let pks := s.packetsOf i a
  let q := { q with form := a, first := (s.ctx i).seq, sentAt := s.sentBy p t0 pks }
  (s.transmit p t0 pks).updShuttle p (fun x => { x with seqs := q :: x.seqs.drop 1 })

/-! ## What a reply does to the transfer -/

/-- What an attempt came to: the state, the outcome, and the status with which the transfer ends. -/
structure Reacted where
  st : State
  out : Nat
  fin : Option Nat := none

/-- The packets of an IN sheaf that are intact (R122): undamaged and numbered in order from `f`, up to LAST and up to the number asked
for. -/
def intact : Nat → BitVec 4 → List Pkt → List Pkt
  | 0, _, _ => []
  | _, _, [] => []
  | k + 1, f, x :: t => if x.seq = f then (if x.last then [x] else x :: intact k (f + 1) t) else []

/-- The sheaf ended whole: LAST, or as many packets as the token allowed (R118). -/
def sheafWhole (n : Nat) (ps : List Pkt) : Bool :=
  decide (n ≤ ps.length) || (match ps.getLast? with
    | some x => x.last
    | none => false)

/-- Bytes of packets. -/
def pktBytes (ps : List Pkt) : List Byte := (ps.map (·.data)).flatten

/-- The outcome of an IN sheaf of which `ps` were received undamaged and `ok` are intact, and which was longer than admitted when `excess`
(R125, R207; log entry 49). -/
def inOutcome (n : Nat) (ps ok : List Pkt) (damaged excess : Bool) : Nat :=
  if excess then oDamaged
  else if sheafWhole n ok && !damaged && decide (ok.length = ps.length) then oDone
  else oPartial

/-- A change of the entry of the transfer in progress. -/
def State.updTransfer (s : State) (i : Nat) (f : Entry → Entry) : State :=
  match s.transferOf i with
  | some (q, e) => s.updEntry (s.ctx i).slice.toNat q e.pos f
  | none => s

/-- Bytes moved of the transfer in progress (R162 W4, W5). -/
def Ctx.move (n : Nat) (c : Ctx) : Ctx := { c with moved := c.moved + BitVec.ofNat 32 n, remain := c.remain - BitVec.ofNat 32 n }

/-- The data stage of a control transfer, or a transfer, has moved its bytes (R124, R130): a control transfer goes on to its
status stage, any other ends. -/
def State.stageOver (s : State) (i : Nat) (past : Bool) : State × Option Nat :=
  if past then
    if (s.ctx i).typ = 0 then (s.updTransfer i (fun e => { e with stage := .status }), none) else (s, some stSuccess)
  else (s, none)

/-- Payload of an IN sheaf goes to the transfer (R124, R283): what fits its buffers is kept, and the bytes taken are returned. -/
def State.takeBytes (s : State) (i : Nat) (bs : List Byte) : State :=
  match s.transferOf i with
  | some (q, e) =>
    let c := s.ctx i
    let b := bs.take c.remain.toNat
    (s.inData c.slice.toNat q e c.moved.toNat c.port.toNat b).updCtx i (Ctx.move b.length)
  | none => s

/-- After an IN sheaf of the transfer: overrun, short packet, or all moved (R124, R283). `room` is REMAIN before it. -/
def State.inEnd (s : State) (i room : Nat) (ok : List Pkt) : State × Option Nat :=
  let n := (pktBytes ok).length
  if room < n then (s, some stOverrun)
  else
    let short := ok.any (fun x => decide (x.data.length < (s.ctx i).mps.toNat))
    s.stageOver i (short || decide (n = room ∧ 0 < n))

/-- After a collection of a ticket's data (R151, R152, R214): the record is used up when its bytes are collected or a short
packet came; the transfer ends when all its bytes have moved, at a short packet, or, a control read, with the record. -/
def State.collectEnd (s : State) (i room : Nat) (r : TicketRec) (ok : List Pkt) : State × Option Nat :=
  let n := (pktBytes ok).length
  let s := s.updTransfer i (fun e => { e with stageDone := e.stageDone + n })
  if room < n then (s, some stOverrun)
  else
    let short := ok.any (fun x => decide (x.data.length < (s.ctx i).mps.toNat))
    let had := match s.transferOf i with
      | some (_, e) => e.stageDone
      | none => 0
    let used := decide (ok ≠ []) && (short || decide (r.len.toNat ≤ had))
    let s := if used then s.updTransfer i (fun e => { e with record := none, stageDone := 0 }) else s
    if used && ((s.ctx i).typ == 0 || short || decide (n = room)) then (s, some stSuccess) else (s, none)

/-- An IN sheaf arrives (R121, R122, R125): intact packets are kept and acknowledged (log entry 49). -/
def State.reactIn (s : State) (p i : Nat) (q : WSeq) (n : Nat) (ps : List Pkt) (damaged excess : Bool) : Reacted :=
  let c := s.ctx i
  let ok := intact n c.seq ps
  let rec0 := match q.kind, s.transferOf i with
    | .defer, some (k, e) => s.recordIn c.slice.toNat k e
    | _, _ => none
  let s := (s.updCtx i (fun c => { c with seq := c.seq + BitVec.ofNat 4 ok.length })).takeBytes i (pktBytes ok)
  let s := s.sendPacket p (ackPacket (c.seq + BitVec.ofNat 4 ok.length))
  let out := inOutcome n ps ok damaged excess
  match s.transferOf i with
  | none => { st := s, out := out }
  | some _ =>
    let (s, fin) := match rec0 with
      | some r => s.collectEnd i c.remain.toNat r ok
      | none => s.inEnd i c.remain.toNat ok
    { st := s, out := out, fin := fin }

/-- The packets that NEXT acknowledges of a sheaf of `k` from `f`, with `total` left in the transfer (R556): the number, and
whether it is DONE; none when the reply names no packet that the port could have sent. -/
def ackedPackets (f next : BitVec 4) (k total : Nat) : Option (Nat × Bool) :=
  let j := (next - f).toNat
  if j ≤ k then some (j, decide (j = k))
  else if j ≤ 8 ∧ j ≤ total then some (j, true)
  else none

/-- ACK of an OUT sheaf (R125, R556): the bytes acknowledged have moved; of a deferred control write they count to its data stage. -/
def State.reactOut (s : State) (i : Nat) (q : WSeq) (k : Nat) (next : BitVec 4) : Reacted :=
  let c := s.ctx i
  let mps := c.mps.toNat
  let dataStage := match q.kind, s.transferOf i with
    | .defer, some (_, e) => some (e.length - e.stageDone)
    | _, _ => none
  let left := dataStage.getD c.remain.toNat
  match ackedPackets q.first next k (max 1 (packets left mps)) with
  | none => { st := s, out := oDamaged }
  | some (j, done) =>
    let n := min left (j * mps)
    let s := s.updCtx i (fun c => { c with seq := next })
    match dataStage with
    | some _ =>
      { st := s.updTransfer i (fun e => { e with stageDone := e.stageDone + n })
        out := if done then oDone else oPartial }
    | none =>
      let (s, fin) := (s.updCtx i (Ctx.move n)).stageOver i (decide (n = left ∧ 0 < j))
      { st := s, out := if done then oDone else oPartial, fin := fin }

/-- The timeout of a ticket in ticks (R162, R214). -/
def Ctx.timeoutTicks (c : Ctx) : Nat := if c.tktTimeout = 0 then 2 ^ 32 else c.tktTimeout.toNat

/-- The bridge slot of a deferred context: that of the last bridge on its route (R337, R345). -/
def State.bridgeOf (s : State) (i : Nat) : Option Nat :=
  let c := s.ctx i
  let hops := hopsOf c.depth.toNat c.hops.toNat
  let devs := (List.range (hops.length + 1)).filterMap (fun n => s.devAt c.port.toNat (hops.take n))
  let bs := devs.filterMap (fun d => (s.bridges.map (·.1)).find? (fun b => (s.bridge b).dev == some (BitVec.ofNat 19 d)))
  bs.getLast?

/-- Counts in the tick (R336). -/
def State.count (s : State) (item n : Nat) : State :=
  { s with traffic := Tab.upd 0 s.traffic item (fun x => x + BitVec.ofNat 32 n) }

/-- TICKET in answer to DEFER (R147, R149, R214): the ticket stands from this tick; a control transfer's setup stage is posted with it,
and its data-stage numbers start at 0; the packets of an OUT post are taken as the bridge's (log entry 46). A post of WEAVE draws one
credit of the bridge slot (R345). -/
def State.reactTicket (s : State) (i : Nat) (q : WSeq) (n : W16) : State :=
  let s := s.updCtx i (fun c => { c with
    tktValid := true, ticket := n, tktDeadline := s.tick.n + BitVec.ofNat 48 c.timeoutTicks
    seq := match q.form with
      | .setupStage => 0
      | .outSheaf pk => c.seq + BitVec.ofNat 4 pk.length
      | _ => c.seq })
  let s := s.updTransfer i (fun e => { e with
    lastTicket := n, posted := s.tick.n, record := none
    stageDone := match q.form with
      | .outSheaf _ => if (s.ctx i).typ = 0 then e.stageDone else 0
      | _ => 0
    stage := if q.form = .setupStage then .data else e.stage })
  match s.bridgeOf i with
  | some b => (if q.weft then s.updBridge b (fun x => { x with credit := x.credit - 64 }) else s).count (bridgeItem b 0) 1
  | none => s

/-- The reply to an OUT status stage (R130, R556), an OUT sheaf of one packet. -/
def State.reactStatusOut (s : State) (i : Nat) (q : WSeq) (next : BitVec 4) : Reacted :=
  match ackedPackets q.first next 1 1 with
  | some (_, true) => { st := s.updCtx i (fun c => { c with seq := next }), out := oDone, fin := some stSuccess }
  | some (_, false) => { st := s, out := oPartial }
  | none => { st := s, out := oDamaged }

/-- The reply to an IN status stage (R122, R130): the zero-length packet that the token asked for is the success of the request. -/
def State.reactStatusIn (s : State) (p i : Nat) (ps : List Pkt) (damaged excess : Bool) : Reacted :=
  let c := s.ctx i
  let ok := intact 1 c.seq ps
  let next := c.seq + BitVec.ofNat 4 ok.length
  let s := (s.updCtx i (fun c => { c with seq := next })).sendPacket p (ackPacket next)
  let out := inOutcome 1 ps ok damaged excess
  { st := s, out := out, fin := if out = oDone then some stSuccess else none }

/-- What a reply does (R125, R130, R207, R213, R214, R556). A handshake that the attempt does not admit counts as DAMAGED (log entries 47,
49). -/
def State.react (s : State) (p : Nat) (q : WSeq) (r : Reply) : Reacted :=
  let i := q.ctx.toNat
  match r with
  | .noReply => { st := s, out := oNoReply }
  | .damaged => { st := s, out := oDamaged }
  | .nak => { st := s, out := oNak }
  | .stall => { st := s, out := oStall, fin := some stStall }
  | .routeErr _ _ _ => { st := s, out := oRouteErr, fin := some stRouteErr }
  | .ticket n => { st := if q.kind = .defer then s.reactTicket i q n else s, out := oTicket }
  | .ack next =>
    match q.form with
    | .outSheaf pk =>
      if q.kind = .defer && (s.ctx i).typ != 0 then { st := s, out := oDamaged } else s.reactOut i q pk.length next
    | .ping => { st := s, out := oDone }
    | .setupStage =>
      if q.kind = .defer then { st := s, out := oDamaged }
      else
        { st := (s.updCtx i (fun c => { c with seq := 0 })).updTransfer i (fun e => { e with
            stage := if setupLength e.q3 = 0 then .status else .data })
          out := oDone }
    | .statusOut => s.reactStatusOut i q next
    | _ => { st := s, out := oDamaged }
  | .sheaf ps dmg excess =>
    match q.form with
    | .inSheaf n => s.reactIn p i q n ps dmg excess
    | .statusIn => s.reactStatusIn p i ps dmg excess
    | _ => { st := s, out := oDamaged }

/-! ## The end of a transaction (R127, R128, R205, R208, R285) -/

/-- NAK_RUN and ERR_RUN after an outcome (R208). -/
def Ctx.runs (out : Nat) (c : Ctx) : Ctx :=
  if out = oDone ∨ out = oPartial then { c with nakRun := 0, errRun := 0 }
  else if out = oNak then { c with nakRun := satInc c.nakRun }
  else if out = oNoReply ∨ out = oDamaged then { c with errRun := satInc c.errRun }
  else c

/-- The status with which repeated failure ends a transfer of a queue (R285). -/
def failStatus (qs : QueueS) (c : Ctx) (out : Nat) : Option Nat :=
  if (out = oNoReply ∨ out = oDamaged) ∧ qs.errLimit.toNat ≤ c.errRun.toNat then some stXferError
  else if out = oNak ∧ qs.nakLimit ≠ 0 ∧ qs.nakLimit.toNat ≤ c.nakRun.toNat then some stNakLimit
  else none

/-- What a completed request of an owner does to what the module holds (R128, R132, R133, R137, R162 RWAKE): CLEAR_HALT, WAKE_ENABLE and
CONFIGURE, each with its FLAGS and TARGET of R132, and PORT_SET with RESET, which resets the segment behind a hub port. -/
def State.ctlEffect (s : State) (i : Nat) (q3 : W64) : State :=
  let d := (s.ctx i).device
  let t := setupByte q3 1
  let flags := setupByte q3 2
  match setupByte q3 0 with
  | 0x42 =>
    if flags = 0 ∧ t / 64 = 1 ∧ t % 64 ≤ (s.dev d).nep.toNat then
      s.updCtx ((s.dev d).base.toNat + t % 64) (fun c =>
        { c with st := if c.st = .halted then .active else c.st, seq := 0 })
    else s
  | 0x43 => if flags = 0 ∧ t = 0 then s.updCtx i (fun c => { c with rwake := fbit q3 40 }) else s
  | 0x46 => if flags = 0 ∧ t = 0 then s.updDevX d (fun x => { x with configured := fbit q3 40 }) else s
  | 0x52 =>
    if flags = 0x20 ∧ t / 64 = 2 ∧ fbit q3 41 = true then
      s.markReset (s.ctx i).port.toNat (s.hopsOfDev d ++ [BitVec.ofNat 5 t])
    else s
  | _ => s

/-- The transfer in progress on context `i` ends with a status (R127, R283). -/
def State.endProgress (s : State) (i status : Nat) : State :=
  match s.transferOf i with
  | some (q, e) =>
    let c := s.ctx i
    let s := s.endTransfer c.slice.toNat q e status
    if status = stSuccess ∧ c.typ = 0 then s.ctlEffect i e.q3 else s
  | none => s

/-- The effects of a transaction's outcome on its context and transfer: runs, LAST_SVC, limits, halt and end. Whether the
transfer ended is returned too. -/
def State.settleWire (s : State) (i attempts out : Nat) (fin : Option Nat) : State × Bool :=
  let s := s.updCtx i (fun c => { Ctx.runs out c with lastSvc := s.tick.n })
  let s := s.updTransfer i (fun e => { e with outcome := BitVec.ofNat 4 out, attempts := BitVec.ofNat 3 attempts })
  let c := s.ctx i
  let fin := match fin, s.transferOf i with
    | some f, _ => some f
    | none, some (q, _) => failStatus (s.queue (qKey c.slice.toNat q)) c out
    | none, none => none
  let s := if out = oStall ∧ c.ep ≠ 0 then s.updCtx i (fun c => { c with st := .halted }) else s
  match fin, s.transferOf i with
  | some f, some _ => (s.endProgress i f, true)
  | _, _ => (s, false)

/-- The result of a wire sequence reaches its thread at a cycle (R205, R209): gE of POLL before gD, and the readiness of the
registers and of the context (R202, R226). -/
def Thread.ended (q : WSeq) (res : W32) (cyc : Nat) (x : Thread) : Thread :=
  if q.weft then x
  else
    let x := if q.kind = .poll then x.setReg q.e (BitVec.ofNat 32 (leNat (padTo 4 q.got))) else x
    let x := x.setReg q.d res
    { x with ready := (((q.writes.map (·.toNat)) ++ [16 + q.ctx.toNat]).foldl (fun t r => t.set r cyc) x.ready) }

/-- A sequence leaves the shuttle with its result at a cycle. -/
def State.endSeq (s : State) (p : Nat) (q : WSeq) (ended : Bool) (attempts out cyc : Nat) : State :=
  let s := s.updThread p (fun x =>
    let x := x.ended q (resultWord ended attempts out) cyc
    if q.weft && (out != oDone) then
      { x with weave := x.weave.map (fun w => { w with passed := (s.ctx q.ctx.toNat).handle :: w.passed }) }
    else x)
  s.updShuttle p (fun x => { x with seqs := x.seqs.drop 1, ended := max x.ended cyc })

/-- Counts a transaction of a port for the snapshot (R336; log entry 91). -/
def State.countWire (s : State) (p out : Nat) : State :=
  let s := s.count (portItem p 0x0B) 1
  if out = oNak then s.count (portItem p 0x0C) 1
  else if out = oNoReply ∨ out = oDamaged then s.count (portItem p 0x0D) 1
  else s

/-- Counts the consecutive DONE of a registration that the back-off policy holds (R342). -/
def State.backoffRun (s : State) (h out : Nat) : State :=
  match s.policyNow.backoff.find h with
  | some b => s.updPolicy (fun y => { y with backoff := y.backoff.set h (b.1, b.2.1, if out = oDone then b.2.2 + 1 else 0) })
  | none => s

/-! ## The shuttle (R156, R226, R232) -/

/-- POWER_NOTICE may go out now (R156): due since an earlier tick, on an ACTIVE port, at Field speed in phase 0. -/
def State.noticeDue (s : State) (p : Nat) : Bool :=
  match (s.shuttle p).notice with
  | some t => s.portActive p && t != s.now32 && s.working && (decide ((s.port p).speed ≠ .field) || decide (s.phase = 0))
  | none => false

/-- Sends POWER_NOTICE (R155, R156): the shuttle's next work starts after it. -/
def State.sendNotice (s : State) (p cyc : Nat) : State :=
  match (s.shuttle p).notice with
  | some t =>
    let n := noticeAllow (s.port p).speed s.phase
    (s.transmit p cyc [powerNotice t]).updShuttle p (fun x =>
      { x with notice := none, noticed := true, ended := cyc + n, treeAt := cyc + n, used := x.used + n })
  | none => s

/-- The sequence at the head of the shuttle starts, when none is in progress (R204, R226): the notice that is due goes first,
and a sequence that sends nothing ends at once. -/
def State.startHead (s : State) (p : Nat) : State :=
  match (s.shuttle p).seqs with
  | q :: _ =>
    if q.started then s
    else
      let x := s.shuttle p
      let t0 := max q.issued (max x.lead x.ended)
      let s := if s.noticeDue p then s.sendNotice p t0 else s
      let t0 := max t0 (s.shuttle p).ended
      let i := q.ctx.toNat
      let early : Option Nat := match q.kind with
        | .probe _ => none
        | k => s.wireCheck p k i q.weft
      let s := s.updShuttle p (fun x => { x with lastStart := t0 })
      match early with
      | some o => s.endSeq p q false 0 o t0
      | none =>
        match s.planWire q.kind i q.cnt with
        | none => s.endSeq p q false 0 oWaiting t0
        | some a =>
          s.launch p { q with started := true, start := t0, attempts := 1 } a t0
  | [] => s

/-- The shuttle starts what it can: at most two sequences wait. -/
def State.serve (s : State) (p : Nat) : State := ((s.startHead p).startHead p).startHead p

/-- The outcomes that the shuttle retries (R125). -/
def retries (out : Nat) : Bool := out == oPartial || out == oNoReply || out == oDamaged

/-- The stage that the transfer on a context has reached. -/
def State.stageOf (s : State) (i : Nat) : Option CtlStage := (s.transferOf i).map (·.2.stage)

/-- The cycle at which the shuttle's next packet can begin after a reply taken at `cyc` (R68, R117, R125): at module turnaround, or after
its own ACK of a sheaf at the minimum gap. -/
def State.nextStart (s : State) (p : Nat) (r : Reply) (cyc : Nat) : Nat :=
  match r with
  | .sheaf _ _ _ => cyc + (gapOf (s.port p).speed + 99) / 100
  | _ => cyc + 25

/-- The reply to the sequence in progress is taken at a cycle (R125, R206): another attempt, or its end. -/
def State.wireReply (s : State) (p : Nat) (r : Reply) (cyc : Nat) : State :=
  match (s.shuttle p).seqs with
  | q :: _ =>
    if q.started then
      let i := q.ctx.toNat
      match q.kind with
      | .probe us =>
        if cyc < q.start + us * 100 then s
        else ((s.updShuttle p (fun x => { x with used := x.used + (cyc - q.start) })).endSeq p q false 0 oDone cyc).serve p
      | _ =>
        let had := (s.ctx i).moved.toNat
        let stage := s.stageOf i
        let got := match r, q.form with
          | .sheaf ps _ _, .inSheaf n => pktBytes (intact n (s.ctx i).seq ps)
          | _, _ => []
        let a := s.react p q r
        let s := a.st
        let moved := (s.ctx i).moved.toNat - had
        let s := s.count (portItem p 0x0E) (max moved got.length)
        let q := { q with got := q.got ++ got }
        let again := retries a.out && a.fin.isNone && decide (q.attempts ≤ q.retries) && decide (s.stageOf i = stage)
        match (if again then s.planWire q.kind i q.cnt else none) with
        | some f =>
          s.launch p { q with attempts := q.attempts + 1 } f (s.nextStart p r cyc)
        | none =>
          let (s, ended) := s.settleWire i q.attempts a.out a.fin
          let s := (s.countWire p a.out).backoffRun (s.ctx i).handle.toNat a.out
          let s := s.updShuttle p (fun x => { x with used := x.used + (cyc - q.start) })
          (s.endSeq p q ended q.attempts a.out cyc).serve p
    else s
  | [] => s

/-- What a port's shuttle has received by a cycle (R69, R107, R125): the reply to its sequence in progress, when it began in time. A probe
slot receives nothing and ends with its time. -/
def State.wireArrives (s : State) (p : Nat) (xs : List RxPkt) (cyc : Nat) : State :=
  match (s.shuttle p).seqs with
  | q :: _ =>
    match q.form with
    | .slot => s.wireReply p .noReply cyc
    | f =>
      if q.started && s.inTime p q.sentAt cyc xs then
        (s.afeSees p xs).wireReply p (s.replyOf p (f.sheaf (s.ctx q.ctx.toNat).mps.toNat) xs) cyc
      else s
  | [] => s

/-- The response timeout of the sequence in progress has passed by a cycle of the tick's window (R69). A probe slot awaits no reply. -/
def State.wireSilent (s : State) (p cyc : Nat) : State :=
  match (s.shuttle p).seqs with
  | q :: _ =>
    if q.started && q.form != .slot && decide (q.sentAt + s.responseTime p ≤ cyc ∧ cyc ≤ 12000) then s.wireReply p .noReply cyc else s
  | [] => s

end Sys2Proof.Machine
end

