-- ==== Sys2Proof/Machine/BusOps.lean ====
section
/-! DEFINITION. What the bus instructions share (06, 07): issue, segment commands, binding and drawing of entries, and the
choice of WEAVE. -/
namespace Sys2Proof.Machine

open Sys2Proof

/-! ## Issue (R205, R226) -/

/-- A sequence has been issued and not started: the next bus instruction waits (R226 item 2). -/
def State.issueWaits (s : State) (p : Nat) : Bool := (s.shuttle p).seqs.any (fun q => !q.started)

/-- A bus instruction that sends nothing: its result at once (R205). -/
def State.atOnce (s : State) (p : Nat) (d : Reg) (out c0 cost : Nat) : State :=
  (s.updThread p (fun x => x.setReg d (resultWord false 0 out))).advance (.loom (BitVec.ofNat 4 p)) c0 cost

/-- A context that is not resident at issue is a hardware fault, which the context-presence detector reports (R182; log entry 112). -/
def State.absent (s : State) (cyc : Nat) : State := s.detect 83 0 false cyc

/-- Issues a wire sequence on the context at cx (R205, R226); with cx null its outcome is MISMATCH. -/
def State.issue (s : State) (p : Nat) (k : WKind) (d e : Reg) (cnt rty c0 cost : Nat) : State :=
  match (s.thread p).cx with
  | none => s.atOnce p d oMismatch c0 cost
  | some i =>
    if s.resident i.toNat then
      let c0 := max c0 (s.shuttle p).lastStart
      let q : WSeq := { kind := k, ctx := i, d := d, e := e, cnt := cnt, retries := rty, form := .ping, issued := c0 + cost }
      ((((s.useCtx i.toNat).updShuttle p (fun x => { x with seqs := x.seqs ++ [q] })).advance
        (.loom (BitVec.ofNat 4 p)) c0 cost).serve p)
    else s.absent c0

/-- The frame of a wire instruction. -/
def State.busInstr (s : State) (p : Port) (i : Instr) (gd : Guard) (k : WKind) (d e : Reg) (cnt rty cost : Nat) :
    Host.Outcome State Fault Refusal :=
  s.coresh (.loom p) i gd (s.issueWaits p.toNat)
    (fun c0 t => t.issue p.toNat k d e cnt rty c0 cost) (State.skip1 (.loom p))

/-! ## SUSPEND and RESUME (R215) -/

/-- The number of a hub's downstream port in a port's tree table (log entry 88). -/
def hubWordKey (hub port : Nat) : Nat := hub * 32 + port

/-- The hub ports on a route, from the root port down: each hub's device and the port behind it; none where the module knows no device
there. -/
def State.hubPath (s : State) (p : Nat) (hops : List (BitVec 5)) : List (Option (Nat × Nat)) :=
  hops.mapIdx (fun k h => (s.devAt p (hops.take k)).map (fun d => (d, h.toNat)))

/-- A hub port is suspended, as READ_PORT last showed it (R144), or a request to suspend it waits (log entry 88). -/
def State.hubSuspended (s : State) (p hub port : Nat) : Bool :=
  ((s.tree p).words.get 0 (hubWordKey hub port)).getLsbD 17 ||
  (s.tree p).reqs.any (fun r => r.suspend && r.hub.toNat == hub && r.port.toNat == port)

/-- A hub port is ACTIVE as READ_PORT last showed it (R144): connected and powered, neither resetting nor suspended. -/
def State.hubPortActive (s : State) (p hub port : Nat) : Bool :=
  let w := (s.tree p).words.get 0 (hubWordKey hub port)
  w.getLsbD 14 && w.getLsbD 15 && !w.getLsbD 16 && !s.hubSuspended p hub port

/-- The segment behind a route's last hub port stands as SUSPEND and RESUME demand (R215): for SUSPEND every hub port on the way ACTIVE, for
RESUME one of them suspended, since the segments below it then suspend too (R145). -/
def State.segmentStands (s : State) (p : Nat) (hops : List (BitVec 5)) (suspend : Bool) : Bool :=
  let path := s.hubPath p hops
  if suspend then path.all (fun x => match x with
    | some (d, n) => s.hubPortActive p d n
    | none => false)
  else path.any (fun x => match x with
    | some (d, n) => s.hubSuspended p d n
    | none => false)

/-- The outcome of SUSPEND or RESUME on context `i` and the command it leaves pending (R204, R215; log entry 88). -/
def State.segmentCmd (s : State) (p i : Nat) (suspend : Bool) : Nat × State :=
  let c := s.ctx i
  let hops := hopsOf c.depth.toNat c.hops.toNat
  if c.port.toNat ≠ p || s.offCharge p i false || c.deferred then (oMismatch, s)
  else if !(decide (c.st = .active ∨ c.st = .halted)) then (oNotActive, s)
  else if c.st = .halted then (oHalted, s)
  else if hops = [] then
    let st := (s.port p).st
    if (if suspend then decide (st = .active) else decide (st = .suspending ∨ st = .suspended)) then
      (oDone, s.updPort p (fun x => { x with cmds := x.cmds ++ [((s.thread p).slice.toNat, if suspend then .suspend else .resume)] }))
    else (oNotActive, s)
  else match (s.hubPath p hops).getLast? with
    | some (some (h, k)) =>
      if s.portActive p && s.segmentStands p hops suspend then
        (oDone, s.updTree p (fun t => { t with reqs := t.reqs ++ [{ hub := BitVec.ofNat 19 h, port := BitVec.ofNat 5 k, suspend := suspend, since := s.tick.n }] }))
      else (oNotActive, s)
    | _ => (oNotActive, s)

/-- SUSPEND or RESUME at cx, its result at once (R215). -/
def State.segmentInstr (s : State) (p : Nat) (d : Reg) (suspend : Bool) (c0 : Nat) : State :=
  let c0 := max c0 (s.shuttle p).lastStart
  match (s.thread p).cx with
  | none => s.atOnce p d oMismatch c0 16
  | some i =>
    if s.resident i.toNat then
      let (o, s) := s.segmentCmd p i.toNat suspend
      (s.useCtx i.toNat).atOnce p d o c0 16
    else s.absent c0

/-! ## Binding and drawing (R238 to R241) -/

/-- A program of the port names the context in some phase (R238). -/
def State.warpNames (s : State) (p i : Nat) : Bool :=
  (s.schedAt p).progs.any (fun g => (g.2.named.find i).isSome)

/-- The entry becomes the transfer in progress of its context (R162 W4 and W5, R238, R241). SB_OFF is a free value (log entry 6). -/
def State.engage (s : State) (sl q i : Nat) (e : Entry) (st : EntSt) : State :=
  let slot := (s.queue (qKey sl q)).slot e.pos
  let v := s.free
  let s := s.useFree.updCtx i (fun c => { c with
    queue := BitVec.ofNat 12 q, entry := BitVec.ofNat 16 slot, remain := BitVec.ofNat 32 e.length, moved := 0
    sbOff := v.setWidth 16 })
  let n := s.drawn.cur
  let s := { s with drawn := s.drawn.upd s.e (· + 1) }
  s.updEntry sl q e.pos (fun x => { x with st := st, draw := n, stage := .setup, stageDone := 0, record := none })

/-- An entry waits in service: eligible, not bound or drawn. -/
def Entry.waits (e : Entry) : Bool := decide (e.st = .eligible)

/-- The entry is the next for its endpoint (R239): no earlier entry of its queue names the endpoint, and no eligible entry of a
queue that ranks before it. -/
def State.firstFor (s : State) (sl q : Nat) (e : Entry) : Bool :=
  let qs := s.queue (qKey sl q)
  let before := qs.entries.takeWhile (fun x => x.pos != e.pos)
  before.all (fun x => x.handle != e.handle) &&
  (s.queuesOf sl).all (fun k =>
    let x := s.queue (qKey sl k)
    let ahead := decide (x.prio.toNat < qs.prio.toNat) || (x.prio == qs.prio && decide (k < q))
    !ahead || x.entries.all (fun y => !(y.handle == e.handle && y.waits)))

/-- The credit of the bridge slot on an endpoint's route allows a post (R345). -/
def State.paced (s : State) (i : Nat) : Bool :=
  !(s.ctx i).deferred || (match s.bridgeOf i with
    | some b => decide (64 ≤ (s.bridge b).credit)
    | none => true)

/-! ## WEAVE (R217, R241, R242) -/

/-- A transaction that WEAVE can issue: the queue, the entry, its context, what it issues as, and its largest number of packets. -/
structure WeftTx where
  q : Nat
  e : Entry
  i : Nat
  kind : WKind
  most : Nat

/-- As which instruction WEAVE issues the next transaction of a transfer (R217). -/
def weftKind (c : Ctx) : WKind :=
  if c.deferred then .defer else if c.typ = 0 then .setup else if c.dirIn then .take else .give

/-- The packets of an attempt form. -/
def Attempt.packets : Attempt → Nat
  | .inSheaf n => n
  | .outSheaf pk => pk.length
  | _ => 1

/-- The transaction of an engaged transfer on context `i`, unless nothing would be sent (R204, R242). -/
def State.weftTx (s : State) (p q : Nat) (e : Entry) (i : Nat) : Option WeftTx :=
  let k := weftKind (s.ctx i)
  if (s.wireCheck p k i true).isSome then none
  else (s.planWire k i 7).map (fun a => { q := q, e := e, i := i, kind := k, most := a.packets })

/-- The largest number of packets, at most `n`, whose transaction ends by VAL from cycle `t0` (R217). -/
def fitPackets (k : WKind) (sp : Speed) (mps t0 val : Nat) : Nat → Option Nat
  | 0 => none
  | n + 1 => if t0 + wireCost k sp (n + 1) 0 mps ≤ val then some (n + 1) else fitPackets k sp mps t0 val n

/-- WEAVE passes over the handle: a transaction of it ended other than DONE in this run (R242), or a transfer of it has ended in
this tick, whose completion awaits the commit (log entry 42). -/
def State.passed (s : State) (p h : Nat) : Bool :=
  (match (s.thread p).weave with
   | some w => w.passed.any (fun x => x.toNat == h)
   | none => false) ||
  s.cplPend.any (fun r => r.queue != 0 && r.slice == (s.thread p).slice && fld r.c0 22 0 == h)

/-- What WEAVE would issue for an entry of queue `q` of the slice (R239, R241): the state with the entry drawn, the transaction
and its packets. An entry is not eligible in a tick for which its context is not claimed (R238, R240); one whose context is gone from the
cache although no staging of it waits is named all the same (R182). -/
def State.weftTry (s : State) (p sl q t0 val : Nat) (e : Entry) : Option (State × WeftTx × Nat) :=
  match s.ctxOfHandle e.handle with
  | none => none
  | some i =>
    let c := s.ctx i
    if s.warpNames p i || s.passed p e.handle || (!s.claimed i && (s.resident i || s.carried i)) then none
    else
      let mine := s.inProgress i sl q e.pos
      if !mine && (c.queue != 0 || !e.waits || s.ownBusy p i || !s.firstFor sl q e || !s.paced i) then none
      else
        let u := if mine then s else s.engage sl q i e .drawn
        match u.weftTx p q e i with
        | none => none
        | some x => (fitPackets x.kind c.sp c.mps.toNat t0 val x.most).map (fun n => (u, x, n))

/-- Puts an entry in a list by its draw, oldest first. -/
def insertDraw (e : Entry) : List Entry → List Entry
  | [] => [e]
  | x :: t => if e.draw < x.draw then e :: x :: t else x :: insertDraw e t

/-- The entries of a queue in WEAVE's order (R240, R241): drawn transfers by draw, then the rest of the window in ring order. -/
def QueueS.weftOrder (qs : QueueS) : List Entry :=
  let w := qs.entries.take 16
  (w.filter (fun e => decide (e.st = .drawn))).foldl (fun acc e => insertDraw e acc) [] ++ w.filter Entry.waits

/-- Puts a queue number in a list by priority, and within one priority by the place after `last`, wrapping (R241). -/
def insertQueue (rank : Nat → Nat) (k : Nat) : List Nat → List Nat
  | [] => [k]
  | j :: t => if rank k < rank j then k :: j :: t else j :: insertQueue rank k t

/-- The weft queues of a slice on a port in the order of R241, the scan beginning after queue `last`. -/
def State.weftQueues (s : State) (p sl last : Nat) : List Nat :=
  let ks := (s.queuesOf sl).filter (fun k => (s.queue (qKey sl k)).port.toNat == p)
  let rank (k : Nat) : Nat := (s.queue (qKey sl k)).prio.toNat * 8192 + (k + 8192 - (last + 1)) % 4096
  ks.foldl (fun acc k => insertQueue rank k acc) []

/-- The queues that follow the queue of this pass's last transaction (R241 item 4): the scan resumes after it, and begins again
at the first when it has come to the end (log entry 42). -/
def restAfter (last : Option Nat) (ks : List Nat) : List Nat :=
  match last with
  | some k => (ks.dropWhile (· != k)).drop 1
  | none => ks

/-- The next transaction of WEAVE (R241; log entry 42). -/
def State.weaveNext (s : State) (p sl t0 val : Nat) : Option (State × WeftTx × Nat) :=
  let last := ((s.schedAt p).lastQ.get 4095 sl)
  let ks := s.weftQueues p sl last
  let inPass := match (s.thread p).weave with
    | some w => w.lastQ.map (·.toNat)
    | none => none
  let look (l : List Nat) := firstSome (fun k => firstSome (s.weftTry p sl k t0 val) (s.queue (qKey sl k)).weftOrder) l
  match look (restAfter inPass ks) with
  | some r => some r
  | none => look ks

/-- One turn of WEAVE from cycle `t0` (R217): the next transaction is issued, or the instruction ends at cycle VAL with the number
of transactions it issued. A context that is not resident is reported (R182). The scan of a later WEAVE begins after the queue that issued
the last transaction of the slice's last WEAVE that issued one (log entry 121). -/
def State.weaveTurn (s : State) (p : Nat) (d : Reg) (val t0 : Nat) : State :=
  let w := ((s.thread p).weave).getD {}
  let sl := (s.thread p).slice.toNat
  match s.weaveNext p sl t0 val with
  | some (u, x, n) =>
    if !s.resident x.i then s.absent t0 else
    let s := u
    let q : WSeq := { kind := x.kind, ctx := BitVec.ofNat 23 x.i, d := 0, e := 0, cnt := n - 1, retries := 0, form := .ping,
                      weft := true, issued := t0 }
    let s := s.updThread p (fun y => { y with cycle := t0, weave := some { w with count := w.count + 1, lastQ := some (BitVec.ofNat 12 x.q) } })
    ((s.useCtx x.i).updShuttle p (fun y => { y with seqs := y.seqs ++ [q] })).serve p
  | none =>
    let s := match w.lastQ with
      | some k => s.updSched p (fun y => { y with lastQ := y.lastQ.set sl k.toNat })
      | none => s
    let s := s.updThread p (fun y => { y.setReg d (BitVec.ofNat 32 w.count) with weave := none })
    s.goOn (.loom (BitVec.ofNat 4 p)) ((s.thread p).pc + 1) (max t0 val)

end Sys2Proof.Machine
end

