-- ==== Sys2Proof/Machine/SliceOps.lean ====
section
/-! DEFINITION. What the commit does with slices (11): pages, records, host-side state, freezing and thawing, release, and the
checks of R359. -/
namespace Sys2Proof.Machine

open Sys2Proof

/-! ## Segments (R164, R173, R184) -/

/-- A reset of a segment, committed now (R82, R237): the root port's, or the hub port's by PORT_SET with RESET in the next tick; the
devices at and below it return to their default state. -/
def State.resetSegment (s : State) (p : Nat) (hops : List (BitVec 5)) : State :=
  match hops.getLast? with
  | none =>
    if PCmd.applies (s.port p) .reset && p != 16 then
      let s := if (s.port p).accepted = some .suspend ∨ (s.port p).accepted = some .resume then s.linkEvent p 12 else s
      (s.markReset p []).updPort p (fun y => { y with accepted := some .reset, wkp := false })
    else s
  | some h =>
    match s.devAt p hops.dropLast with
    | some hub =>
      (s.markReset p hops).updTree p (fun t => { t with
        resets := t.resets ++ [{ hub := BitVec.ofNat 19 hub, port := h, due := s.tick.n + 1 }] })
    | none => s

/-! ## Slice records (R358) -/

/-- The fields of a slice record. -/
def SlRec.ofWords (ws : List W64) : SlRec :=
  let w (i : Nat) : W64 := ws.getD i 0
  { idblk := w 0, chan := w 1, probe := BitVec.ofNat 16 (fld (w 2) 63 48), pinWays := fld (w 2) 47 44
    queues := fld (w 2) 43 31, tasks := fld (w 2) 30 18, flows := fld (w 2) 17 9
    share := [fld (w 3) 6 0, fld (w 3) 14 8, fld (w 3) 22 16, fld (w 3) 30 24], pages := fld (w 4) 63 48
    barn := ((List.range 22).map (fun r =>
      let h := 32 * (r % 2)
      (fld (w (5 + r / 2)) (h + 31) (h + 19), fld (w (5 + r / 2)) (h + 18) (h + 6)))).filter (fun r => r.2 != 0) }

/-- The words of a slice record. -/
def SlRec.words (r : SlRec) : List W64 :=
  let half (i : Nat) : Nat := match r.barn[i]? with
    | some (f, c) => f * 2 ^ 19 + c * 2 ^ 6
    | none => 0
  [ r.idblk, r.chan,
    BitVec.ofNat 64 (r.probe.toNat * 2 ^ 48 + r.pinWays * 2 ^ 44 + r.queues * 2 ^ 31 + r.tasks * 2 ^ 18 + r.flows * 2 ^ 9),
    BitVec.ofNat 64 (r.share.getD 0 0 + r.share.getD 1 0 * 2 ^ 8 + r.share.getD 2 0 * 2 ^ 16 + r.share.getD 3 0 * 2 ^ 24),
    BitVec.ofNat 64 (r.pages * 2 ^ 48) ] ++
  (List.range 11).map (fun i => BitVec.ofNat 64 (half (2 * i) + half (2 * i + 1) * 2 ^ 32))

/-- Ranges that end at or below block 5,119 and do not overlap (R359). -/
def barnOk : List (Nat × Nat) → Bool
  | [] => true
  | r :: t => decide (r.1 + r.2 ≤ 5120) && t.all (fun q => decide (r.1 + r.2 ≤ q.1 ∨ q.1 + q.2 ≤ r.1)) && barnOk t

/-- The reserved fields of a record's words are 0 (R358). -/
def recReserved (ws : List W64) : Bool :=
  let w (i : Nat) : W64 := ws.getD i 0
  fld (w 2) 8 0 == 0 && fld (w 3) 7 7 == 0 && fld (w 3) 15 15 == 0 && fld (w 3) 23 23 == 0 && fld (w 3) 63 31 == 0 &&
  fld (w 4) 47 0 == 0 && (List.range 11).all (fun i => fld (w (5 + i)) 5 0 == 0 && fld (w (5 + i)) 37 32 == 0)

/-- The ranges of R358's fields. -/
def SlRec.inRange (r : SlRec) : Bool :=
  decide (r.pinWays ≤ 8 ∧ 1 ≤ r.queues ∧ r.queues ≤ 4096 ∧ r.tasks ≤ 4064 ∧ r.flows ≤ 256 ∧ r.pages ≤ 59328) &&
  r.share.all (fun x => decide (x ≤ 96)) && barnOk r.barn

/-! ## What is in use (R357, R359, R366) -/

/-- The pool pages that hold spill rings of a slice's graphs. -/
def State.spillPages (s : State) (sl : Nat) : List Nat :=
  ((s.graphs.map (·.1)).filter (fun g => (s.graph g).live && (s.graph g).slice.toNat == sl)).flatMap (fun g => (s.graph g).pages)

/-- Barn block `b` holds a context that is not FREE; what a page in FILL held is gone (R371). -/
def State.barnUsed (s : State) (b : Nat) : Bool :=
  (s.page b).st != .fill && (s.ctxs.map (·.1)).any (fun i => i / 1024 == b && (s.ctx i).st != .free)

/-- Identifier block `k` holds an identifier that is not FREE; what a page in FILL held is gone (R371). -/
def State.idUsed (s : State) (k : Nat) : Bool :=
  (s.page (5120 + k)).st != .fill && (s.devs.map (·.1)).any (fun d => d / 8192 == k && (s.dev d).st != .free)

/-- The numbers of the slices S1 to S63 that are listed. -/
def State.others (s : State) (sl : Nat) : List Nat := (s.slices.map (·.1)).filter (fun k => k != 0 && k != sl)

/-- The blocks of a list of ranges. -/
def blocksOf (rs : List (Nat × Nat)) : List Nat := rs.flatMap (fun r => (List.range r.2).map (· + r.1))

/-- A resource that the record names, and that slice `sl` does not hold already, is held by another slice or in use by S0. -/
def State.recTaken (s : State) (sl : Nat) (r : SlRec) : Bool :=
  let mine := (s.slice sl).res
  (s.others sl).any (fun k =>
    let o := (s.slice k).res
    (o.idblk &&& r.idblk) != 0 || (o.chan &&& r.chan) != 0 || (o.probe &&& r.probe) != 0 ||
      o.barn.any (fun a => r.barn.any (fun b => decide (a.1 < b.1 + b.2 ∧ b.1 < a.1 + a.2)))) ||
  (List.range 64).any (fun c => r.chan.getLsbD c && !mine.chan.getLsbD c && (s.chan c).role != .none) ||
  (List.range 64).any (fun k => r.idblk.getLsbD k && !mine.idblk.getLsbD k && s.idUsed k) ||
  (s.ctxs.map (·.1)).any (fun i => inRanges r.barn (i / 1024) && !inRanges mine.barn (i / 1024) && s.barnUsed (i / 1024))

/-- Cycles of 100 that the admitted graphs of a slice are charged on a core (R252), rounded up. -/
def State.charged (s : State) (sl core : Nat) : Nat :=
  (((s.tasks.map (·.1)).filter (fun t =>
    let x := s.task t
    x.live && x.slice.toNat == sl && x.home.toNat == core)).map (fun t => (s.task t).limit * (s.task t).worst)).sum

/-- The numbers of tasks and flows that a slice uses. -/
def State.tasksUsed (s : State) (sl : Nat) : Nat :=
  ((s.tasks.map (·.1)).filter (fun t => (s.task t).live && (s.task t).slice.toNat == sl)).length
def State.flowsUsed (s : State) (sl : Nat) : Nat :=
  ((s.flows.map (·.1)).filter (fun f => (s.flowAt f).live && (s.flowAt f).slice.toNat == sl)).length
/-- The queues that a slice uses, its admin queue included. -/
def State.queuesUsed (s : State) (sl : Nat) : Nat := (s.queuesOf sl).length + 1

/-- Up to `n` pages from `p` on that satisfy a test, in ascending order (log entry 80). -/
def pagesFrom (ok : Nat → Bool) : Nat → Nat → Nat → List Nat
  | 0, _, _ => []
  | f + 1, p, n => if n = 0 then [] else if ok p then p :: pagesFrom ok f (p + 1) (n - 1) else pagesFrom ok f (p + 1) n

/-- A pool page of S0 that holds no spill ring. -/
def State.poolFree (s : State) (used : List Nat) (p : Nat) : Bool := (s.page p).sl == 0 && !used.contains p

/-- The first `n` unused pool pages of S0, in ascending order (R358; log entry 80). -/
def State.poolPages (s : State) (n : Nat) : List Nat := pagesFrom (s.poolFree (s.spillPages 0)) 59328 6208 n

/-- The pool pages of S0 not in use: those listed for no other slice, less its spill rings. -/
def State.poolLeft (s : State) : Nat :=
  59328 - ((s.pot.map (·.1)).filter (fun p => 6208 ≤ p && (s.page p).sl != 0)).length - (s.spillPages 0).length

/-- Module totals hold with a record for slice `sl` (R359). -/
def State.totalsOk (s : State) (sl : Nat) (r : SlRec) : Bool :=
  let sum (f : SlRec → Nat) : Nat := ((s.others sl).map (fun k => f (s.slice k).res)).sum + f r
  decide (sum (·.pinWays) ≤ 8) &&
  (List.range 4).all (fun c => decide (sum (fun x => x.share.getD c 0) + (s.charged 0 c + 99) / 100 ≤ 96)) &&
  decide (sum (·.queues) + s.queuesUsed 0 ≤ 4096) && decide (sum (·.tasks) + s.tasksUsed 0 ≤ 4064) &&
  decide (sum (·.flows) + s.flowsUsed 0 ≤ 256) && decide (r.pages ≤ s.poolLeft + (s.slice sl).res.pages)

/-- The admitted programs of a port: in force, and waiting for their switch tick (R246). -/
def SchedS.admitted (x : SchedS) : List Prog :=
  x.progs.map (·.2) ++ x.changes.filterMap (fun c => match c.2 with
    | .install _ g => some g
    | _ => none)

/-- An admitted program of a slice on a port executes PROBE. -/
def State.probeProgram (s : State) (sl p : Nat) : Bool :=
  (s.schedAt p).admitted.any (fun g => g.slice.toNat == sl && g.code.any (fun w => w.toNat / 2 ^ 26 == 0x29))

/-- No reduction of a resize goes below what the slice uses (R366). -/
def State.reduceOk (s : State) (sl : Nat) (r : SlRec) : Bool :=
  (List.range 4).all (fun c => decide (s.charged sl c ≤ r.share.getD c 0 * 100)) &&
  decide (s.queuesUsed sl ≤ r.queues ∧ s.tasksUsed sl ≤ r.tasks ∧ s.flowsUsed sl ≤ r.flows) &&
  decide ((s.spillPages sl).length ≤ r.pages) &&
  (List.range 16).all (fun p => r.probe.getLsbD p || !(s.slice sl).res.probe.getLsbD p || !s.probeProgram sl p) &&
  (List.range 16).all (fun p => (s.schedAt p).admitted.all (fun g =>
    g.slice.toNat != sl || g.named.all (fun n => !inRanges (s.slice sl).res.barn (n.1 / 1024) || inRanges r.barn (n.1 / 1024))))

/-- An export of an image of the slice is in progress (R382, R385). -/
def State.saving (s : State) (sl : Nat) : Bool :=
  (s.chans.map (·.1)).any (fun c => (s.chan c).job == some (.save (BitVec.ofNat 6 sl)))

/-- The completion of DEFINE_SLICE or RESIZE_SLICE by the checks of R359, in order; SUCCESS when all pass. -/
def State.recStatus (s : State) (sl : Nat) (resize : Bool) (ws : List W64) : Nat :=
  let r := SlRec.ofWords ws
  let free := decide ((s.slice sl).st = .free)
  if sl = 0 ∨ free = resize then stNotPermitted
  else if !recReserved ws || !r.inRange then stMalformed
  else if s.recTaken sl r then stRejected
  else if !s.totalsOk sl r then stNoResource
  else if resize && !s.reduceOk sl r then stRejected
  else if s.saving sl then stRejected
  else stSuccess

/-! ## Pages (R369 to R373) -/

/-- The barn and device-table pages of a record. -/
def SlRec.tablePages (r : SlRec) : List Nat :=
  blocksOf r.barn ++ ((List.range 64).filter (fun k => r.idblk.getLsbD k)).map (5120 + ·)

/-- The pool pages of a slice. -/
def State.poolOf (s : State) (sl : Nat) : List Nat :=
  (s.pot.map (·.1)).filter (fun p => 6208 ≤ p && (s.page p).sl.toNat == sl)

/-- Pages enter FILL for a slice (R371): only the gleaner reaches them, so the cache keeps nothing of them. -/
def State.fillFor (s : State) (sl : Nat) (ps : List Nat) : State :=
  let s : State := { s with cache := s.cache.filter (fun e => !ps.contains (e.2.page (e.1 / 12))) }
  let s := s.forAll (fun t p => t.updPage p (fun _ => { st := .fill, sl := BitVec.ofNat 6 sl })) ps
  if ps = [] then s else s.updSliceX sl (fun x => { x with filling := true })

/-- Sets a bit of SLICE_EVENT (R389). -/
def State.sliceEvent (s : State) (sl i : Nat) : State := s.updSliceX sl (fun x => { x with event := setBit x.event i })

/-! ## Stopping and resuming a slice's work (R380, R381, R515, R555) -/

/-- The channels of a slice. -/
def State.chansOf (s : State) (sl : Nat) : List Nat := (s.chans.map (·.1)).filter (fun c => s.chanOwner c == sl)

/-- The deadlines and timers of a slice move on by `n` ticks. -/
def State.extend (s : State) (sl n : Nat) : State :=
  let s := s.forAll (fun t i => t.updCtx i (fun c => { c with tktDeadline := c.tktDeadline + BitVec.ofNat 48 n }))
    ((s.ctxs.map (·.1)).filter (fun i => (s.ctx i).tktValid && (s.ctx i).slice.toNat == sl))
  s.forAll (fun t c => t.updCore c (fun x => { x with
    timers := x.timers.map (fun m => if (s.task m.task.toNat).slice.toNat = sl then
      { m with deadline := m.deadline + BitVec.ofNat 48 n } else m) })) (s.cores.map (·.1))

/-- A slice's work stops from the next tick (R380). -/
def State.stopWork (s : State) (sl : Nat) : State :=
  (s.updSliceX sl (fun x => { x with since := some s.tick.n })).forAll State.applyStop (s.chansOf sl)

/-- A slice's work resumes from the next tick (R381). -/
def State.resumeWork (s : State) (sl : Nat) : State :=
  match (s.sliceXAt sl).since with
  | some f =>
    let s := s.extend sl (s.now - f.toNat)
    let s := s.updSliceX sl (fun x => { x with since := none })
    s.forAll (fun t c => t.updChan c (fun x =>
      if x.role == .queue && x.leaving.isNone && (x.st == .stopped || x.st == .stopping) then { x with st := .idle } else x)) (s.chansOf sl)
  | none => s

/-- At the end of a commit's changes: the slices whose work now stops or resumes. -/
def State.settleWork (s : State) (before : List Nat) : State :=
  s.forAll (fun t k =>
    let on := decide ((t.slice k).st = .running) && !t.held k
    if before.contains k && !on then t.stopWork k
    else if !before.contains k && on then t.resumeWork k
    else t) (s.slices.map (·.1))

/-- The slices whose work runs, as committed. -/
def State.working' (s : State) : List Nat := (s.slices.map (·.1)).filter s.works

/-! ## Host-side state (R363) -/

/-- A slice's transfer queues and transfers end without records, its admin queue stops with base 0, its event queue is undefined,
its records and payload are discarded and its channels return to role NONE. -/
def State.discardHost (s : State) (sl : Nat) : State :=
  let sn := BitVec.ofNat 6 sl
  let s := s.forAll (fun t q => t.updQueue (qKey sl q) (fun _ => {})) (s.queuesOf sl)
  let s := s.updQueue (qKey sl 0) (fun q => { q with
    run := false, base := 0, entries := [], old := [], doneAt := [], prod := 0, cons := 0, fetch := 0, seen := [] })
  let s := s.forAll (fun t i => t.updCtx i Ctx.idle)
    ((s.ctxs.map (·.1)).filter (fun i => (s.ctx i).slice == sn && (s.ctx i).queue != 0))
  let s := s.forAll (fun t c =>
    (t.updChan c (fun x => { leaving := x.leaving })).updChanX c (fun y =>
      { y.forget (fun _ => true) with killNow := false, lost := [] })) (s.chansOf sl)
  let s := s.discardRecords sl
  let s := s.updEq sl (fun q => { q with run := false, base := 0, prod := 0, cons := 0, pend := 0, sendNext := false })
  { s with
    cplPend := s.cplPend.filter (fun r => r.slice != sn), owedCpl := s.owedCpl.filter (fun r => r.slice != sn)
    payPend := s.payPend.filter (fun r => r.slice != sn), owedPay := s.owedPay.filter (fun r => r.slice != sn)
    wordsPend := s.wordsPend.filter (fun r => r.1 != sn), owedWords := s.owedWords.filter (fun r => r.1 != sn)
    owedRec := s.owedRec.filter (fun r => s.chanOwner r.1.toNat != sl)
    due := { s.due with recs := s.due.recs.filter (fun r => s.chanOwner r.1.toNat != sl) }
    qcons := s.qcons.filter (fun e => e.1 / 4096 != sl) }

/-! ## Release (R378) -/

/-- The programs, registrations and pending changes of a slice leave a port (R378). -/
def State.dropPrograms (s : State) (sl p : Nat) : State :=
  let sn := BitVec.ofNat 6 sl
  s.updSched p (fun x => { x with
    progs := x.progs.filter (fun g => g.2.slice != sn), regs := x.regs.filter (fun r => r.slice != sn)
    weftMin := x.weftMin.del sl, lastQ := x.lastQ.del sl
    changes := x.changes.filter (fun c => match c.2 with
      | .install _ g => g.slice != sn
      | _ => true) })

/-- A graph, its tasks and flows leave the steward (R349, R378). -/
def State.dropGraph (s : State) (g : Nat) : State :=
  let x := s.graph g
  let s := s.forAll (fun t k => t.updTask k.toNat (fun _ => {})) x.tasks
  let s := s.forAll (fun t f => t.updFlow f.toNat (fun _ => {})) x.flows
  let s := s.forAll (fun t c => t.updCore c (fun y => { y with
    ready := y.ready.filter (fun e => !x.tasks.contains e.task), bitmap := y.bitmap.filter (fun k => !x.tasks.contains k)
    held := y.held.filter (fun h => !x.tasks.contains h.1 && !x.tasks.contains h.2)
    timers := y.timers.filter (fun m => !x.tasks.contains m.task) })) (s.cores.map (·.1))
  (s.updGraph g (fun _ => {})).updGChanges (fun l => l.filter (fun c => match c.2 with
    | .start k => k.toNat != g
    | .withdraw k => k.toNat != g
    | .stop k => k.toNat != g
    | .run k => k.toNat != g))

/-- The route of an attach or plan entry by its number: port and hops. -/
def routeOfKey (k : Nat) : Nat × List (BitVec 5) := (k % 32, hopsOf (k / 32 % 8) (k / 256))

/-- The routes whose attach entry names a slice. -/
def State.attachesOf (s : State) (sl : Nat) : List Nat :=
  (s.attach.map (·.1)).filter (fun k => match s.attachAt k with
    | some e => e.1.toNat == sl
    | none => false)

/-- The devices of a slice. -/
def State.devsOf (s : State) (sl : Nat) : List Nat := s.devices.filter (fun d => (s.dev d).slice.toNat == sl)

/-- The writes that arrived through a released slice's window are discarded (R379). -/
def LinkS.forget (sn : Sys2Proof.Slice) (l : LinkS) : LinkS :=
  { l with buf := l.buf.filter (fun h => h.sl != some sn), withheld := l.withheld.filter (fun h => h.sl != some sn) }

/-- RELEASE_SLICE at its commit (R378, R379, R396; log entry 81). -/
def State.releaseSlice (s : State) (sl : Nat) : State :=
  let sn := BitVec.ofNat 6 sl
  let pages := (s.slice sl).res.tablePages ++ s.poolOf sl
  let s := s.discardHost sl
  let s := s.forAll (fun t p => t.dropPrograms sl p) (List.range 17)
  let s := s.forAll State.dropGraph ((s.graphs.map (·.1)).filter (fun g => (s.graph g).live && (s.graph g).slice.toNat == sl))
  let routes := s.attachesOf sl
  let s := s.forAll State.releaseDevice (s.devsOf sl)
  let s := s.forAll (fun t k => t.updAttach k (fun _ => none)) routes
  let s := s.forAll (fun t k => t.resetSegment (routeOfKey k).1 (routeOfKey k).2) routes
  let s := s.forAll (fun t k => t.updPlan k (fun _ => none))
    ((s.plan.map (·.1)).filter (fun k => k / 2 ^ 33 == sl))
  let s := s.forAll (fun t i => t.updPin i (fun _ => none)) ((s.pins.map (·.1)).filter (fun i => s.pinAt i == some sn))
  let s := s.forAll (fun t k => t.updBound k (fun _ => none)) ((s.bounds.map (·.1)).filter (fun k => k / 2048 == sl + 1))
  let s := s.forAll (fun t k => t.updActBound k (fun _ => none)) ((s.actBounds.map (·.1)).filter (fun k => k / 32768 == sl + 1))
  let s := s.forAll (fun t k => t.updStream k (fun _ => {})) ((s.streams.map (·.1)).filter (fun k => (s.stream k).slice == sn && (s.stream k).run))
  let s := s.forAll (fun t k => t.updSrcCfg k (fun x => { x with target := some 0 }))
    ((s.srcCfg.map (·.1)).filter (fun k => keySpace k == sharedSpace && (s.srcCfgAt k).target == some sn))
  let s := { s with
    srcs := s.srcs.filter (fun e => keySpace e.1 != sl), raised := s.raised.filter (fun o => keySpace o.src != sl)
    links := s.links.mapV (LinkS.forget sn)
    admission := s.admission.upd s.e (fun l => l.filter (fun r => r.slice != sn))
    raws := s.raws.del sl, stwStat := s.stwStat.del sl, stwEvent := s.stwEvent.del sl, qstat := s.qstat.del sl
    eqs := s.eqs.del sl }
  let blocks := (s.slice sl).res.idblk
  let s := (s.fillFor 0 pages).updKept (fun l => l.filter (fun k => !blocks.getLsbD (k.1 / 131072)))
  let s := s.updSlice sl (fun _ => {})
  s.updSliceX sl (fun x => { kekId := x.kekId, kek := x.kek })

/-! ## Resizing (R366 to R368) -/

/-- The pinned contexts of a slice, with their handles. -/
def State.pinsOf (s : State) (sl : Nat) : List (Nat × Nat) :=
  ((s.ctxs.map (·.1)).filter (fun i => (s.ctx i).pin && (s.ctx i).slice.toNat == sl)).map (fun i => ((s.ctx i).handle.toNat, i))

/-- The pin ways granted in the module (R177). -/
def State.grantedWays (s : State) : Nat := (((s.slices.map (·.1)).filter (· != 0)).map (fun k => (s.slice k).res.pinWays)).sum

/-- The pin ways of a slice (R177, R357): S0 holds those that no other slice was given. -/
def State.pinWaysOf (s : State) (sl : Nat) : Nat :=
  if sl = 0 then 8 - s.grantedWays
  else (s.slice sl).res.pinWays

/-- The slice has as many pins in the context's set as its ways (R177). -/
def State.pinFull (s : State) (sl i : Nat) : Bool :=
  decide (s.pinWaysOf sl ≤ ((s.pinsOf sl).filter (fun x => x.2 % 1024 == i % 1024)).length)

/-- In each cache set that holds more pins of a slice than its ways, the highest context indices are unpinned (R366). -/
def State.trimPins (s : State) (sl ways : Nat) : State :=
  let mine := s.pinsOf sl
  s.forAll (fun t x =>
    if ways ≤ (mine.filter (fun y => y.2 % 1024 == x.2 % 1024 && decide (y.2 < x.2))).length then
      (t.updPin x.1 (fun _ => none)).updCtx x.2 (fun c => { c with pin := false })
    else t) mine

/-- A channel withdrawn from a slice (R368): STOP, its queues stopped, and the entries it has not read for withdrawn. -/
def State.withdrawChan (s : State) (sl c : Nat) : State :=
  let s := s.withdrawUnread c
  let s := (s.stopQueuesOf c).applyStop c
  s.updChan c (fun x => { x with leaving := some (BitVec.ofNat 6 sl) })

/-- A device withdrawn by a resize or a change of attach (R367): released, its segment reset. -/
def State.expelDevice (s : State) (d : Nat) : State :=
  let r := s.routeOfDev d
  (s.withdrawDevice d).resetSegment r.port.toNat r.hops

/-- RESIZE_SLICE at its commit (R366): `keep` are the channels that leave, which stay the slice's until their release (log entry 80). -/
def State.resizeSlice (s : State) (sl : Nat) (r : SlRec) : State :=
  let old := (s.slice sl).res
  let gone := (s.devsOf sl).filter (fun d =>
    (!r.idblk.getLsbD (d / 8192) || !inRanges r.barn ((s.dev d).base.toNat / 1024)) && !(s.devXAt d).leaving)
  let s := s.forAll State.expelDevice gone
  let outC := (List.range 64).filter (fun c => old.chan.getLsbD c && !r.chan.getLsbD c)
  let s := s.forAll (fun t c => t.withdrawChan sl c) outC
  let s := if r.pinWays < old.pinWays then s.trimPins sl r.pinWays else s
  let newT := r.tablePages.filter (fun p => !old.tablePages.contains p)
  let oldT := old.tablePages.filter (fun p => !r.tablePages.contains p)
  let pool := s.poolOf sl
  let addP := s.poolPages (r.pages - old.pages)
  let subP := ((pool.filter (fun p => !(s.spillPages sl).contains p)).reverse).take (old.pages - r.pages)
  let s := s.updSlice sl (fun x => { x with res := { r with chan := r.chan ||| (old.chan &&& ~~~r.chan) } })
  ((s.fillFor 0 (oldT ++ subP)).fillFor sl (newT ++ addP)).sliceEvent sl 3

/-- A channel that leaves its slice returns to S0 (R368): STOPPED, its IN payload and its records issued. -/
def State.chanLeaves (s : State) (c : Nat) : Bool :=
  let x := s.chan c
  x.leaving.isSome && x.st == .stopped && s.recsOwed c == 0 && s.allPay.all (fun p => p.chan.toNat != c)

/-! ## Definition and binding (R360, R361) -/

/-- A slice takes a record's resources from S0 (R360): new keys, and its pages in FILL. -/
def State.defineSlice (s : State) (sl : Nat) (r : SlRec) : State :=
  let pool := s.poolPages r.pages
  let s := s.updSlice sl (fun _ => { st := .defined, res := r })
  let s := (s.fillFor sl (r.tablePages ++ pool))
  let g := s.freeCount
  (s.useFree.useFree).updSliceX sl (fun x => { x with memKey := some g, journalKey := some (drawBytes (g + 1) 0 32), since := none })

/-- BIND_SLICE at its commit (R361, R363). -/
def State.bindSlice (s : State) (sl : Nat) (l : Link) (w : BitVec 4) (p : BitVec 20) (auto : Bool) : State :=
  let was := (s.slice sl).bound
  let s := if was then s.discardHost sl else s
  s.updSlice sl (fun x => { x with
    link := l, window := w, pasid := p, bound := true, autoThaw := auto
    st := if x.st = .defined then .running else x.st })

/-- UNBIND_SLICE at its commit (R363). -/
def State.unbindSlice (s : State) (sl : Nat) : State :=
  (s.discardHost sl).updSlice sl (fun x => { x with bound := false, link := 0, window := 0, pasid := 0, autoThaw := false, linkDown := false })

/-- A slice frozen at a commit (R380, R365). -/
def State.freezeSlice (s : State) (sl : Nat) (down : Bool) : State :=
  if (s.slice sl).st = .running then
    (s.updSlice sl (fun x => { x with st := .frozen, linkDown := down })).sliceEvent sl 1
  else if down ∧ (s.comSlice sl).st = .running then s.updSlice sl (fun x => { x with linkDown := true })
  else s

/-- A slice thawed at a commit (R381). -/
def State.thawSlice (s : State) (sl : Nat) : State :=
  if (s.slice sl).st = .frozen then
    (s.updSlice sl (fun x => { x with st := .running, linkDown := false })).sliceEvent sl 2
  else s

/-- An attach entry set or removed at its commit (R388): the devices below it whose slice changes are withdrawn. -/
def State.setAttach (s : State) (p : Nat) (hops : List (BitVec 5)) (e : Option (Sys2Proof.Slice × Bool)) : State :=
  let s := s.updAttach (routeKey p hops) (fun _ => e)
  s.forAll State.expelDevice ((s.devsUnder p hops).filter (fun d =>
    s.routeOwner p (s.hopsOfDev d) != (s.dev d).slice.toNat && !(s.devXAt d).leaving))

/-! ## Links and holds at a commit (R365, R515, R555) -/

/-- IN payload owed to a slice is discarded, its completions held as WITHDRAWN (R365). -/
def State.dropPayload (s : State) (sl : Nat) : State := s.withdrawPayload [] (fun p => p.slice.toNat == sl)

/-- The freezes of links that went down in the tick, and the thaws of links that are up again (R365). -/
def State.commitLinks (s : State) : State :=
  let s := s.forAll (fun t l =>
    if (t.link l).downNow then
      let t := t.forAll (fun u k =>
        if k = 0 then u
        else (((u.freezeSlice k true).dropPayload k).occur (srcKey 0 16 k) 1)) (t.boundTo l)
      t.updLink l (fun x => { x with downNow := false })
    else t) (List.range 4)
  s.forAll (fun t k =>
    let c := t.comSlice k
    if c.st == .frozen && c.linkDown && c.autoThaw && c.bound && (t.link c.link.toNat).up then t.thawSlice k else t)
    (s.slices.map (·.1))

/-- The holds of PASID and of D3hot as they stand at a commit (R515, R555; log entry 69). -/
def State.commitHolds (s : State) : State :=
  s.forAll (fun t k =>
    let c := t.slice k
    let l := c.link.toNat
    let many := 2 ≤ ((t.slices.map (·.1)).filter (fun j => (t.slice j).bound && (t.slice j).link.toNat == l)).length
    t.updSliceX k (fun x => { x with
      d3 := c.bound && (t.link l).d3hot, pasidHold := c.bound && !(t.link l).pasidEn && decide many }))
    (s.slices.map (·.1))

end Sys2Proof.Machine
end

