-- ==== Sys2Proof/Machine/Contexts.lean ====
section
/-! DEFINITION. Staging and eligibility (05, 07), binding, the admin commands on devices and contexts (08), and the ends of
identifiers and tickets (05, 04). -/
namespace Sys2Proof.Machine

open Sys2Proof

/-! ## Staging (R179, R180) -/

/-- The contexts that a program names in a tick. -/
def Prog.namesAt (g : Prog) (tick : Nat) : List Nat := g.phases.getD (tick % 2 ^ g.period) []

/-- The contexts that admitted warp programs name for a tick (R179 item 1): the programs in force and those that are by then. -/
def State.warpFor (s : State) (tick : Nat) : List Nat :=
  ((List.range 16).map (fun p =>
    let x := s.schedAt p
    (x.progs.map (fun g => g.2.namesAt tick)).flatten ++
    (x.changes.map (fun c => match c.2 with
      | .install _ g => if c.1.toNat ≤ tick then g.namesAt tick else []
      | _ => [])).flatten)).flatten

/-- The contexts of the fetched entries of all queues that a test selects. -/
def State.entryCtxs (s : State) (f : Entry → Bool) : List Nat :=
  ((s.queues.map (·.1)).map (fun k =>
    if k % 4096 = 0 then []
    else (s.queue k).entries.filterMap (fun e => if e.op = 1 && f e then s.ctxOfHandle e.handle else none))).flatten

/-- The contexts of entries fetched before this tick and not complete (R179 item 2, R240). -/
def State.weftFor (s : State) : List Nat :=
  s.entryCtxs (fun e => decide (e.tick.toNat < s.now) && e.record.isNone)

/-- The contexts needed to collect data for ticket records that are committed (R151, R179 item 3). -/
def State.collectFor (s : State) : List Nat := s.entryCtxs (fun e => e.record.isSome)

/-- Appends staging items for contexts not listed yet. -/
def addStages (warp : Bool) (l : List Stage) (is : List Nat) : List Stage :=
  is.foldl (fun acc i => if acc.any (fun x => x.ctx.toNat == i) then acc else acc ++ [{ ctx := BitVec.ofNat 23 i, warp := warp }]) l

/-- The staging unit stages 3,000 contexts in a tick (R179). -/
def stageMax : Nat := 3000

/-- Stages one context (R179): it is claimed on a hit, and on a miss its fill begins in a victim's way. The memory that is read is its
slice's (R372). -/
def State.stageCtx (s : State) (i : Nat) : State :=
  if (s.wayOf (ctxSet i) (ctxTag i) false).isSome then s.claimNext i
  else
    let go (s : State) : State := (s.fillCtx i).getD s
    if (s.comCtx i).st = .free then go s else s.dramAccess (s.comCtx i).slice.toNat (s.ctxPages i) go

/-- Stages the items of a list in order, up to the limit of a tick (R179); those staged are done. -/
def State.stageAll (s : State) (l : List Stage) : State :=
  let s := s.forAll State.stageCtx ((l.take stageMax).map (·.ctx.toNat))
  let l := l.mapIdx (fun n x => { x with done := decide (n < stageMax) && s.resident x.ctx.toNat })
  { s with staging := l, stagedNow := (l.filter (·.done)).length }

/-- A weft context carried to a later tick (R180): it counts in STAGE_LATE, in its port's snapshot and for the pinning policy. -/
def State.lateStage (s : State) (x : Stage) : State :=
  let i := x.ctx.toNat
  let s := ({ s with stageLate := satInc s.stageLate } : State).count (portItem (s.ctx i).port.toNat 0x12) 1
  s.updPolicy (fun y => { y with delays := Tab.upd [] y.delays i (fun l =>
    (l.filter (fun t => decide (s.now < t.toNat + 64))) ++ [s.tick.n]) })

/-- STAGING_LIST (R179, R180): at cycle 0 the list for the next tick is taken, the contexts carried over first, and staged in its order
(log entry 122). -/
def execStagingList (s : State) : Host.Outcome State Fault Refusal :=
  .next (if s.domOn 7 && s.domOn 9 && !s.tick.selvage then
      let carried := s.staging.filter (fun x => !x.done && !x.warp)
      let s := s.forAll State.lateStage carried
      let l := addStages false (addStages false (addStages true carried (s.warpFor (s.now + 1))) s.weftFor) s.collectFor
      let s := s.stageAll l
      { s with stagePeak := max s.stagePeak s.stagedNow }
    else s)

/-- A change of the way that holds a context. -/
def State.updCtxWay (s : State) (i : Nat) (f : CWay → CWay) : State :=
  match s.wayOf (ctxSet i) (ctxTag i) false with
  | some k => s.updWay k f
  | none => s

/-- CONTEXT_FILL_DONE (R179, R181): the committed context has been read into its way, also in an abandoned tick (R36); in the selvage the
staging unit holds (R9). -/
def execContextFillDone (i : CtxIdx) (s : State) : Host.Outcome State Fault Refusal :=
  let k := i.toNat
  .next (if s.domOn 7 && s.domOn 9 && !s.tick.selvage && (s.wayOf (ctxSet k) (ctxTag k) false).isSome && !s.resident k then
      let n := s.stagedNow + 1
      let t := s.updCtxWay k (fun y => { y with filling := false })
      { t with
        staging := t.staging.map (fun x => if x.ctx = i then { x with done := true } else x)
        stagedNow := n, stagePeak := max t.stagePeak n }
    else s)

/-- ENTRY_ELIGIBLE (R12, R238, R239, R345): two ticks after its fetch, with its payload in the OUT half as committed, its context
claimed and, for a weft entry beyond a bridge, a credit. -/
def execEntryEligible (sl : Slice) (q : QNum) (pos : BitVec 17) (s : State) : Host.Outcome State Fault Refusal :=
  let k := qKey sl.toNat q.toNat
  let qs := s.queue k
  .next (match qs.entryAt pos, (s.comQueue k).entryAt pos with
    | some e, some c =>
      if q ≠ 0 && e.op == 1 && decide (e.st = .waiting) && c.staged && decide (e.tick.toNat + 2 ≤ s.now) && s.working &&
          s.works sl.toNat then
        match s.ctxOfHandle e.handle with
        | some i =>
          if (s.ctx i).port ≠ qs.port then s.endTransfer sl.toNat q.toNat e stMismatch
          else if s.claimed i && (s.warpNames qs.port.toNat i || s.paced i) then
            s.updEntry sl.toNat q.toNat pos (fun x => { x with st := .eligible })
          else s
        | none => s.endTransfer sl.toNat q.toNat e stNoDevice
      else s
    | _, _ => s)

/-- ENTRY_BIND (R238, R239): an eligible entry for an endpoint that a warp program names becomes the transfer in progress, when the
context had none at cycle 0. -/
def execEntryBind (sl : Slice) (q : QNum) (pos : BitVec 17) (s : State) : Host.Outcome State Fault Refusal :=
  let qs := s.queue (qKey sl.toNat q.toNat)
  .next (match qs.entryAt pos with
    | some e =>
      match s.ctxOfHandle e.handle with
      | some i =>
        if e.waits && s.claimed i && s.warpNames qs.port.toNat i && (s.ctx i).queue == 0 && (s.comCtx i).queue == 0 &&
            !s.ownBusy qs.port.toNat i && s.firstFor sl.toNat q.toNat e && s.working && s.works sl.toNat then
          s.engage sl.toNat q.toNat i e .bound
        else s
      | none => s
    | none => s)

/-! ## Admin commands on devices and contexts (R177, R289) -/

/-- The status of a handle in an admin command: of a device that is not held, or of another slice. -/
def State.handleRight (s : State) (sl h : Nat) : Nat :=
  match s.ctxOfHandle h with
  | none => stNoDevice
  | some _ => if (s.dev (h / 16)).slice.toNat = sl then 0 else stNotPermitted

/-- An admin command on the context of its HANDLE. -/
def State.adminCtx (s : State) (sl op : Nat) (f : Nat → Entry → State → State) : State :=
  s.admin sl op false (fun e s =>
    let st := s.handleRight sl e.handle
    if st ≠ 0 then s.adminDone sl e st
    else match s.ctxOfHandle e.handle with
      | some i => f i e s
      | none => s.adminDone sl e stNoDevice)

/-- SET_TKT_TIMEOUT (R162, R289). -/
def execSetTktTimeout (sl : Slice) (s : State) : Host.Outcome State Fault Refusal :=
  .next (s.adminCtx sl.toNat 0x30 (fun i e s =>
    (s.updCtx i (fun c => { c with tktTimeout := BitVec.ofNat 32 (fld e.q1 63 32) })).adminDone sl.toNat e stSuccess))

/-- SET_ADDR_PLAN (R165, R289): on a route that is the slice's (R164; log entries 43, 81). -/
def execSetAddrPlan (sl : Slice) (s : State) : Host.Outcome State Fault Refusal :=
  .next (s.admin sl.toNat 0x31 false (fun e s =>
    let p := fld e.q1 63 59
    let n := fld e.q1 58 56
    let hops := hopsOf n (fld e.q1 55 31)
    if 16 < p ∨ 5 < n then s.adminDone sl.toNat e stMalformed
    else if s.routeOwner p hops ≠ sl.toNat then s.adminDone sl.toNat e stNotPermitted
    else
      (s.updPlan (planKey sl.toNat (routeKey p hops)) (fun _ => if fbit e.q1 30 then none else some (e.q1.setWidth 19))).adminDone
        sl.toNat e stSuccess))

/-- Pins the context of a handle for a slice (R177), pending. -/
def State.pinCtx (s : State) (sl h i : Nat) : State :=
  (s.updPin h (fun _ => some (BitVec.ofNat 6 sl))).updCtx i (fun c => { c with pin := true })

/-- Unpins it. -/
def State.unpinCtx (s : State) (h i : Nat) : State :=
  (s.updPin h (fun _ => none)).updCtx i (fun c => { c with pin := false })

/-- A pin of the owner's is the policy's no longer (R344). -/
def State.ownPin (s : State) (h : Nat) : State := s.updPolicy (fun y => { y with pinned := y.pinned.filter (· != h) })

/-- PIN (R177). -/
def execPin (sl : Slice) (s : State) : Host.Outcome State Fault Refusal :=
  .next (s.adminCtx sl.toNat 0x32 (fun i e s =>
    if (s.ctx i).pin || !s.pinFull sl.toNat i then
      ((s.pinCtx sl.toNat e.handle i).ownPin e.handle).adminDone sl.toNat e stSuccess
    else s.adminDone sl.toNat e stPinFull))

/-- UNPIN (R177, R183). -/
def execUnpin (sl : Slice) (s : State) : Host.Outcome State Fault Refusal :=
  .next (s.adminCtx sl.toNat 0x33 (fun i e s => ((s.unpinCtx e.handle i).ownPin e.handle).adminDone sl.toNat e stSuccess))

/-- READ_DEVICE (R289): the committed device-table entry and the contexts of the device. -/
def execReadDevice (sl : Slice) (s : State) : Host.Outcome State Fault Refusal :=
  .next (s.admin sl.toNat 0x34 false (fun e s =>
    let d := e.handle / 16
    let st := s.handleRight sl.toNat (handleOf d 0)
    if st ≠ 0 then s.adminDone sl.toNat e st
    else
      let ws := (s.comDev d).word ::
        ((List.range ((s.comDev d).nep.toNat + 1)).map (fun k => (s.comCtx ((s.comDev d).base.toNat + k)).words)).flatten
      (s.adminWords sl.toNat e.q2 ws).adminDone sl.toNat e stSuccess))

/-- RESET_SEGMENT (R164, R289): a slice that holds the prefix of the device's segment resets it, at the commit (log entry 44). -/
def execResetSegment (sl : Slice) (s : State) : Host.Outcome State Fault Refusal :=
  .next (s.admin sl.toNat 0x35 false (fun e s =>
    let d := e.handle / 16
    let st := s.handleRight sl.toNat (handleOf d 0)
    if st = stNoDevice then s.adminDone sl.toNat e st
    else
      let r := s.routeOfDev d
      if s.routeOwner r.port.toNat r.hops ≠ sl.toNat then s.adminDone sl.toNat e stNotPermitted
      else
        let s := if r.hops = [] then s.updPort r.port.toNat (fun x => { x with cmds := x.cmds ++ [(sl.toNat, .reset)] })
          else s.updSliceActs (fun l => l ++ [.reset r.port r.hops])
        s.adminDone sl.toNat e stSuccess))

/-! ## The ends of identifiers (R185, R186) -/

/-- No completion of a device awaits the commit of this tick. -/
def State.noCompletion (s : State) (d : Nat) : Bool :=
  s.cplPend.all (fun r => r.queue == 0 || fld r.c0 22 0 / 16 != d || r.slice != (s.dev d).slice)

/-- DEVICE_RELEASE (R167, R185): after the last completion of a device that left is committed. -/
def execDeviceRelease (d : DevId) (s : State) : Host.Outcome State Fault Refusal :=
  .next (if (s.comDevX d.toNat).leaving && s.noWork d.toNat && s.noCompletion d.toNat && s.working then
      s.releaseDevice d.toNat
    else s)

/-- LOST_ID_RELEASE (R186): 8,000 ticks after its device-table line was lost, when no device of the line was reset since (which clears
`lostAt` of them all). -/
def execLostIdRelease (d : DevId) (s : State) : Host.Outcome State Fault Refusal :=
  let k := d.toNat
  .next (match (s.devXAt k).lostAt with
    | some t =>
      if (s.dev k).st = .lost && decide (t.toNat + 8000 ≤ s.now) && s.working then s.releaseDevice k
      else s
    | none => s)

/-! ## Ticket timeouts (R153, R154) -/

/-- A ticket's timeout acts (R153): DEFER_TIMEOUT, and the endpoint halted, so that CLEAR_HALT clears the bridge's record too (log entry
48). -/
def State.ticketTimeout (s : State) (i : Nat) : State :=
  let c := s.ctx i
  if c.tktValid && s.works c.slice.toNat then
    let s := s.endProgress i stDeferTimeout
    let s := s.updCtx i (fun c => { c.noTicket with st := if c.st = .active then .halted else c.st })
    match s.bridgeOf i with
    | some b => (s.updBridge b (fun x => { x with timedOut := true })).count (bridgeItem b 4) 1
    | none => s
  else s

/-- DEFER_TIMEOUT (R153, R154): the deadline of a ticket is reached; it acts in the commit of the tick, unless the tick carries the
ticket's record. -/
def execDeferTimeout (i : CtxIdx) (s : State) : Host.Outcome State Fault Refusal :=
  .next (if (s.ctx i.toNat).tktValid && decide ((s.ctx i.toNat).tktDeadline.toNat ≤ s.now) && s.working &&
      s.works (s.ctx i.toNat).slice.toNat && !s.timeouts.contains i then
      { s with timeouts := s.timeouts ++ [i] }
    else s)

end Sys2Proof.Machine
end

