-- ==== Sys2Proof/Machine/WorstCase.lean ====
section
/-! DEFINITION. The worst case of a Coresh program in one phase (06 R226, R227): every cost at its worst, with the predicates that
follow from TP, immediates, g0 and loop counters resolved, and every other taken both ways. -/
namespace Sys2Proof.Machine

open Sys2Proof

/-! ## What admission knows on the way through a program -/

/-- cx as the SELC and SELCR on the way give it (R201); `unknown` where it depends on anything else. -/
inductive Cx where
  | null
  | ix (i : CtxIdx)
  | unknown
deriving DecidableEq, Repr

/-- A test of R244 that failed: its place in the table, the phase and the address. -/
structure Bad where
  test : Nat
  phase : Nat
  addr : Nat
deriving DecidableEq, Repr

/-- The tests of R244 by their place in its table. -/
def tEncoding : Nat := 0
def tFlow : Nat := 1
def tContext : Nat := 2
def tRight : Nat := 3
def tSegment : Nat := 4
def tSingle : Nat := 5
def tFinish : Nat := 6
def tWeave : Nat := 7
def tField : Nat := 8
def tClaim : Nat := 9
def tMemory : Nat := 10
def tConflict : Nat := 11

/-- Of two failed tests the one reported: the first of the table, then the lowest phase, then the lowest address (log entry 50). -/
def Bad.first (a b : Bad) : Bad :=
  let k (x : Bad) : Nat := x.test * 2 ^ 32 + x.phase * 2 ^ 20 + x.addr
  if k b < k a then b else a

/-- The state of the thread and its shuttle at their worst (R226, R227): the sums, the thread's cycle, the end of the last wire
sequence of the port and of the program, the start of the last one, the cycles at which registers (and contexts under 16 + i) are
written, the known registers and predicates with the depth of the loop whose counter they follow from, cx, the contexts named, the
first failed test, and the least room between a WEAVE's start and its VAL. Of a task run `wire` counts its FLOWs and `named` lists
their flows (R329). -/
structure Sim where
  loom : Nat := 0
  wire : Nat := 0
  t : Nat := 0
  wEnd : Nat := 0
  own : Nat := 0
  lastStart : Nat := 0
  ready : Tab Nat := []
  g : Tab (W32 × Nat) := []
  p : Tab (Bool × Nat) := []
  cx : Cx := .null
  named : List Nat := []
  bad : Option Bad := none
  slack : Option Nat := none
deriving DecidableEq, Repr

/-- Of two optional values one kept by `f`. -/
def optBy {α : Type} (f : α → α → α) : Option α → Option α → Option α
  | some a, some b => some (f a b)
  | some a, none => some a
  | none, b => b

/-- The known values on which two ways agree. -/
def agreed {α : Type} [DecidableEq α] (a b : Tab (α × Nat)) : Tab (α × Nat) :=
  a.filterMap (fun e => match b.find e.1 with
    | some y => if y.1 = e.2.1 then some (e.1, (e.2.1, max e.2.2 y.2)) else none
    | none => none)

/-- Two ways meet: each figure keeps the worse value (R227). Every later figure is a sum or a maximum, so that nothing is lost (log entry
97). -/
def Sim.join (a b : Sim) : Sim where
  loom := max a.loom b.loom
  wire := max a.wire b.wire
  t := max a.t b.t
  wEnd := max a.wEnd b.wEnd
  own := max a.own b.own
  lastStart := max a.lastStart b.lastStart
  ready := b.ready.foldl (fun t e => Tab.upd 0 t e.1 (max e.2)) a.ready
  g := agreed a.g b.g
  p := agreed a.p b.p
  cx := if a.cx = b.cx then a.cx else .unknown
  named := a.named ++ b.named.filter (fun i => !a.named.contains i)
  bad := optBy Bad.first a.bad b.bad
  slack := optBy min a.slack b.slack

/-- A register's value with the depth it follows from, where known; g0 is. -/
def Sim.reg (x : Sim) (r : Reg) : Option (W32 × Nat) := if r = 0 then some (0, 0) else x.g.find r.toNat

/-- A predicate's value where known; p0 is. -/
def Sim.pred (x : Sim) (i : Pred) : Option (Bool × Nat) := if i = 0 then some (true, 0) else x.p.find i.toNat

/-- Writes what is known of a register. -/
def Sim.setReg (r : Reg) (v : Option (W32 × Nat)) (x : Sim) : Sim :=
  if r = 0 then x
  else match v with
    | some y => { x with g := x.g.set r.toNat y }
    | none => { x with g := x.g.del r.toNat }

/-- Writes what is known of a predicate. -/
def Sim.setPred (i : Pred) (v : Option (Bool × Nat)) (x : Sim) : Sim :=
  if i = 0 then x
  else match v with
    | some y => { x with p := x.p.set i.toNat y }
    | none => { x with p := x.p.del i.toNat }

/-- Loop `d` ends: what follows from its counter is known no longer (R227; log entry 97). -/
def Sim.leave (d : Nat) (x : Sim) : Sim :=
  { x with g := x.g.filter (fun e => decide (e.2.2 < d)), p := x.p.filter (fun e => decide (e.2.2 < d)) }

/-- Cycles of the thread. -/
def Sim.charge (n : Nat) (x : Sim) : Sim := { x with loom := x.loom + n, t := x.t + n }

/-- Waits until registers or contexts are written (R226 item 3). -/
def Sim.waitFor (ks : List Nat) (x : Sim) : Sim := { x with t := ks.foldl (fun m k => max m (x.ready.get 0 k)) x.t }

/-- A test failed. -/
def Sim.fail (test phase addr : Nat) (x : Sim) : Sim :=
  { x with bad := optBy Bad.first x.bad (some { test := test, phase := phase, addr := addr }) }

/-! ## Instructions -/

/-- The guard of a Coresh instruction (R193). -/
def coreshGuard : Instr → Guard
  | .nop _ g | .endRun _ g | .br _ g _ | .selcr _ g _ => g
  | .add _ g _ _ _ | .sub _ g _ _ _ | .and _ g _ _ _ | .or _ g _ _ _ | .xor _ g _ _ _ | .shl _ g _ _ _ | .shr _ g _ _ _
  | .sar _ g _ _ _ | .min _ g _ _ _ | .max _ g _ _ _ | .mul _ g _ _ _ => g
  | .addi _ g _ _ _ | .andi _ g _ _ _ | .ori _ g _ _ _ | .xori _ g _ _ _ | .shli _ g _ _ _ | .shri _ g _ _ _ => g
  | .movi _ g _ _ | .movhi _ g _ _ | .rds _ g _ _ => g
  | .cmp _ g _ _ _ _ | .cmpi _ g _ _ _ _ | .plog _ g _ _ _ _ => g
  | .loop _ g _ _ _ | .await _ g _ _ _ => g
  | .raise _ g _ => g
  | .ldc _ g _ _ _ | .stc _ g _ _ _ => g
  | .poll _ g _ _ _ _ | .take _ g _ _ _ _ | .give _ g _ _ _ _ | .setup _ g _ _ _ _ | .ping _ g _ _ _ _
  | .defer _ g _ _ _ _ | .suspend _ g _ _ _ _ | .resume _ g _ _ _ _ => g
  | .probe _ g _ _ | .weave _ g _ _ => g
  | .snap _ g _ _ | .bound _ g _ _ _ | .act _ g _ _ | .ema _ g _ _ _ | .timer _ g _ _ _ | .flow _ g _ _ | .trace _ g _ => g
  | _ => noGuard

/-- The register that an instruction writes, g0 for none (R195, R205). -/
def coreshDest : Instr → Reg
  | .add _ _ d _ _ | .sub _ _ d _ _ | .and _ _ d _ _ | .or _ _ d _ _ | .xor _ _ d _ _ | .shl _ _ d _ _ | .shr _ _ d _ _
  | .sar _ _ d _ _ | .min _ _ d _ _ | .max _ _ d _ _ | .mul _ _ d _ _ => d
  | .addi _ _ d _ _ | .andi _ _ d _ _ | .ori _ _ d _ _ | .xori _ _ d _ _ | .shli _ _ d _ _ | .shri _ _ d _ _ => d
  | .movi _ _ d _ | .movhi _ _ d _ | .rds _ _ d _ | .ldc _ _ d _ _ => d
  | .loop _ _ d _ _ => d
  | .poll _ _ d _ _ _ | .take _ _ d _ _ _ | .give _ _ d _ _ _ | .setup _ _ d _ _ _ | .ping _ _ d _ _ _
  | .defer _ _ d _ _ _ | .suspend _ _ d _ _ _ | .resume _ _ d _ _ _ => d
  | .probe _ _ d _ | .weave _ _ d _ => d
  | .snap _ _ d _ | .bound _ _ d _ _ | .ema _ _ d _ _ => d
  | _ => 0

/-- The instruction writes register `r`. -/
def writesReg (r : Reg) (i : Instr) : Bool :=
  r != 0 && (coreshDest i == r || (match i with
    | .poll _ _ _ _ _ e => e == r
    | _ => false))

/-- The cost of an instruction (R195), but for the part of WEAVE that depends on its start. -/
def coreshCost : Instr → Nat
  | .mul _ _ _ _ _ => 3
  | .br _ _ _ | .loop _ _ _ _ _ | .await _ _ _ _ _ | .selc _ _ | .selcr _ _ _ | .ldc _ _ _ _ _ | .stc _ _ _ _ _ => 2
  | .raise _ _ (.event _ _) => 4
  | .raise _ _ (.flag _ _) => 2
  | .poll _ _ _ _ _ _ | .ping _ _ _ _ _ _ => 40
  | .take _ _ _ n _ _ | .give _ _ _ n _ _ | .setup _ _ _ n _ _ | .defer _ _ _ n _ _ => sheafCost n
  | .suspend _ _ _ _ _ _ | .resume _ _ _ _ _ _ => 16
  | .probe _ _ _ _ | .weave _ _ _ _ => 8
  | .snap _ _ _ _ | .ema _ _ _ _ _ | .trace _ _ _ => 2
  | .bound _ _ _ _ _ | .flow _ _ _ _ => 3
  | .act _ _ _ _ | .timer _ _ _ _ _ => 4
  | _ => 1

/-- What an instruction that computes on registers writes, from the values of its sources (R190, R195); none for any other. -/
def computed (r : Reg → W32) : Instr → Option W32
  | .add _ _ _ a b => some (r a + r b)
  | .sub _ _ _ a b => some (r a - r b)
  | .and _ _ _ a b => some (r a &&& r b)
  | .or _ _ _ a b => some (r a ||| r b)
  | .xor _ _ _ a b => some (r a ^^^ r b)
  | .shl _ _ _ a b => some (r a <<< ((r b).toNat % 32))
  | .shr _ _ _ a b => some (r a >>> ((r b).toNat % 32))
  | .sar _ _ _ a b => some ((r a).sshiftRight ((r b).toNat % 32))
  | .min _ _ _ a b => some (if (r a).toInt ≤ (r b).toInt then r a else r b)
  | .max _ _ _ a b => some (if (r a).toInt ≤ (r b).toInt then r b else r a)
  | .mul _ _ _ a b => some (r a * r b)
  | .addi _ _ _ a i => some (r a + immS i)
  | .andi _ _ _ a i => some (r a &&& immZ i)
  | .ori _ _ _ a i => some (r a ||| immZ i)
  | .xori _ _ _ a i => some (r a ^^^ immZ i)
  | .shli _ _ _ a i => some (r a <<< (i.toNat % 32))
  | .shri _ _ _ a i => some (r a >>> (i.toNat % 32))
  | .movi _ _ _ i => some (i.setWidth 32)
  | .movhi _ _ d i => some ((i.setWidth 32 <<< 16) ||| (r d &&& 0xFFFF))
  | _ => none

/-- The registers from which it computes. -/
def sources : Instr → List Reg
  | .add _ _ _ a b | .sub _ _ _ a b | .and _ _ _ a b | .or _ _ _ a b | .xor _ _ _ a b | .shl _ _ _ a b | .shr _ _ _ a b
  | .sar _ _ _ a b | .min _ _ _ a b | .max _ _ _ a b | .mul _ _ _ a b | .cmp _ _ _ _ a b => [a, b]
  | .addi _ _ _ a _ | .andi _ _ _ a _ | .ori _ _ _ a _ | .xori _ _ _ a _ | .shli _ _ _ a _ | .shri _ _ _ a _
  | .cmpi _ _ _ _ a _ => [a]
  | .movhi _ _ d _ => [d]
  | _ => []

/-- The depth of the sources when all of them are known, at least `dep`. -/
def Sim.depthOf (x : Sim) (dep : Nat) (rs : List Reg) : Option Nat :=
  rs.foldl (fun acc r => match acc, x.reg r with
    | some d, some y => some (max d y.2)
    | _, _ => none) (some dep)

/-- The result that an instruction leaves known, when its sources are (R227). -/
def Sim.result (x : Sim) (dep phase : Nat) (i : Instr) : Option (W32 × Nat) :=
  match i with
  | .rds _ _ _ sel => if sel = 0 then some (BitVec.ofNat 32 phase, dep) else none
  | _ =>
    match x.depthOf dep (sources i), computed (fun r => ((x.reg r).map (·.1)).getD 0) i with
    | some d, some v => some (v, d)
    | _, _ => none

/-- The predicate that a compare or PLOG leaves known, when its sources are (R196, R227). -/
def Sim.compared (x : Sim) (dep : Nat) (i : Instr) : Option (Bool × Nat) :=
  let v (r : Reg) : W32 := ((x.reg r).map (·.1)).getD 0
  match i with
  | .cmp _ _ _ c a b => (x.depthOf dep [a, b]).map (fun d => (condHolds c (v a) (v b), d))
  | .cmpi _ _ _ c a k => (x.depthOf dep [a]).map (fun d => (condHolds c (v a) (k.signExtend 32), d))
  | .plog _ _ _ pa pb fn =>
    match x.pred pa, x.pred pb with
    | some y, some z => some (plogFn fn y.1 z.1, max dep (max y.2 z.2))
    | _, _ => none
  | _ => none

/-! ## The program under admission -/

/-- What the worst case of a program depends on: the port, the slice and the speed (R244); the entry of its segment, the end of the
lead, and its code. -/
structure Job where
  u : CUnit
  sl : Nat
  speed : Speed
  entry : Nat := 0
  lead : Nat := 0
  code : List Instr
deriving DecidableEq, Repr

/-- The root port of a loom's program. -/
def Job.port (j : Job) : Nat :=
  match j.u with
  | .loom p => p.toNat
  | .core _ => 16

/-- The MPS charged for a context (R204). -/
def State.chargedMps (s : State) (sp : Speed) (i : Nat) : Nat :=
  if (s.ctx i).st = .active then (s.ctx i).mps.toNat else payloadLimit sp

/-- The context lies within the barn blocks of a slice (R201). -/
def State.inBarn (s : State) (sl i : Nat) : Bool := decide (i / 1024 < 5120) && s.barnOwner (i / 1024) == sl

/-- An instruction names the context at cx (R201): it must be known, and lie in the slice's barn. -/
def State.simUse (s : State) (j : Job) (phase a : Nat) (x : Sim) : Sim :=
  match x.cx with
  | .ix i =>
    let x := { x with named := if x.named.contains i.toNat then x.named else i.toNat :: x.named }
    if s.inBarn j.sl i.toNat then x else x.fail tContext phase a
  | _ => x.fail tContext phase a

/-- The device of a hub's context whose subtree the attach table does not give whole to the slice (R215). -/
def State.subtreeForeign (s : State) (sl i : Nat) : Bool :=
  let c := s.ctx i
  let hops := hopsOf c.depth.toNat c.hops.toNat
  (s.dev (c.handle.toNat / 16)).hub &&
    (s.routeOwner c.port.toNat hops != sl ||
      (s.attach.map (·.1)).any (fun k =>
        k % 32 == c.port.toNat && (hopsOf (k / 32 % 8) (k / 256)).take hops.length == hops &&
          (match s.attachAt k with
           | some e => e.1.toNat != sl
           | none => false)))

/-- The context at cx, as far as it is now known to be one that runs (R204). -/
def State.simCtx (s : State) (x : Sim) : Option Ctx :=
  match x.cx with
  | .ix i => let c := s.ctx i.toNat
             if c.st = .active ∨ c.st = .halted then some c else none
  | _ => none

/-- The port and speed of the context at cx do not suit the program, or `suits` fails for it: a mismatch known now (R204). -/
def State.simMatch (s : State) (j : Job) (phase a : Nat) (suits : Ctx → Bool) (x : Sim) : Sim :=
  match s.simCtx x with
  | some c => if c.port.toNat ≠ j.port || decide (c.sp ≠ j.speed) || !suits c then x.fail tContext phase a else x
  | none => x

/-- At Field speed the phase-7 tick issues nothing (R244). -/
def Job.fieldTest (j : Job) (phase a : Nat) (x : Sim) : Sim :=
  if j.speed = .field ∧ phase % 8 = 7 then x.fail tField phase a else x

/-- A wire sequence of cost `w` (R226 items 2 and 5): issued once the one before it has started. -/
def Sim.sequence (cost w : Nat) (ks : List Nat) (x : Sim) : Sim :=
  let t := max x.t x.lastStart + cost
  let start := max t x.wEnd
  { x with
    loom := x.loom + cost, t := t, lastStart := start, wEnd := start + w, own := start + w, wire := x.wire + w
    ready := ks.foldl (fun y k => Tab.upd 0 y k (max (start + w))) x.ready }

/-- A wire instruction on the context at cx (R204, R224, R225, R226; log entry 97). -/
def State.simBus (s : State) (j : Job) (phase a : Nat) (k : WKind) (cnt : BitVec 3) (rty : BitVec 2) (d e : Reg) (cost : Nat)
    (x : Sim) : Sim :=
  let x := s.simMatch j phase a (kindSuits k) (s.simUse j phase a (j.fieldTest phase a x))
  let i := match x.cx with
    | .ix i => i.toNat
    | _ => 0
  let w := wireCost k j.speed (cnt.toNat + 1) rty.toNat (s.chargedMps j.speed i)
  let x := if 12000 < w then x.fail tSingle phase a else x
  ((x.sequence cost w ([d.toNat, e.toNat].filter (· != 0) ++ [16 + i])).setReg d none).setReg e none

/-- SUSPEND or RESUME (R215): no wire time; rejected for a DEFERRED context and for a hub's whose subtree is not all the slice's. -/
def State.simSegment (s : State) (j : Job) (phase a : Nat) (d : Reg) (x : Sim) : Sim :=
  let x := s.simMatch j phase a (fun _ => true) (s.simUse j phase a (j.fieldTest phase a x))
  let x := match x.cx with
    | .ix i =>
      let c := s.ctx i.toNat
      if decide (c.st ≠ CtxSt.free) && (c.deferred || s.subtreeForeign j.sl i.toNat) then x.fail tRight phase a else x
    | _ => x
  (({ x with t := max x.t x.lastStart } : Sim).charge 16).setReg d none

/-- WEAVE (R217): from its worst-case start to VAL. -/
def Sim.weave (j : Job) (phase a val : Nat) (d : Reg) (x : Sim) : Sim :=
  let x := j.fieldTest phase a x
  let start := max x.t x.wEnd
  let span := val - start
  let x := if val ≤ start then x.fail tWeave phase a else x
  ({ x with
    loom := x.loom + 8 + span, wire := x.wire + span, t := start + 8 + span, wEnd := max x.wEnd val, own := max x.own val
    slack := optBy min x.slack (some span) } : Sim).setReg d none

/-- What an instruction that executes does to the worst case; `dep` is the depth that its guard follows from. A loom RAISE counts as no
instruction that uses cx in the sense of R201: it names no context (log entry 97). -/
def State.simExec (s : State) (j : Job) (phase a dep : Nat) (i : Instr) (x : Sim) : Sim :=
  let x := x.waitFor ((coreshRegs i).map (·.toNat))
  let loom := j.u.isLoom
  match i with
  | .poll _ _ d cnt rty e => s.simBus j phase a .poll cnt rty d e (coreshCost i) x
  | .take _ _ d cnt rty _ => s.simBus j phase a .take cnt rty d 0 (coreshCost i) x
  | .give _ _ d cnt rty _ => s.simBus j phase a .give cnt rty d 0 (coreshCost i) x
  | .setup _ _ d cnt rty _ => s.simBus j phase a .setup cnt rty d 0 (coreshCost i) x
  | .ping _ _ d cnt rty _ => s.simBus j phase a .ping cnt rty d 0 (coreshCost i) x
  | .defer _ _ d cnt rty _ => s.simBus j phase a .defer cnt rty d 0 (coreshCost i) x
  | .suspend _ _ d _ _ _ | .resume _ _ d _ _ _ => s.simSegment j phase a d x
  | .probe _ _ d v =>
    ((j.fieldTest phase a x).sequence 8 (wireCost (.probe v.toNat) j.speed 1 0 0) ([d.toNat].filter (· != 0))).setReg d none
  | .weave _ _ d v => x.weave j phase a v.toNat d
  | .selc _ idx => { x.charge 2 with cx := .ix idx }
  | .selcr _ _ off => { x.charge 2 with cx := match x.cx with
      | .ix i => .ix (i + off.signExtend 23)
      | c => c }
  | .await _ _ mode _ cyc =>
    let x := x.charge 2
    if loom then { x with t := max x.t (if mode = 0 then cyc.toNat else x.own) } else x
  | .ldc _ _ d _ _ =>
    let x := if loom then
        let x := s.simUse j phase a x
        match x.cx with
        | .ix i => x.waitFor [16 + i.toNat]
        | _ => x
      else x
    (x.charge 2).setReg d none
  | .stc _ _ _ _ _ => (if loom then s.simUse j phase a x else x).charge 2
  | .cmp _ _ pd _ _ _ | .cmpi _ _ pd _ _ _ | .plog _ _ pd _ _ _ => (x.charge 1).setPred pd (x.compared dep i)
  | .flow _ _ f _ =>
    let x := x.charge 3
    { x with wire := x.wire + 1, named := if x.named.contains f.toNat then x.named else f.toNat :: x.named }
  | _ => (x.charge (coreshCost i)).setReg (coreshDest i) (x.result dep phase i)

/-! ## The way through the program (R198, R199, R227) -/

/-- An arrival: at an address, or at the end of the program; by a branch or not. -/
structure Arrival where
  dst : Option Nat
  branch : Bool := false
  x : Sim

/-- A region on the way: the states that arrive at its addresses, those that ended the program, those that fell through its end,
and those that branched past it. -/
structure Walk where
  arr : Tab Sim := []
  ends : Option Sim := none
  fall : Option Sim := none
  exit : Option Sim := none

/-- Files an arrival in a region that ends before `hi`. -/
def Walk.put (hi : Nat) (w : Walk) (a : Arrival) : Walk :=
  match a.dst with
  | none => { w with ends := optBy Sim.join w.ends (some a.x) }
  | some t =>
    if t = hi then
      if a.branch then { w with exit := optBy Sim.join w.exit (some a.x) }
      else { w with fall := optBy Sim.join w.fall (some a.x) }
    else { w with arr := w.arr.set t (match w.arr.find t with
      | some y => Sim.join y a.x
      | none => a.x) }

/-- Goes through a region in address order: branches go forward only. -/
def region (f : Nat → Instr → Sim → List Arrival) (hi : Nat) : List Instr → Nat → Walk → Walk
  | [], _, w => w
  | i :: r, pc, w =>
    region f hi r (pc + 1) (match w.arr.find pc with
      | some x => (f pc i x).foldl (Walk.put hi) w
      | none => w)

/-- The guard of an instruction as far as it is resolved (R227). -/
def Sim.guard (x : Sim) (gd : Guard) : Option (Bool × Nat) := (x.pred gd.pr).map (fun v => (v.1.xor gd.neg, v.2))

/-- The instruction ends the program or run when it executes (R192, R200). -/
def endsRun (j : Job) : Instr → Bool
  | .endRun _ _ => true
  | .await _ _ _ _ _ => !j.u.isLoom
  | _ => false

/-- An instruction other than LOOP: a guard that fails costs 1 cycle, one that is not resolved is taken both ways. -/
def State.simPlain (s : State) (j : Job) (phase pc : Nat) (i : Instr) (x : Sim) : List Arrival :=
  let gv := x.guard (coreshGuard i)
  match i with
  | .br _ _ off =>
    let y := x.charge 2
    let taken : Arrival := { dst := some (pc + 1 + off.toNat), branch := true, x := y }
    let passed : Arrival := { dst := some (pc + 1), x := y }
    match gv with
    | some (true, _) => [taken]
    | some (false, _) => [passed]
    | none => [passed, taken]
  | _ =>
    let skip : Arrival := { dst := some (pc + 1), x := x.charge 1 }
    let run (dep : Nat) : Arrival :=
      { dst := if endsRun j i then none else some (pc + 1), x := s.simExec j phase pc dep i x }
    match gv with
    | some (true, d) => [run d]
    | some (false, _) => [skip]
    | none => [run 0, skip]

/-- The iterations of a loop (R199, R227): `n` are left of `total`. -/
def loopRuns (body : Sim → Walk) (ctr : Reg) (depth total : Nat) : Nat → Sim → List Arrival → Nat → List Arrival
  | 0, x, acc, after => { dst := some after, x := x.leave depth } :: acc
  | n + 1, x, acc, after =>
    let w := body (x.setReg ctr (some (BitVec.ofNat 32 (total - (n + 1)), depth)))
    let acc := (match w.ends with
      | some y => [{ dst := none, x := y }]
      | none => []) ++ (match w.exit with
      | some y => [{ dst := some after, x := y.leave depth }]
      | none => []) ++ acc
    match w.fall with
    | some y => loopRuns body ctr depth total n (y.charge 1) acc after
    | none => acc

/-- One instruction on the way, with loops to a nesting of `k` (R199). -/
def State.simStep (s : State) (j : Job) (phase : Nat) : Nat → Nat → Instr → Sim → List Arrival
  | 0, pc, i, x => s.simPlain j phase pc i x
  | k + 1, pc, i, x =>
    match i with
    | .loop _ gd d n len =>
      let after := pc + 1 + len.toNat
      let skip : Arrival := { dst := some after, x := x.charge 1 }
      let body (y : Sim) : Walk :=
        region (s.simStep j phase k) after ((j.code.drop (pc + 1)).take len.toNat) (pc + 1) { arr := [(pc + 1, y)] }
      let runs := loopRuns body d (2 - k) n.toNat n.toNat ((x.waitFor [d.toNat]).charge 2) [] after
      match x.guard gd with
      | some (true, _) => runs
      | some (false, _) => [skip]
      | none => skip :: runs
    | _ => s.simPlain j phase pc i x

/-- The figures of a phase (R227) from address `from`, with what the way through it named and failed (log entry 97). -/
def State.simPhase (s : State) (j : Job) (phase start : Nat) : Sim :=
  let x0 : Sim := { t := j.entry, wEnd := max j.entry j.lead }
  let n := j.code.length
  if n ≤ start then x0
  else
    let w := region (s.simStep j phase 2) n (j.code.drop start) start { arr := [(start, x0)] }
    (optBy Sim.join w.ends (optBy Sim.join w.fall w.exit)).getD x0

/-- The finish cycle (R226 item 5). -/
def Sim.finish (x : Sim) : Nat := max x.t x.own

end Sys2Proof.Machine
end

