-- ==== Sys2Proof/Machine/Admission.lean ====
section
/-! DEFINITION. The admission of warp programs (07 R243 to R250): the tests of R244 and the report of R245, against the schedule that
the changes already admitted leave. -/
namespace Sys2Proof.Machine

open Sys2Proof

/-! ## Encoding and flow (R193 to R200) -/

/-- The fields that the encoding test checks: those of R194 to R197, and VAL of WEAVE (R217); MODE of AWAIT is a matter of flow. -/
def admField : Instr → Bool
  | .await _ _ _ _ _ => true
  | .weave _ _ _ v => decide (1 ≤ v.toNat ∧ v.toNat ≤ 12000)
  | i => i.coreshWf

/-- The instruction of a word at admission. -/
def admInstr (u : CUnit) (w : W32) : Option Instr :=
  match coreshFields u w with
  | some i => if encodeCoresh i = some w ∧ admField i = true then some i else none
  | none => none

/-- The instructions of a code, or the address of the first word that is no valid encoding. -/
def admDecode (u : CUnit) : List W32 → Nat → List Instr ⊕ Nat
  | [], _ => .inl []
  | w :: r, a =>
    match admInstr u w with
    | none => .inr a
    | some i => match admDecode u r (a + 1) with
      | .inl l => .inl (i :: l)
      | .inr b => .inr b

/-- The body of a LOOP: its first address, the first after it, and its counter. -/
structure Body where
  lo : Nat
  hi : Nat
  ctr : Reg

/-- The loop bodies of a code, from address `a`. -/
def bodies : List Instr → Nat → List Body
  | [], _ => []
  | .loop _ _ d _ len :: r, a => { lo := a + 1, hi := a + 1 + len.toNat, ctr := d } :: bodies r (a + 1)
  | _ :: r, a => bodies r (a + 1)

/-- The bodies that hold address `a`, innermost last. -/
def holding (bs : List Body) (a : Nat) : List Body := bs.filter (fun b => decide (b.lo ≤ a ∧ a < b.hi))

/-- R198 to R200 hold for the instruction at address `a` (log entry 97). -/
def flowOk (code : List Instr) (bs : List Body) (a : Nat) (i : Instr) : Bool :=
  let inn := holding bs a
  match i with
  | .loop _ _ d n len =>
    let hi := a + 1 + len.toNat
    decide (1 ≤ n.toNat ∧ 1 ≤ len.toNat ∧ hi ≤ code.length ∧ inn.length ≤ 1) && inn.all (fun b => decide (hi ≤ b.hi)) &&
      ((code.drop (a + 1)).take len.toNat).all (fun x => !writesReg d x)
  | .br _ _ off =>
    let t := a + 1 + off.toNat
    decide (t ≤ code.length) && inn.all (fun b => decide (t ≤ b.hi)) &&
      bs.all (fun b => !decide (b.lo ≤ t ∧ t < b.hi) || decide (b.lo ≤ a ∧ a < b.hi))
  | .await u _ mode _ cyc => (if u.isLoom then decide (mode.toNat < 2) else decide (2 ≤ mode.toNat)) && decide (cyc.toNat < 12000)
  | _ => true

/-- The first address from `a` at which a test on instructions fails (log entry 97). -/
def firstBad (f : Nat → Instr → Bool) : List Instr → Nat → Option Nat
  | [], _ => none
  | i :: r, a => if f a i then firstBad f r (a + 1) else some a

/-- STC stores only W7 and W2 [63:32] (R163). -/
def storeOk : Instr → Bool
  | .stc u _ _ word h => !u.isLoom || word == 7 || (word == 2 && h)
  | _ => true

/-! ## Reports (R245) -/

/-- The RESULT codes of R245. -/
def resAdmitted : Nat := 0x00
def resEncoding : Nat := 0x01
def resContext : Nat := 0x03
def resBudget : Nat := 0x04
def resMemory : Nat := 0x06
def resConflict : Nat := 0x08
def resSegment : Nat := 0x09

/-- The RESULT of a failed test of R244. -/
def Bad.result (b : Bad) : Nat := [0x01, 0x02, 0x03, 0x07, 0x09, 0x04, 0x04, 0x04, 0x04, 0x05, 0x06, 0x08].getD b.test 0x04

/-- An admission report, but for SWITCH (R245). -/
structure Rep where
  result : Nat := 0
  phase : Nat := 0xFF
  addr : Nat := 0xFFFF
  loom : Nat := 0
  finish : Nat := 0
  wire : Nat := 0
  limit : Nat := 0
deriving DecidableEq, Repr

/-- A figure in 16 bits; a larger one shows the largest (log entry 51). -/
def cap16 (n : Nat) : Nat := min n 0xFFFF

/-- The report's bits [127:64] (R245; log entry 107). -/
def Rep.c2 (r : Rep) : W64 :=
  BitVec.ofNat 64 (r.result * 2 ^ 56 + r.phase * 2 ^ 48 + r.addr * 2 ^ 32 + cap16 r.loom * 2 ^ 16 + cap16 r.finish)

/-- The report's bits [63:0] with the switch tick (R245; log entry 107). -/
def Rep.c3 (r : Rep) (sw : W32) : W64 := BitVec.ofNat 64 (cap16 r.wire * 2 ^ 48 + cap16 r.limit * 2 ^ 32 + sw.toNat)

/-- Completes an admission request with its report (R245, R281, R283; log entry 101). -/
def State.admReport (s : State) (sl : Nat) (e : Entry) (r : Rep) (sw : W32) : State :=
  if r.result = resAdmitted then s.adminDone sl e stSuccess r.c2 (r.c3 sw) else s.adminDone sl e stRejected r.c2 (r.c3 0)

/-! ## Schedules to come (R246) -/

/-- A change as it applies to a schedule. -/
def Change.apply (c : Change) (x : SchedS) : SchedS :=
  match c with
  | .install k g => { x with progs := x.progs.set k g, changed := true }
  | .remove k => { x with progs := x.progs.del k, changed := true }
  | .table t allow poll => { x with segs := some t, wardenAllow := some allow, treePoll := poll, changed := true }

/-- The schedule that the admitted changes leave (log entry 98). -/
def SchedS.later (x : SchedS) : SchedS := { x.changes.foldl (fun y c => c.2.apply y) x with changes := [] }

/-- The speed at which a port's programs are admitted (R244). -/
def State.admSpeed (s : State) (p : Nat) : Speed :=
  if (s.port p).speed ≠ .none then (s.port p).speed
  else if (s.schedAt p).lastSpeed ≠ .none then (s.schedAt p).lastSpeed
  else .plant

/-- The switch tick of a change admitted in this tick (R246): the first multiple of the largest period two ticks on or later. -/
def State.switchAt (s : State) (period : Nat) : BitVec 48 :=
  let p := max 1 period
  BitVec.ofNat 48 ((s.now + 2 + p - 1) / p * p)

/-- The period of the program in a segment, 1 where there is none. -/
def SchedS.periodOf (x : SchedS) (k : Nat) : Nat :=
  match x.progs.find k with
  | some g => 2 ^ g.period
  | none => 1

/-- Adds changes of a port for a switch tick. -/
def State.addChanges (s : State) (p : Nat) (sw : BitVec 48) (cs : List Change) : State :=
  s.updSched p (fun x => { x with changes := x.changes ++ cs.map (fun c => (sw, c)) })

/-! ## The tests across the module (R178, R189) -/

/-- Instructions that a loom holds (R189). -/
def loomRoom : Nat := 16384

/-- The instructions of a port's programs, those in force and those admitted (R244 Memory, R246). -/
def State.codeOf (s : State) (p : Nat) : Nat :=
  ((s.schedAt p).progs.map (fun g => g.2.code.length)).sum +
  ((s.schedAt p).changes.map (fun c => match c.2 with
    | .install _ g => g.code.length
    | _ => 0)).sum

/-- The instructions in the loom of a port. -/
def State.loomCode (s : State) (p : Nat) : Nat := s.codeOf (p / 2 * 2) + s.codeOf (p / 2 * 2 + 1)

/-- The other programs of the module beside segment `k` of port `p` under schedule `x`. -/
def State.otherProgs (s : State) (p k : Nat) (x : SchedS) : List Prog :=
  ((List.range 16).map (fun q =>
    if q = p then (x.progs.filter (fun g => g.1 != k)).map (·.2) else (s.schedAt q).later.progs.map (·.2))).flatten

/-- Each number once. -/
def once (l : List Nat) : List Nat := l.foldl (fun acc i => if acc.contains i then acc else i :: acc) []

/-- The claims of a set of programs hold in a tick (R178). -/
def State.claimsHold (s : State) (gs : List Prog) (tick : Nat) : Bool :=
  let l := once (((gs.map (fun g => g.namesAt tick)).flatten).filter (fun i => !(s.ctx i).pin))
  decide (l.length ≤ 2400) &&
    l.all (fun i => decide ((l.filter (fun j => ctxSet j == ctxSet i)).length ≤ (12 - s.grantedWays) / 2))

/-- The first phase in which the claims fail. -/
def State.claimFails (s : State) (gs : List Prog) : Option Nat :=
  (List.range (gs.foldl (fun m g => max m (2 ^ g.period)) 1)).find? (fun t => !s.claimsHold gs t)

/-! ## Admission of a warp program (R244) -/

/-- A warp program as submitted: the port, segment and slice, log2 of the period, the weaver's mark and the words; `again` for one
that instruction memory holds already. -/
structure WarpReq where
  port : Nat
  seg : Nat
  sl : Nat
  period : Nat
  weaver : Bool
  code : List W32
  again : Bool := false

/-- What an admission found: the report, the program when it passed, and the figures by phase. -/
structure Admitted where
  rep : Rep
  prog : Option Prog
  phases : List Sim

/-- END of a segment in a table. -/
def endOf (t : Tab Seg) (k : Nat) : Option Nat := (t.find k).map (·.stop)

/-- The worst case of a program under a schedule (R227, R231). -/
def State.warpJob (s : State) (r : WarpReq) (x : SchedS) (code : List Instr) : Job :=
  let sp := s.admSpeed r.port
  { u := .loom (BitVec.ofNat 4 r.port), sl := r.sl, speed := sp
    entry := if r.seg = 0 then 0 else (endOf (s.segsIn r.port x) (r.seg - 1)).getD 0
    lead := treeAllowAt x.wardenAllow sp, code := code }

/-- The slice holds the segment, and it is the weaver's exactly when the weaver generated the program (R244). -/
def State.segHeld (s : State) (r : WarpReq) (x : SchedS) : Bool :=
  match (s.segsIn r.port x).find r.seg with
  | some g => g.slice.toNat == r.sl && g.weaver == r.weaver
  | none => false

/-- The slice's registrations or its own program on the port name one endpoint with this program (R250; log entry 98). -/
def State.warpConflict (s : State) (r : WarpReq) (x : SchedS) (named : List Nat) : Bool :=
  if r.weaver then
    x.progs.any (fun g => g.1 != r.seg && g.2.slice.toNat == r.sl && (match (s.segsIn r.port x).find g.1 with
      | some y => !y.weaver
      | none => false) && x.regs.any (fun q => q.slice.toNat == r.sl && (match s.ctxOfHandle q.handle.toNat with
        | some i => named.contains i && (g.2.named.find i).isSome
        | none => false)))
  else
    x.regs.any (fun q => q.slice.toNat == r.sl && (match s.ctxOfHandle q.handle.toNat with
      | some i => named.contains i
      | none => false))

/-- The tests of R244 that need no phase; `code` is what the encoding test left. -/
def State.staticBad (s : State) (r : WarpReq) (x : SchedS) (code : List Instr) : List Bad :=
  let at? (test : Nat) (a : Option Nat) : List Bad :=
    match a with
    | some n => [{ test := test, phase := 0xFF, addr := n }]
    | none => []
  let whole (test : Nat) (fails : Bool) : List Bad := if fails then [{ test := test, phase := 0xFF, addr := 0xFFFF }] else []
  at? tContext (firstBad (fun _ i => storeOk i) code 0) ++
  at? tRight (firstBad (fun _ i => match i with
    | .probe _ _ _ v => decide (1 ≤ v.toNat ∧ v.toNat ≤ 100) && s.probeOwner r.port == r.sl
    | _ => true) code 0) ++
  whole tSegment (!s.segHeld r x) ++
  whole tField (decide (s.admSpeed r.port = .field ∧ r.period < 3))

/-- Admission of a warp program against a schedule, with `extra` instructions that the same request puts into the loom (R244,
R245). LIMIT is 12,000 for a segment that does not exist (log entry 99). -/
def State.admitProg (s : State) (r : WarpReq) (x : SchedS) (extra : Nat) : Admitted :=
  let limit := (endOf (s.segsIn r.port x) r.seg).getD 12000
  let fail (b : Bad) : Admitted :=
    { rep := { result := b.result, phase := b.phase, addr := b.addr, limit := limit }, prog := none, phases := [] }
  match admDecode (.loom (BitVec.ofNat 4 r.port)) r.code 0 with
  | .inr a => fail { test := tEncoding, phase := 0xFF, addr := a }
  | .inl code =>
    match firstBad (flowOk code (bodies code 0)) code 0 with
    | some a => fail { test := tFlow, phase := 0xFF, addr := a }
    | none =>
      let j := s.warpJob r x code
      let sp := j.speed
      let ph := (List.range (2 ^ r.period)).map (fun t => s.simPhase j t 0)
      let fin := (List.range (2 ^ r.period)).map (fun t => (ph.getD t {}).finish + noticeAllow sp (t % 8))
      let worst := fin.foldl max 0
      let worstPhase := ((List.range (2 ^ r.period)).find? (fun t => fin.getD t 0 == worst)).getD 0
      let late : List Bad := ((List.range (2 ^ r.period)).filter (fun t => decide (limit < fin.getD t 0))).map
        (fun t => { test := tFinish, phase := t, addr := 0xFFFF })
      let named := once (ph.map (·.named)).flatten
      let g : Prog :=
        { slice := BitVec.ofNat 6 r.sl, code := r.code, period := r.period, speed := sp
          named := named.foldl (fun t i => Tab.set t i (s.chargedMps sp i)) []
          phases := ph.map (·.named), loom := (ph.map (·.loom)).foldl max 0, finish := worst, wire := (ph.map (·.wire)).foldl max 0 }
      let claim : List Bad := match s.claimFails (g :: s.otherProgs r.port r.seg x) with
        | some t => [{ test := tClaim, phase := t % 2 ^ r.period, addr := 0xFFFF }]
        | none => []
      let mem : List Bad :=
        if loomRoom < s.loomCode r.port + extra + (if r.again then 0 else r.code.length) then [{ test := tMemory, phase := 0xFF, addr := 0xFFFF }] else []
      let conf : List Bad := if s.warpConflict r x named then [{ test := tConflict, phase := 0xFF, addr := 0xFFFF }] else []
      let bads := s.staticBad r x code ++ ph.filterMap (·.bad) ++ late ++ claim ++ mem ++ conf
      let base : Rep := { loom := g.loom, finish := worst, wire := g.wire, limit := limit }
      match bads with
      | [] => { rep := { base with phase := worstPhase }, prog := some g, phases := ph }
      | b :: l =>
        let b := l.foldl Bad.first b
        { rep := { base with result := b.result, phase := b.phase, addr := b.addr }, prog := none, phases := ph }

end Sys2Proof.Machine
end

