-- ==== Sys2Proof/Machine/Weaver.lean ====
section
/-! DEFINITION. The weaver (07 R253 to R257): placement of the periodic registrations of a slice on a port, and the program that it
emits. -/
namespace Sys2Proof.Machine

open Sys2Proof

/-- A registration that can be placed: its handle, the context, the interval in effect, its instruction, and cost (R253, R254). -/
structure WItem where
  handle : Nat
  ctx : Nat
  interval : Nat
  kind : WKind
  cnt : Nat
  rty : Nat
  cost : Nat
deriving DecidableEq, Repr

/-- A placed registration and its lowest phase. -/
structure Placed where
  item : WItem
  phi : Nat
deriving DecidableEq, Repr

/-- The largest power of two that is no greater (R253); 1 at least. -/
def floorPow (n : Nat) : Nat := 2 ^ (Nat.log2 n)

/-- The interval in effect of a registration (R253, R342): as the back-off policy has raised it, a power of two, at Field speed 8 or
more. -/
def State.interval (s : State) (sp : Speed) (r : PReg) : Nat :=
  let n := match s.policyNow.backoff.find r.handle.toNat with
    | some b => max b.1 r.interval
    | none => r.interval
  let v := floorPow n
  if sp = .field then max 8 v else v

/-- The instruction that serves a registration (R253). -/
def weaveKind (c : Ctx) : WKind := if c.deferred then .defer else if c.dirIn then .take else .give

/-- A registration as the weaver places it; none while its handle names no context of the port. -/
def State.item (s : State) (p : Nat) (sp : Speed) (r : PReg) : Option WItem :=
  match s.ctxOfHandle r.handle.toNat with
  | some i =>
    let c := s.ctx i
    if c.port.toNat = p then
      let k := weaveKind c
      some { handle := r.handle.toNat, ctx := i, interval := s.interval sp r, kind := k, cnt := r.cnt, rty := r.rty
             cost := wireCost k sp (r.cnt + 1) r.rty (s.chargedMps sp i) }
    else none
  | none => none

/-- Puts a registration in order of interval, then handle (R254). -/
def insertItem (x : WItem) : List WItem → List WItem
  | [] => [x]
  | y :: t =>
    if x.interval < y.interval ∨ (x.interval = y.interval ∧ x.handle < y.handle) then x :: y :: t else y :: insertItem x t

/-- The registrations of a slice that can be placed, in order. -/
def State.weaveItems (s : State) (p sl : Nat) (x : SchedS) : List WItem :=
  ((x.regs.filter (fun r => r.slice.toNat == sl)).filterMap (s.item p (s.admSpeed p))).foldl (fun acc y => insertItem y acc) []

/-- The registration is served in phase `ph`. -/
def Placed.servedAt (y : Placed) (ph : Nat) : Bool := decide (y.phi ≤ ph) && (ph - y.phi) % y.item.interval == 0

/-- VAL of a phase's WEAVE (R255). -/
def weaveVal (stop : Nat) (sp : Speed) (ph : Nat) : Nat := stop - noticeAllow sp (ph % 8) - 9

/-- The instruction word of a registration. -/
def WItem.instr (p : Port) (y : WItem) : Instr :=
  let n := BitVec.ofNat 3 y.cnt
  let r := BitVec.ofNat 2 y.rty
  match y.kind with
  | .defer => .defer p noGuard 0 n r 0
  | .take => .take p noGuard 0 n r 0
  | _ => .give p noGuard 0 n r 0

/-- The block of a phase (R255); `weave` when its WEAVE is emitted. -/
def weaveBlock (p : Port) (placed : List Placed) (ph val : Nat) (weave : Bool) : List Instr :=
  let u : CUnit := .loom p
  let body : List Instr :=
    ((placed.filter (fun y => y.servedAt ph)).map (fun y =>
      [Instr.selc p (BitVec.ofNat 23 y.item.ctx), y.item.instr p])).flatten ++
    (if weave then [Instr.weave p noGuard 0 (BitVec.ofNat 14 val)] else []) ++ [Instr.endRun u noGuard]
  [Instr.cmpi u noGuard 1 1 1 (BitVec.ofNat 14 ph), Instr.br u { neg := false, pr := 1 } (BitVec.ofNat 16 body.length)] ++ body

/-- The words of the program that the weaver emits (R255). -/
def weaveCode (p : Port) (sp : Speed) (stop period : Nat) (placed : List Placed) (weaves : Nat → Bool) : List W32 :=
  let blocks := (List.range period).map (fun ph =>
    if sp = .field ∧ ph % 8 = 7 then [] else weaveBlock p placed ph (weaveVal stop sp ph) (weaves ph))
  (Instr.rds (.loom p) noGuard 1 0 :: blocks.flatten).filterMap encodeCoresh

/-- What the weaver works for: the port, the slice, its segment and END, and WEFT_MIN. -/
structure Weft where
  port : Nat
  sl : Nat
  seg : Nat
  stop : Nat
  min : Nat

/-- The program for a placement, through the admission unit; `weaves` says in which phases WEAVE is emitted. -/
def State.weaveTry (s : State) (w : Weft) (x : SchedS) (extra log2 : Nat) (placed : List Placed) (weaves : Nat → Bool) : Admitted :=
  s.admitProg { port := w.port, seg := w.seg, sl := w.sl, period := log2, weaver := true
                code := weaveCode (BitVec.ofNat 4 w.port) (s.admSpeed w.port) w.stop (2 ^ log2) placed weaves } x extra

/-- A WEAVE of the phase has at least WEFT_MIN + 1 clocks (R254). -/
def weaveRoom (w : Weft) (a : Admitted) (ph : Nat) : Bool :=
  match (a.phases.getD ph {}).slack with
  | some n => decide (w.min + 1 ≤ n)
  | none => false

/-- fits(trial) of R254: the program passes R244, and every WEAVE has its room (log entry 98). -/
def State.fits (s : State) (w : Weft) (x : SchedS) (extra log2 : Nat) (placed : List Placed) : Bool :=
  let a := s.weaveTry w x extra log2 placed (fun _ => true)
  decide (a.rep.result = resAdmitted) &&
    (List.range (2 ^ log2)).all (fun ph => (a.phases.getD ph {}).slack.isNone || weaveRoom w a ph)

/-- The load of a phase (R254). -/
def loadAt (placed : List Placed) (ph : Nat) : Nat := ((placed.filter (fun y => y.servedAt ph)).map (·.item.cost)).sum

/-- The best placement of a registration among phases `phi` on (R254): the lowest score, of equal scores the lowest phase. -/
def bestPhase (score : Nat → Option Nat) : List Nat → Option (Nat × Nat)
  | [] => none
  | phi :: t =>
    match score phi, bestPhase score t with
    | some a, some b => if a ≤ b.2 then some (phi, a) else some b
    | some a, none => some (phi, a)
    | none, r => r

/-- Places the registrations one after another (R254); one that fits nowhere is left out. -/
def State.placeAll (s : State) (w : Weft) (x : SchedS) (extra log2 : Nat) (items : List WItem) : List Placed :=
  items.foldl (fun placed y =>
    let phases (phi : Nat) : List Nat := (List.range (2 ^ log2)).filter (fun ph => decide (phi ≤ ph) && (ph - phi) % y.interval == 0)
    let score (phi : Nat) : Option Nat :=
      if s.fits w x extra log2 (placed ++ [{ item := y, phi := phi }]) then
        some (((phases phi).map (fun ph => loadAt placed ph + y.cost)).foldl max 0)
      else none
    match bestPhase score (List.range y.interval) with
    | some b => placed ++ [{ item := y, phi := b.1 }]
    | none => placed) []

/-- What the weaver generated: the report, the program, and the handles placed with their phases. -/
structure Woven where
  rep : Rep
  prog : Option Prog
  placed : List (Nat × Nat)

/-- The weaver's program for a slice on a port (R254 to R256), under a schedule; none of its registrations is lost by an earlier
failure. A phase whose WEAVE has no room gets a block without it (log entry 102). At Field speed the period is 8 or more, also where the
listing of R254 gives 1 for want of registrations, since R244 admits no shorter one there (log entry 102). -/
def State.weaveProg (s : State) (p sl k : Nat) (x : SchedS) (extra : Nat) : Woven :=
  let sp := s.admSpeed p
  let w : Weft := { port := p, sl := sl, seg := k, stop := (endOf (s.segsIn p x) k).getD 12000, min := x.weftMin.get 0 sl }
  let items := s.weaveItems p sl x
  let period := items.foldl (fun m y => max m y.interval) (if sp = .field then 8 else 1)
  let log2 := Nat.log2 period
  let placed := s.placeAll w x extra log2 items
  let a := s.weaveTry w x extra log2 placed (fun _ => true)
  let b := s.weaveTry w x extra log2 placed (fun ph => weaveRoom w a ph)
  { rep := b.rep, prog := b.prog, placed := placed.map (fun y => (y.item.handle, y.phi)) }

/-- The segment that a slice's weaver program takes on a port. -/
def State.weaverSeg (s : State) (p sl : Nat) (x : SchedS) : Option Nat :=
  ((s.segsIn p x).find? (fun g => g.2.weaver && g.2.slice.toNat == sl)).map (·.1)

/-- The registrations of a slice with the phases at which the weaver placed them. -/
def SchedS.placedBy (x : SchedS) (sl : Nat) (w : Woven) : SchedS :=
  { x with regs := x.regs.map (fun r => if r.slice.toNat = sl then { r with phase := Tab.find w.placed r.handle.toNat } else r) }

/-- A registration that is placed in the program before loses its placement (R256; log entry 103). -/
def losesPlace (x : SchedS) (sl : Nat) (w : Woven) : Bool :=
  x.regs.any (fun r => r.slice.toNat == sl && r.phase.isSome && (Tab.find w.placed r.handle.toNat).isNone)

end Sys2Proof.Machine
end

