-- ==== Sys2Proof/Machine/Schedule.lean ====
section
/-! DEFINITION. The port's window as it runs (07 R231, R233, R42) and the switch of schedules (R246, R248). -/
namespace Sys2Proof.Machine

open Sys2Proof

/-! ## The thread through its segments (R192, R231) -/

/-- The cycle at which the program of segment `k` is entered (R231). -/
def State.entryOf (s : State) (p k : Nat) : Nat :=
  if k = 0 then 0 else (endOf (s.segsOf p) (k - 1)).getD 0

/-- A program enters its thread (R192): registers and predicates zero, cx null. -/
def Prog.enter (g : Prog) (k : BitVec 3) (cyc : Nat) : Thread :=
  { running := !g.code.isEmpty, code := g.code, cycle := cyc, slice := g.slice, period := g.period, seg := k }

/-- PROGRAM_ENTRY (R192, R231): segment `k` begins where the one before it ends; the program of a slice whose work does not run is not
entered (R380). -/
def execProgramEntry (p : Port) (k : BitVec 3) (s : State) : Host.Outcome State Fault Refusal :=
  let n := p.toNat
  let x := s.thread n
  let at0 := s.entryOf n k.toNat
  .next (match (s.schedAt n).progs.find k.toNat with
    | some g =>
      if s.working && s.domOn (loomDom n) && s.works g.slice.toNat && !x.running && decide (x.cycle ≤ at0) then
        s.updThread n (fun _ => g.enter k at0)
      else s
    | none => s)

/-- A thread of the segment, or the port's shuttle, is busy at a cycle. -/
def State.portBusy (s : State) (p cyc : Nat) : Bool :=
  let x := s.thread p
  let y := s.shuttle p
  x.running || decide (cyc < x.cycle) || !y.seqs.isEmpty || decide (cyc < y.ended)

/-- SEGMENT_END_CHECK (R233, R518): the program of segment `k` must have ended, with its wire sequences, at the segment's END (log entry
112). -/
def execSegmentEndCheck (p : Port) (k : BitVec 3) (s : State) : Host.Outcome State Fault Refusal :=
  .next (match endOf (s.segsOf p.toNat) k.toNat with
    | some e =>
      if s.working && decide ((s.thread p.toNat).seg = k) && s.portBusy p.toNat e then s.detect 1 (BitVec.ofNat 8 p.toNat) false e else s
    | none => s)

/-- OVERRUN_CHECK (R42, R518): one report, of the lowest busy port, or of the lowest busy core when no port is busy (log entry 112). -/
def execOverrunCheck (s : State) : Host.Outcome State Fault Refusal :=
  .next (if s.working then
      match (List.range 16).find? (fun p => s.portBusy p 12000) with
      | some p => s.detect 1 (BitVec.ofNat 8 p) false 12000
      | none =>
        match (List.range 4).find? (fun c => (s.thread (coreThread c)).running || decide (12000 < (s.thread (coreThread c)).cycle)) with
        | some c => s.detect 1 (BitVec.ofNat 8 (0x80 + c)) false 12000
        | none => s
    else s)

/-! ## The switch tick of a port (R246, R248) -/

/-- The changes of a port that are due: those of the switch tick, and of one that was abandoned (R248). -/
def State.dueChanges (s : State) (p : Nat) : List (BitVec 48 × Change) :=
  (s.schedAt p).changes.filter (fun c => decide (c.1.toNat ≤ s.now))

/-- An entry becomes the oldest draw of its queue (R248). -/
def QueueS.drawFirst (pos : BitVec 17) (q : QueueS) : QueueS :=
  { q with entries := q.entries.map (fun e => if e.pos = pos then { e with st := .drawn, draw := 0 } else { e with draw := e.draw + 1 }) }

/-- A transfer in progress is taken against the programs in force (R248). -/
def State.retakeEntry (s : State) (p sl q : Nat) (e : Entry) : State :=
  match s.ctxOfHandle e.handle with
  | some i =>
    if e.st = .bound ∧ s.warpNames p i = false then
      (s.updQueue (qKey sl q) (QueueS.drawFirst e.pos)).updDrawn (· + 1)
    else if e.st = .drawn ∧ s.warpNames p i = true then s.updEntry sl q e.pos (fun x => { x with st := .bound })
    else s
  | none => s

/-- The transfers in progress of a port are taken again; of several in one queue the first of the ring ranks oldest. -/
def State.retake (s : State) (p : Nat) : State :=
  s.forAll (fun t k => t.forAll (fun u e => u.retakeEntry p (k / 4096) (k % 4096) e) (t.queue k).entries.reverse)
    ((s.queues.map (·.1)).filter (fun k => k % 4096 != 0 && (s.queue k).port.toNat == p))

/-- The switch of a port: table and programs change together, in order of arrival (R246). -/
def State.switchPort (s : State) (p : Nat) : State :=
  match s.dueChanges p with
  | [] => s
  | due =>
    (s.updSched p (fun x => { due.foldl (fun y c => c.2.apply y) x with
      changes := x.changes.filter (fun c => !decide (c.1.toNat ≤ s.now)) })).retake p

/-! ## The switch tick of the graphs (R348, R349) -/

/-- State words of a task record (R347). -/
def recWords (t : List W64) : Tab W32 :=
  (List.range 8).flatMap (fun i =>
    let w := t.getD (4 + i) 0
    [(2 * i, w.setWidth 32), (2 * i + 1, (w >>> 32).setWidth 32)])

/-- The task records of an image, twelve words each (R347). -/
def taskRecs : Nat → List W64 → List (List W64)
  | 0, _ => []
  | n + 1, ws => ws.take 12 :: taskRecs n (ws.drop 12)

/-- The task records that a graph image holds. -/
def imageTasks (image : List W64) : List (List W64) := taskRecs (fld (image.getD 0 0) 51 40) (image.drop 4)

/-- The number of a task record's task. -/
def recTask (r : List W64) : Nat := fld (r.getD 0 0) 63 52

/-- A graph starts (R348): F 0, the initial masks and the initial state words; the tick flag of its first tick is set (R323; log entry
108). -/
def State.startGraph (s : State) (g : Nat) : State :=
  let recs := imageTasks (s.graph g).image
  let s := (s.forAll (fun t r => t.updTask (recTask r) (fun x => { x with
    f := if x.ticksub then 0x80000000 else 0, m := BitVec.ofNat 32 (fld (r.getD 1 0) 63 32), all := fbit (r.getD 0 0) 45
    words := recWords r })) recs).updGraph g (fun x => { x with stopped := false })
  s.forAll (fun t k => t.evalTask k.toNat 0) (s.graph g).tasks

/-- What a graph holds beside its tasks' state is discarded (R349): entries, bitmap places, timers, and the values of its flows. -/
def State.clearGraph (s : State) (g : Nat) : State :=
  let x := s.graph g
  let s := s.forAll (fun t f => t.updFlow f.toNat (fun y => { y with vals := [], ended := [], next := y.place })) x.flows
  (s.forAll (fun t c => t.updCore c (fun y => { y with
    ready := y.ready.filter (fun e => !x.tasks.contains e.task), bitmap := y.bitmap.filter (fun k => !x.tasks.contains k)
    held := y.held.filter (fun h => !x.tasks.contains h.1 && !x.tasks.contains h.2)
    timers := y.timers.filter (fun m => !x.tasks.contains m.task) })) (List.range 4)).updGraph g (fun y => { y with spill := [] })

/-- A change of a graph at its switch tick (R349). -/
def State.graphChange (s : State) : GChange → State
  | .start g => s.startGraph g.toNat
  | .withdraw g => s.dropGraph g.toNat
  | .stop g => (s.clearGraph g.toNat).updGraph g.toNat (fun x => { x with stopped := true })
  | .run g =>
    let s := s.updGraph g.toNat (fun x => { x with stopped := false })
    s.forAll (fun t k => t.evalTask k.toNat 0) (s.graph g.toNat).tasks

/-- SWITCH_TICK (R246, R248, R349): of a port, or of the graphs. -/
def execSwitchTick (p : Option Port) (s : State) : Host.Outcome State Fault Refusal :=
  .next (if s.working then
      match p with
      | some p => s.switchPort p.toNat
      | none =>
        let due := s.gchange.filter (fun c => decide (c.1.toNat ≤ s.now))
        if due = [] then s
        else (s.updGChanges (fun l => l.filter (fun c => !decide (c.1.toNat ≤ s.now)))).forAll (fun t c => t.graphChange c.2) due
    else s)

end Sys2Proof.Machine
end

