-- ==== Sys2Proof/Machine/GraphAdmit.lean ====
section
/-! DEFINITION. The admission of steward graphs (07 R251, R252; 10 R336, R347, R348): the image, its checks, and what it leaves. -/
namespace Sys2Proof.Machine

open Sys2Proof

/-! ## Snapshot items (R336) -/

/-- The slice of a bridge slot. -/
def State.bridgeOwner (s : State) (b : Nat) : Option Nat := ((s.bridge b).dev).map (fun d => (s.dev d.toNat).slice.toNat)

/-- A slice may read a snapshot item: every slice those of the module and of the feeders, the owner and S0 those of a port and of a
bridge slot (R336). -/
def State.itemRight (s : State) (sl k : Nat) : Bool :=
  if k < 0x0A then true
  else if 0x100 ≤ k ∧ k < 0x300 then decide (k % 0x20 < 0x13) && (sl == 0 || s.portOwner ((k - 0x100) / 0x20) == sl)
  else if 0x400 ≤ k ∧ k < 0x600 then decide (k % 8 < 7) && (sl == 0 || s.bridgeOwner ((k - 0x400) / 8) == some sl)
  else decide (0x800 ≤ k ∧ k < 0x820) || decide (0x840 ≤ k ∧ k < 0x845)

/-! ## The image (R347) -/

/-- A graph image as its parts. -/
structure GImage where
  graph : Nat
  spill : Bool
  log2 : Nat
  period : Nat
  tasks : List (List W64)
  flows : List W64
  code : List W32
deriving DecidableEq, Repr

/-- The instructions of the code part, two to a word. -/
def codeOfWords : Nat → List W64 → List W32
  | 0, _ => []
  | _, [] => []
  | 1, w :: _ => [w.setWidth 32]
  | n + 2, w :: r => w.setWidth 32 :: (w >>> 32).setWidth 32 :: codeOfWords n r

/-- The words of an image of NTASK tasks, NFLOW flows and NCODE instructions. -/
def imageLen (ntask nflow ncode : Nat) : Nat := 4 + 12 * ntask + nflow + (ncode + 1) / 2

/-- The graph image of a list of words; none where a field is out of its range or a reserved bit is set (log entry 107). -/
def readImage (ws : List W64) : Option GImage :=
  let h0 := ws.getD 0 0
  let h1 := ws.getD 1 0
  let nt := fld h0 51 40
  let nf := fld h0 39 31
  let nc := fld h1 63 32
  let spill := fbit h0 30
  let l := fld h0 29 25
  let ts := taskRecs nt (ws.drop 4)
  let fs := (ws.drop (4 + 12 * nt)).take nf
  let taskOk (r : List W64) : Bool :=
    fld (r.getD 0 0) 18 0 == 0 && fld (r.getD 1 0) 31 0 == 0 && r.getD 2 0 == 0 && r.getD 3 0 == 0 &&
      decide (fld (r.getD 0 0) 34 19 < max 1 nc)
  if ws.length = imageLen nt nf nc ∧ 1 ≤ nt ∧ nt ≤ 4064 ∧ nf ≤ 256 ∧ fld h0 24 21 ≤ 8 ∧ fld h0 20 0 = 0 ∧ fld h1 31 0 = 0 ∧
      (if spill then 10 ≤ l ∧ l ≤ 20 else l = 0) ∧ ts.all taskOk = true ∧ fs.all (fun f => fld f 43 0 == 0) = true then
    some { graph := fld h0 63 52, spill := spill, log2 := l, period := fld h0 24 21, tasks := ts, flows := fs
           code := codeOfWords nc (ws.drop (4 + 12 * nt + nf)) }
  else none

/-- The flow number of a flow record, and the flow of which a task record makes its task a member. -/
def recFlow (f : W64) : Nat := fld f 63 56
def recMember (r : List W64) : Option Nat := if fbit (r.getD 0 0) 43 then some (fld (r.getD 0 0) 42 35) else none
/-- The home core and run limit of a task record. -/
def recHome (r : List W64) : Nat := fld (r.getD 0 0) 51 50
def recLimit (r : List W64) : Nat := fld (r.getD 0 0) 49 46 + 1
/-- The entry of a task record. -/
def recEntry (r : List W64) : Nat := fld (r.getD 0 0) 34 19

/-- The task belongs to the slice: of the graph, or of one it has (R222). -/
def State.taskIn (s : State) (sl : Nat) (g : GImage) (t : Nat) : Bool :=
  g.tasks.any (fun r => recTask r == t) || ((s.task t).live && (s.task t).slice.toNat == sl)

/-- The flow belongs to the slice. -/
def State.flowIn (s : State) (sl : Nat) (g : GImage) (f : Nat) : Bool :=
  g.flows.any (fun r => recFlow r == f) || ((s.flowAt f).live && (s.flowAt f).slice.toNat == sl)

/-! ## The checks (R219, R222, R250, R252, R329, R331, R348) -/

/-- SNAP, RAISE, TIMER, FLOW and ACT name only what the slice has (R219, R222, R336, R338). -/
def State.graphNames (s : State) (sl : Nat) (g : GImage) : Instr → Bool
  | .snap _ _ _ item => s.itemRight sl item.toNat
  | .raise _ _ (.flag t _) => s.taskIn sl g t.toNat
  | .timer _ _ t _ _ => s.taskIn sl g t.toNat
  | .flow _ _ f _ => s.flowIn sl g f.toNat
  | .act _ _ _ a => actrOk a.toNat && (s.actHolder sl a.toNat).isSome
  | _ => true

/-- An ACT on an actuator whose bounds another slice sets (R250). -/
def State.graphConflict (s : State) (sl : Nat) : Instr → Bool
  | .act _ _ _ a => actrOk a.toNat && (match s.actHolder sl a.toNat with
    | some o => o != sl
    | none => false)
  | _ => false

/-- The pairs of TASK and FLAG that TIMER instructions name (R331). -/
def timerPairs (code : List W32) : List (Nat × Nat) :=
  (code.filterMap (fun w => match decodeCoresh (.core 0) w with
    | some (.timer _ _ t f _) => some (t.toNat, f.toNat)
    | _ => none)).foldl (fun acc p => if acc.contains p then acc else p :: acc) []

/-- The timers of slices that a delay list holds (R331). -/
def timerRoom : Nat := 1024 - 128

/-- Instructions of a core that are open to graphs (R348). -/
def graphRoom : Nat := 57344

/-- The live graphs. -/
def State.graphsLive (s : State) : List Nat := (s.graphs.map (·.1)).filter (fun g => (s.graph g).live)

/-- The home core of a task, of the image or admitted. -/
def State.homeOf (s : State) (g : GImage) (t : Nat) : Nat :=
  match g.tasks.find? (fun r => recTask r == t) with
  | some r => recHome r
  | none => (s.task t).home.toNat

/-- Every delay list holds the timers of all graphs with this one (R331). -/
def State.timersFit (s : State) (g : GImage) : Bool :=
  let pairs := ((s.graphsLive.map (fun k => timerPairs (s.graph k).code)).flatten ++ timerPairs g.code).foldl
    (fun acc p => if acc.contains p then acc else p :: acc) []
  (List.range 4).all (fun c => decide ((pairs.filter (fun p => s.homeOf g p.1 == c)).length ≤ timerRoom))

/-- The share of a slice on a core in cycles (R251, R357). -/
def State.shareOf (s : State) (sl c : Nat) : Nat :=
  if sl = 0 then 9600 - ((s.others 0).map (fun k => (s.slice k).res.share.getD c 0 * 100)).sum
  else (s.slice sl).res.share.getD c 0 * 100

/-- The worst run of each task over the phases of the graph's period (R227, R252): the figures of the runs. -/
def State.taskRunsWorst (s : State) (sl : Nat) (g : GImage) (code : List Instr) (r : List W64) : List Sim :=
  let j : Job := { u := .core (BitVec.ofNat 2 (recHome r)), sl := sl, speed := .none, code := code }
  (List.range (2 ^ g.period)).map (fun ph => s.simPhase j ph (recEntry r))

/-- R329 for a task: it emits only on the flow of which it is a member, at most 8 times. -/
def flowsHold (r : List W64) (runs : List Sim) : Bool :=
  runs.all (fun x => decide (x.wire ≤ 8) && x.named.all (fun f => recMember r == some f))

/-- The pool pages that a slice's spill ring can take: its own, filled and not used (R328, R369, R371). -/
def State.spillFree (s : State) (sl n : Nat) : List Nat :=
  if sl = 0 then pagesFrom (fun p => s.poolFree (s.spillPages 0) p && (s.page p).st == .owned) 59328 6208 n
  else ((s.poolOf sl).filter (fun p => (s.page p).st == .owned && !(s.spillPages sl).contains p)).take n

/-- The pages of a spill ring of 2^LOG2SPILL entries of 16 bytes (R328, R369). -/
def spillPageCount (g : GImage) : Nat := if g.spill then 2 ^ (g.log2 - 12) else 0

/-- The numbers of a graph and its tasks and flows are free, and the slice's allowances hold them (R321, R348). -/
def State.graphRoomOk (s : State) (sl : Nat) (g : GImage) : Bool :=
  let ts := g.tasks.map recTask
  let fs := g.flows.map recFlow
  let all (f : SlRec → Nat) : Nat := ((s.others 0).map (fun k => f (s.slice k).res)).sum
  let tasks := if sl = 0 then 4064 - all (·.tasks) else (s.slice sl).res.tasks
  let flows := if sl = 0 then 256 - all (·.flows) else (s.slice sl).res.flows
  !(s.graph g.graph).live && ts.all (fun t => decide (32 ≤ t) && !(s.task t).live) && fs.all (fun f => !(s.flowAt f).live) &&
    decide ((once ts).length = ts.length ∧ (once fs).length = fs.length) &&
    decide (s.tasksUsed sl + ts.length ≤ tasks ∧ s.flowsUsed sl + fs.length ≤ flows) &&
    decide ((s.spillFree sl (spillPageCount g)).length = spillPageCount g)

/-- What the admission of a graph found: NO_RESOURCE, or a report and the worst run of each task. -/
structure GAdmitted where
  room : Bool := true
  rep : Rep := {}
  worst : List Nat := []

/-- The tests of R244, R252 and R348 on a graph (log entry 107). -/
def State.admitGraphImage (s : State) (sl : Nat) (g : GImage) : GAdmitted :=
  let fail (b : Bad) : GAdmitted := { rep := { result := b.result, phase := b.phase, addr := b.addr } }
  if s.graphRoomOk sl g then
    match admDecode (.core 0) g.code 0 with
    | .inr a => fail { test := tEncoding, phase := 0xFF, addr := a }
    | .inl code =>
      match firstBad (flowOk code (bodies code 0)) code 0 with
      | some a => fail { test := tFlow, phase := 0xFF, addr := a }
      | none =>
        let runs := g.tasks.map (fun r => (r, s.taskRunsWorst sl g code r))
        if runs.any (fun x => !flowsHold x.1 x.2) then fail { test := tFlow, phase := 0xFF, addr := 0xFFFF }
        else
          match firstBad (fun _ i => s.graphNames sl g i) code 0 with
          | some a => fail { test := tContext, phase := 0xFF, addr := a }
          | none =>
            if g.flows.any (fun f => !s.taskIn sl g (fld f 55 44)) || g.tasks.any (fun r => match recMember r with
                | some f => !s.flowIn sl g f
                | none => false) then fail { test := tContext, phase := 0xFF, addr := 0xFFFF }
            else
              let worst := runs.map (fun x => (x.2.map (·.loom)).foldl max 0)
              let cost (c : Nat) : Nat := s.charged sl c +
                ((runs.zip worst).map (fun x => if recHome x.1.1 = c then recLimit x.1.1 * x.2 else 0)).sum
              let most := ((List.range 4).map cost).foldl max 0
              let base : Rep := { loom := most }
              match (List.range 4).find? (fun c => decide (s.shareOf sl c < cost c)) with
              | some c => { rep := { base with result := resBudget, phase := c, limit := s.shareOf sl c } }
              | none =>
                if !s.timersFit g then { rep := { base with result := resBudget } }
                else if graphRoom < (s.graphsLive.map (fun k => (s.graph k).code.length)).sum + g.code.length then
                  { rep := { base with result := resMemory } }
                else
                  match firstBad (fun _ i => !s.graphConflict sl i) code 0 with
                  | some a => { rep := { base with result := resConflict, addr := a } }
                  | none => { rep := base, worst := worst }
  else { room := false }

/-- Puts an admitted graph in place, to start at its switch tick (R348): until then its tasks are dormant. -/
def State.placeGraph (s : State) (sl : Nat) (g : GImage) (worst : List Nat) (image : List W64) (sw : BitVec 48) : State :=
  let sn := BitVec.ofNat 6 sl
  let gn : Graph := BitVec.ofNat 12 g.graph
  let s := s.forAll (fun t x => t.updTask (recTask x.1) (fun _ =>
    { live := true, all := fbit (x.1.getD 0 0) 45, last := BitVec.ofNat 2 (recHome x.1), graph := gn
      home := BitVec.ofNat 2 (recHome x.1), limit := recLimit x.1, ticksub := fbit (x.1.getD 0 0) 44
      member := (recMember x.1).map (BitVec.ofNat 8), entry := recEntry x.1, worst := x.2, slice := sn })) (g.tasks.zip worst)
  let s := s.forAll (fun t f => t.updFlow (recFlow f) (fun _ =>
    { live := true, slice := sn, graph := gn, sink := BitVec.ofNat 12 (fld f 55 44) })) g.flows
  let pages := s.spillFree sl (spillPageCount g)
  (s.updGraph g.graph (fun _ =>
    { live := true, slice := sn, tasks := g.tasks.map (fun r => BitVec.ofNat 12 (recTask r))
      flows := g.flows.map (fun f => BitVec.ofNat 8 (recFlow f)), spillMode := g.spill, log2 := g.log2, period := g.period
      code := g.code, pages := pages, image := image })).updGChanges (· ++ [(sw, .start gn)])

end Sys2Proof.Machine
end

