-- ==== Sys2Proof/Machine/ImageBody.lean ====
section
/-! DEFINITION. The body of a slice image (11 R384): its sections as they are written, and as they are read. Where R384 names what a
section holds and not how, the layout is the model's (log entry 53). -/
namespace Sys2Proof.Machine

open Sys2Proof

/-! ## Sections (R384) -/

/-- A section: TYPE and length in bytes, then its words. -/
def imageSection (typ : Nat) (ws : List W64) : List W64 := BitVec.ofNat 64 (typ * 2 ^ 48 + ws.length * 8) :: ws

/-- The sections of a body by TYPE (log entry 53). -/
def imageSections : Nat → List W64 → Tab (List W64)
  | 0, _ => []
  | _, [] => []
  | f + 1, h :: t =>
    let n := (fld h 31 0 + 7) / 8
    (fld h 63 48, t.take n) :: imageSections f (t.drop n)

/-- The words of a section of a body; none where it has no such section (log entry 53). -/
def sectionOf (body : List W64) (typ : Nat) : List W64 := (imageSections body.length body).get [] typ

/-- Words by twos. -/
def wordPairs : List W64 → List (W64 × W64)
  | a :: b :: t => (a, b) :: wordPairs t
  | _ => []

/-- Two numbers of 32 bits as a word. -/
def word2 (hi lo : Nat) : W64 := BitVec.ofNat 64 (hi % 2 ^ 32 * 2 ^ 32 + lo % 2 ^ 32)

/-- The Q1 layout of a route (R289, R388): PORT, DEPTH and the hops. -/
def routeQ1 (k : Nat) : Nat := k % 32 * 2 ^ 59 + k / 32 % 8 * 2 ^ 56 + k / 256 * 2 ^ 31

/-- Instructions two to a word. -/
def wordsOfCode : List W32 → List W64
  | [] => []
  | [w] => [w.setWidth 64]
  | a :: b :: t => word2 b.toNat a.toNat :: wordsOfCode t

/-! ## What a slice saves -/

/-- Programs in the Q1 layout of ADMIT_WARP, each with its code. -/
def State.imageWarps (s : State) (sl : Nat) : List W64 :=
  (List.range 16).flatMap (fun p => ((s.schedAt p).progs.filter (fun g => g.2.slice.toNat == sl && !(match (s.segsOf p).find g.1 with
    | some y => y.weaver
    | none => false))).flatMap (fun g =>
      BitVec.ofNat 64 (p * 2 ^ 59 + g.1 * 2 ^ 56 + g.2.period * 2 ^ 52 + g.2.code.length * 2 ^ 36) :: wordsOfCode g.2.code))

/-- Registrations as REGISTER_PERIODIC with the handle, and WEFT_MIN values as SET_WEFT_MIN with bit 23. -/
def State.imagePeriodic (s : State) (sl : Nat) : List W64 :=
  (List.range 16).flatMap (fun p =>
    ((s.schedAt p).regs.filter (fun r => r.slice.toNat == sl)).map (fun r =>
      BitVec.ofNat 64 (r.interval * 2 ^ 56 + r.cnt * 2 ^ 53 + r.rty * 2 ^ 51 + p * 2 ^ 24 + r.handle.toNat)) ++
    (match (s.schedAt p).weftMin.find sl with
      | some m => [BitVec.ofNat 64 (m * 2 ^ 32 + p * 2 ^ 24 + 2 ^ 23)]
      | none => []))

/-- An entry of a ready queue or a spill ring. -/
def readyWords (c : Core) (e : ReadyE) : List W64 :=
  [word2 e.flags.toNat (c.toNat * 2 ^ 16 + e.task.toNat), match e.place with
    | some p => word2 1 p.toNat
    | none => 0]

/-- A graph: its image, then what its tasks, flows, queues and timers hold, the timers by the ticks that remain. -/
def State.imageGraph (s : State) (g : Nat) : List W64 :=
  let x := s.graph g
  let since := match (s.sliceXAt x.slice.toNat).since with
    | some t => t.toNat
    | none => s.now
  let ready := (List.range 4).flatMap (fun c => ((s.coreAt c).ready.filter (fun e => x.tasks.contains e.task)).map (fun e =>
    (BitVec.ofNat 2 c, e)))
  let timers := (List.range 4).flatMap (fun c => (s.coreAt c).timers.filter (fun m => x.tasks.contains m.task))
  [BitVec.ofNat 64 (g * 2 ^ 52 + (if x.stopped then 2 ^ 51 else 0) + x.image.length), word2 ready.length x.spill.length,
    word2 0 timers.length] ++ x.image ++
  x.tasks.flatMap (fun t =>
    let y := s.task t.toNat
    [word2 y.f.toNat y.m.toNat, if y.all then 1 else 0] ++
      (List.range 8).map (fun i => word2 (y.words.get 0 (2 * i + 1)).toNat (y.words.get 0 (2 * i)).toNat)) ++
  x.flows.flatMap (fun f =>
    let y := s.flowAt f.toNat
    [word2 y.place.toNat y.next.toNat, word2 y.vals.length y.ended.length] ++
      y.vals.map (fun v => word2 v.1.toNat v.2.toNat) ++ y.ended.map (fun v => word2 0 v.toNat)) ++
  (ready ++ x.spill).flatMap (fun e => readyWords e.1 e.2) ++
  timers.map (fun m => BitVec.ofNat 64 (m.task.toNat * 2 ^ 52 + m.flag.toNat * 2 ^ 47 + (m.deadline.toNat - since) % 2 ^ 47))

/-- The graphs, and the deadlines of the tickets outstanding by the ticks that remain. -/
def State.imageGraphs (s : State) (sl : Nat) : List W64 :=
  let gs := s.graphsLive.filter (fun g => (s.graph g).slice.toNat == sl)
  let cs := (s.ctxs.map (·.1)).filter (fun i => (s.ctx i).tktValid && (s.ctx i).slice.toNat == sl)
  let since := match (s.sliceXAt sl).since with
    | some t => t.toNat
    | none => s.now
  [word2 cs.length gs.length] ++ gs.flatMap s.imageGraph ++
  cs.map (fun i => BitVec.ofNat 64 ((s.ctx i).handle.toNat * 2 ^ 41 + ((s.ctx i).tktDeadline.toNat - since) % 2 ^ 41))

/-- Bounds as SET_BOUND, and with bit 0 as SET_ACT_BOUND. -/
def State.imageBounds (s : State) (sl : Nat) : List W64 :=
  (s.bounds.map (·.1)).flatMap (fun k => match s.boundAt k with
    | some (lo, hi) =>
      if k / 2048 = sl + 1 then [BitVec.ofNat 64 (k % 2048 * 2 ^ 53), word2 lo.toNat hi.toNat] else []
    | none => []) ++
  (s.actBounds.map (·.1)).flatMap (fun k => match s.actBoundAt k with
    | some (lo, hi) =>
      let a := k % 32768
      if s.actHolder sl a == some sl && actKey sl a == k then [BitVec.ofNat 64 (a * 2 ^ 49 + 1), word2 lo.toNat hi.toNat] else []
    | none => [])

/-- Queues as CREATE_QUEUE, the admin queue as number 0. -/
def State.imageQueues (s : State) (sl : Nat) : List W64 :=
  (0 :: s.queuesOf sl).flatMap (fun q =>
    let x := s.queue (qKey sl q)
    [BitVec.ofNat 64 (q * 2 ^ 52 + (x.log2.toNat - 3) * 2 ^ 48 + (if x.legacy then 2 ^ 47 else 0) + Nat.log2 x.entryMax * 2 ^ 44 +
      (if x.own then 2 ^ 43 else 0) + x.interval.toNat * 2 ^ 35 + x.prio.toNat * 2 ^ 32 + x.port.toNat * 2 ^ 27 + x.chan.toNat * 2 ^ 21 +
      x.cev.toNat * 2 ^ 19 + x.errLimit.toNat * 2 ^ 11 + x.nakLimit.toNat * 2 ^ 3), x.base])

/-- The code of a role (R294, R296). -/
def Role.code : Role → Nat
  | .none => 0 | .queue => 1 | .copy => 2 | .xport => 3

/-- Channels as SET_CHANNEL. -/
def State.imageChans (s : State) (sl : Nat) : List W64 :=
  ((List.range 64).filter (fun c => (s.slice sl).res.chan.getLsbD c && (s.chan c).role != .none)).flatMap (fun c =>
    let x := s.chan c
    [BitVec.ofNat 64 (c * 2 ^ 58 + x.role.code * 2 ^ 56 + x.share * 2 ^ 49 + x.cqLog2 * 2 ^ 45 + x.qshuf.toNat * 2 ^ 37), x.cqBase])

/-- The body of the image of a slice (R384; log entry 53). -/
def State.imageBody (s : State) (sl : Nat) : List W64 :=
  let sn := BitVec.ofNat 6 sl
  imageSection 0x01 (s.slice sl).res.words ++
  imageSection 0x02 ((s.attachesOf sl).map (fun k => BitVec.ofNat 64 (routeQ1 k + (match s.attachAt k with
    | some (_, true) => 2 ^ 29
    | _ => 0) + sl * 2 ^ 23))) ++
  imageSection 0x03 ((s.plan.map (·.1)).filterMap (fun k => match s.planAt k with
    | some d => if k / 2 ^ 33 = sl then some (BitVec.ofNat 64 (routeQ1 (k % 2 ^ 33) + d.toNat)) else none
    | none => none)) ++
  imageSection 0x04 (s.imageWarps sl) ++ imageSection 0x05 (s.imagePeriodic sl) ++ imageSection 0x06 (s.imageGraphs sl) ++
  imageSection 0x07 (s.imageBounds sl) ++ imageSection 0x08 (s.imageQueues sl) ++ imageSection 0x09 (s.imageChans sl) ++
  imageSection 0x0A [(s.eq sl).base, (s.eq sl).log2.setWidth 64] ++
  imageSection 0x0B (((s.pins.map (·.1)).filter (fun h => s.pinAt h == some sn)).map (BitVec.ofNat 64)) ++
  imageSection 0x0C (((s.devsOf sl).flatMap s.ctxsOf).flatMap (fun i =>
    let c := s.ctx i
    if c.tktTimeout != 0 || c.scratch != 0 then [word2 c.tktTimeout.toNat c.handle.toNat, c.scratch] else []))

/-! ## What a restore reads -/

/-- The programs of a WARP section: their first words and codes. -/
def warpsIn : Nat → List W64 → List (W64 × List W32)
  | 0, _ => []
  | _, [] => []
  | f + 1, h :: t =>
    let n := fld h 51 36
    (h, codeOfWords n t) :: warpsIn f (t.drop ((n + 1) / 2))

/-- A graph of a GRAPH section as its parts: the first words, the image, and the words that follow it. -/
structure SavedGraph where
  graph : Nat
  stopped : Bool
  ready : Nat
  spill : Nat
  timers : Nat
  image : List W64
  rest : List W64

/-- The next graph of a GRAPH section (log entry 58). -/
def savedGraph (ws : List W64) : SavedGraph :=
  let h := ws.getD 0 0
  let n := fld h 50 0
  { graph := fld h 63 52, stopped := fbit h 51, ready := fld (ws.getD 1 0) 63 32, spill := fld (ws.getD 1 0) 31 0
    timers := fld (ws.getD 2 0) 31 0, image := (ws.drop 3).take n, rest := (ws.drop 3).drop n }

/-- A task takes its saved state, ten words. -/
def TaskS.saved (x : TaskS) (ws : List W64) : TaskS :=
  let h := ws.getD 0 0
  { x with
    f := BitVec.ofNat 32 (fld h 63 32), m := BitVec.ofNat 32 (fld h 31 0), all := fbit (ws.getD 1 0) 0
    words := (List.range 8).flatMap (fun i =>
      let w := ws.getD (2 + i) 0
      [(2 * i, w.setWidth 32), (2 * i + 1, (w >>> 32).setWidth 32)]) }

/-- Gives tasks their saved state; the words that are left. -/
def State.loadTasks (s : State) : List Task → List W64 → State × List W64
  | [], ws => (s, ws)
  | t :: r, ws => (s.updTask t.toNat (fun x => x.saved (ws.take 10))).loadTasks r (ws.drop 10)

/-- Gives flows their saved state; the words that are left. -/
def State.loadFlows (s : State) : List Flow → List W64 → State × List W64
  | [], ws => (s, ws)
  | f :: r, ws =>
    let h := ws.getD 0 0
    let nv := fld (ws.getD 1 0) 63 32
    let ne := fld (ws.getD 1 0) 31 0
    let vs := (ws.drop 2).take nv
    let es := ((ws.drop 2).drop nv).take ne
    (s.updFlow f.toNat (fun x => { x with
      place := BitVec.ofNat 32 (fld h 63 32), next := BitVec.ofNat 32 (fld h 31 0)
      vals := vs.map (fun w => (BitVec.ofNat 32 (fld w 63 32), w.setWidth 32)), ended := es.map (fun w => w.setWidth 32) })).loadFlows r
        (((ws.drop 2).drop nv).drop ne)

/-- An entry as it was saved. -/
def savedReady (w : W64 × W64) : Core × ReadyE :=
  (BitVec.ofNat 2 (fld w.1 17 16), { task := BitVec.ofNat 12 (fld w.1 11 0), flags := BitVec.ofNat 32 (fld w.1 63 32)
                                     place := if fld w.2 63 32 = 1 then some (w.2.setWidth 32) else none })

/-- A graph admitted anew takes its saved state (R387): it runs again at a switch tick unless it was stopped. The words that are left. -/
def State.loadGraph (s : State) (g : SavedGraph) (sw : BitVec 48) : State × List W64 :=
  let gn : Graph := BitVec.ofNat 12 g.graph
  let x := s.graph g.graph
  let (s, ws) := s.loadTasks x.tasks g.rest
  let (s, ws) := s.loadFlows x.flows ws
  let es := (wordPairs (ws.take (2 * (g.ready + g.spill)))).map savedReady
  let ts := (ws.drop (2 * (g.ready + g.spill))).take g.timers
  let s := s.forAll (fun t e => t.updCore e.1.toNat (fun y => { y with ready := y.ready ++ [e.2] })) (es.take g.ready)
  let s := s.forAll (fun t w =>
    let task := fld w 63 52
    t.updCore (t.task task).home.toNat (fun y => { y with
      timers := y.timers ++ [{ task := BitVec.ofNat 12 task, flag := BitVec.ofNat 5 (fld w 51 47)
                               deadline := t.tick.n + BitVec.ofNat 48 (fld w 46 0) }] })) ts
  let s := s.updGraph g.graph (fun y => { y with spill := es.drop g.ready, stopped := g.stopped })
  let s := s.updGChanges (fun l => l.filter (fun c => c.2 != .start gn) ++ (if g.stopped then [] else [(sw, .run gn)]))
  (s, ws.drop (2 * (g.ready + g.spill) + g.timers))

/-- The words of a saved graph after its image, when the graph is not taken. -/
def skipFlows : Nat → List W64 → List W64
  | 0, ws => ws
  | n + 1, ws => skipFlows n ((ws.drop 2).drop (fld (ws.getD 1 0) 63 32 + fld (ws.getD 1 0) 31 0))

def SavedGraph.skip (g : SavedGraph) : List W64 :=
  let h := g.image.getD 0 0
  (skipFlows (fld h 39 31) (g.rest.drop (10 * fld h 51 40))).drop (2 * (g.ready + g.spill) + g.timers)

/-! ## RESTORE_IMAGE in the admission unit (R387) -/

/-- Programs admitted and not admitted. -/
def State.restoreWarps (s : State) (sl : Nat) : List (W64 × List W32) → Nat × Nat × State
  | [] => (0, 0, s)
  | (h, code) :: r =>
    let p := fld h 63 59
    let k := fld h 58 56
    let x := (s.schedAt p).later
    let a := s.admitProg { port := p, seg := k, sl := sl, period := fld h 55 52, weaver := false, code := code } x 0
    let mine := decide (p < 16) && (match (s.segsIn p x).find k with
      | some g => g.slice.toNat == sl
      | none => false)
    match a.prog with
    | some g =>
      if mine then
        let (n, m, t) := (s.addChanges p (s.switchAt (max (x.periodOf k) (2 ^ g.period))) [.install k g]).restoreWarps sl r
        (n + 1, m, t)
      else
        let (n, m, t) := s.restoreWarps sl r
        (n, m + 1, t)
    | none =>
      let (n, m, t) := s.restoreWarps sl r
      (n, m + 1, t)

/-- Graphs admitted and not admitted. -/
def State.restoreGraphs (s : State) (sl : Nat) : Nat → List W64 → Nat × Nat × State
  | 0, _ => (0, 0, s)
  | f + 1, ws =>
    let g := savedGraph ws
    match readImage g.image with
    | some im =>
      let a := s.admitGraphImage sl im
      if a.room && a.rep.result == resAdmitted then
        let sw := s.switchAt (2 ^ im.period)
        let (t, rest) := (s.placeGraph sl im a.worst g.image sw).loadGraph { g with graph := im.graph } sw
        let (n, m, u) := t.restoreGraphs sl f rest
        (n + 1, m, u)
      else
        let (n, m, u) := s.restoreGraphs sl f g.skip
        (n, m + 1, u)
    | none =>
      let (n, m, u) := s.restoreGraphs sl f g.skip
      (n, m + 1, u)

/-- RESTORE_IMAGE in its turn (R387): the target's programs, then its graphs, then the completion with their counts. -/
def State.turnRestore (s : State) (e : Entry) (words : List W64) : State :=
  let sl := (words.getD 0 0).toNat
  let body := words.drop 1
  let warps := warpsIn body.length (sectionOf body 0x04)
  let gs := sectionOf body 0x06
  let (pn, pm, s) := if (s.slice sl).st = .frozen then s.restoreWarps sl warps else (0, warps.length, s)
  let (gn, gm, s) := if (s.slice sl).st = .frozen then s.restoreGraphs sl (fld (gs.getD 0 0) 31 0) (gs.drop 1)
    else (0, fld (gs.getD 0 0) 31 0, s)
  s.adminDone 0 e stSuccess
    (BitVec.ofNat 64 (pn % 65536 * 2 ^ 48 + pm % 65536 * 2 ^ 32 + gn % 65536 * 2 ^ 16 + gm % 65536))
    (BitVec.ofNat 64 (wordPairs (sectionOf body 0x0C)).length)

end Sys2Proof.Machine
end

