-- ==== Sys2Proof/Machine/AdmitOps.lean ====
section
/-! DEFINITION. The admission unit at work (07 R243, R246, R250, R253 to R256): its requests in order of arrival, and what each does
once its turn comes. -/
namespace Sys2Proof.Machine

open Sys2Proof

/-- A request waits for the admission unit (R243); its command completes later (log entry 100). -/
def State.submit (s : State) (sl : Nat) (e : Entry) (words : List W64) : State :=
  (s.adminBegin sl e).updAdmission (· ++ [{ slice := BitVec.ofNat 6 sl, entry := { e with begun := true }, words := words }])

/-! ## A warp program of an owner -/

/-- The request of an ADMIT_WARP entry (R289). -/
def warpReqOf (sl : Nat) (e : Entry) (words : List W64) : WarpReq :=
  { port := fld e.q1 63 59, seg := fld e.q1 58 56, sl := sl, period := fld e.q1 55 52, weaver := false
    code := words.map (fun w => w.setWidth 32) }

/-- ADMIT_WARP in its turn (R244, R246; log entry 98). -/
def State.turnWarp (s : State) (sl : Nat) (e : Entry) (words : List W64) : State :=
  let r := warpReqOf sl e words
  let x := (s.schedAt r.port).later
  let a := s.admitProg r x 0
  match a.prog with
  | some g =>
    let sw := s.switchAt (max (x.periodOf r.seg) (2 ^ g.period))
    (s.addChanges r.port sw [.install r.seg g]).admReport sl e a.rep (sw.setWidth 32)
  | none => s.admReport sl e a.rep 0

/-! ## The weaver's programs -/

/-- Puts a weaver program in place of the one before at its switch tick, with the registrations as placed. -/
def State.installWoven (s : State) (p sl k : Nat) (x : SchedS) (w : Woven) (g : Prog) : BitVec 48 × State :=
  let sw := s.switchAt (max (x.periodOf k) (2 ^ g.period))
  let y := x.placedBy sl w
  (sw, (s.updSched p (fun z => { z with regs := y.regs, weftMin := y.weftMin })).addChanges p sw [.install k g])

/-- The report of a refusal after which no generated program stands (log entry 63). -/
def Rep.noProgram (r : Rep) (result : Nat) : Rep := { result := result, limit := r.limit }

/-- A change of a slice's registrations or WEFT_MIN on a port (R256): the weaver generates the program again; it fails as a whole
when a registration loses its placement, or `ok` fails. No program stands then, so the report has no phase, no instruction and no
figures of one (log entries 63, 102). -/
def State.reweave (s : State) (p sl : Nat) (x : SchedS) (ok : Woven → Bool) : Rep × Option (BitVec 48 × State) :=
  match s.weaverSeg p sl x with
  | none => ({ result := resSegment }, none)
  | some k =>
    let w := s.weaveProg p sl k x 0
    match w.prog with
    | some g =>
      if losesPlace x sl w || !ok w then (w.rep.noProgram resBudget, none)
      else (w.rep, some (s.installWoven p sl k x w g))
    | none => (w.rep.noProgram w.rep.result, none)

/-- UNPLACED for every registration of the slice that the weaver left out (R256, R394; log entry 103). -/
def State.unplaced (s : State) (p sl : Nat) (x : SchedS) (w : Woven) : State :=
  s.forAll (fun t r => t.policyEvent sl p 0x0A r.handle.toNat r.interval)
    (x.regs.filter (fun r => r.slice.toNat == sl && (Tab.find w.placed r.handle.toNat).isNone))

/-- Completes a request that made the weaver generate a program. -/
def State.reweaveDone (s : State) (sl : Nat) (e : Entry) (r : Rep × Option (BitVec 48 × State)) : State :=
  match r.2 with
  | some (sw, t) => t.admReport sl e r.1 (sw.setWidth 32)
  | none => s.admReport sl e r.1 0

/-- An owner's program of the slice on the port names the context (R250). -/
def State.warpOwns (s : State) (p sl i : Nat) (x : SchedS) : Bool :=
  x.progs.any (fun g => g.2.slice.toNat == sl && (g.2.named.find i).isSome && (match (s.segsIn p x).find g.1 with
    | some y => !y.weaver
    | none => false))

/-- REGISTER_PERIODIC in its turn (R250, R253, R256; log entries 103, 104). -/
def State.turnRegister (s : State) (sl : Nat) (e : Entry) : State :=
  match s.ctxOfHandle e.handle with
  | none => s.adminDone sl e stNoDevice
  | some i =>
    let p := (s.ctx i).port.toNat
    let x := (s.schedAt p).later
    if s.warpOwns p sl i x then s.admReport sl e { result := resConflict } 0
    else
      let r : PReg :=
        { slice := BitVec.ofNat 6 sl, handle := BitVec.ofNat 23 e.handle, interval := fld e.q1 63 56, cnt := fld e.q1 55 53
          rty := fld e.q1 52 51 }
      let y := { x with regs := x.regs.filter (fun z => !(z.slice.toNat == sl && z.handle.toNat == e.handle)) ++ [r] }
      s.reweaveDone sl e (s.reweave p sl y (fun w => (Tab.find w.placed e.handle).isSome))

/-- The port of a slice's registration of a handle. -/
def State.regPort (s : State) (sl h : Nat) : Option Nat :=
  (List.range 16).find? (fun p => (s.schedAt p).regs.any (fun r => r.slice.toNat == sl && r.handle.toNat == h))

/-- A change of a slice's registrations or WEFT_MIN on a port where it has no weaver segment: there is no program to generate
(log entry 62). -/
def State.setUnwoven (s : State) (p sl : Nat) (e : Entry) (x : SchedS) : State :=
  (s.updSched p (fun z => { z with regs := x.regs, weftMin := x.weftMin })).adminDone sl e stSuccess

/-- WITHDRAW_PERIODIC in its turn (R256, R289; log entry 62). -/
def State.turnWithdraw (s : State) (sl : Nat) (e : Entry) : State :=
  match s.regPort sl e.handle with
  | none => s.adminDone sl e stSuccess
  | some p =>
    let x := (s.schedAt p).later
    let y := { x with regs := x.regs.filter (fun z => !(z.slice.toNat == sl && z.handle.toNat == e.handle)) }
    let r := s.reweave p sl y (fun _ => true)
    if (s.weaverSeg p sl y).isNone then s.setUnwoven p sl e y
    else s.reweaveDone sl e (r.1, r.2.map (fun q => (q.1, q.2.updPolicy (fun z => { z with backoff := z.backoff.del e.handle }))))

/-- SET_WEFT_MIN in its turn (R253, R256; log entries 62, 100). -/
def State.turnWeftMin (s : State) (sl : Nat) (e : Entry) : State :=
  let p := fld e.q1 63 59
  let x := (s.schedAt p).later
  let y := { x with weftMin := x.weftMin.set sl (fld e.q1 45 32) }
  if (s.weaverSeg p sl y).isNone then s.setUnwoven p sl e y else s.reweaveDone sl e (s.reweave p sl y (fun _ => true))

/-- A back-off change in its turn (R342): the interval in effect of a registration; a refusal leaves the program, and is traced (log entry
105). -/
def State.turnBackoff (s : State) (h n : Nat) : State :=
  let u := s.updPolicy (fun y => { y with backoff := Tab.upd (n, s.tick.n, 0) y.backoff h (fun b => (n, b.2)) })
  match (List.range 16).find? (fun p => (s.schedAt p).regs.any (fun r => r.handle.toNat == h)) with
  | some p =>
    match (s.schedAt p).regs.find? (fun r => r.handle.toNat == h) with
    | some r =>
      let sl := r.slice.toNat
      match (u.reweave p sl (u.schedAt p).later (fun _ => true)).2 with
      | some (_, t) => t.policyEvent sl p 0x02 h n
      | none => s.tr 1 0 0xB 1 sl 1 (BitVec.ofNat 32 h)
    | none => s
  | none => s

/-! ## SET_PORT_SCHED (R230, R235, R243, R250) -/

/-- A segment as SEG k shows it (R260); none when VALID is 0. -/
def segOfWord (w : W32) : Option Seg :=
  if w.getLsbD 31 then some { weaver := w.getLsbD 30, slice := BitVec.ofNat 6 (w.toNat / 2 ^ 24), stop := w.toNat % 2 ^ 14 } else none

/-- The table of eight words, segment 0 first. -/
def tableOf (ws : List W32) : Tab Seg :=
  (List.range 8).filterMap (fun k => (segOfWord (ws.getD k 0)).map (fun g => (k, g)))

/-- The segments of a table follow one another without gaps, and their ENDs ascend to at most 12,000 (R230; log entry 99). -/
def segTableOk (t : Tab Seg) : Bool :=
  t.map (·.1) == List.range t.length && (t.zip (t.drop 1)).all (fun a => decide (a.1.2.stop < a.2.2.stop)) &&
    t.all (fun g => decide (1 ≤ g.2.stop ∧ g.2.stop ≤ 12000))

/-- A slice gets no more than two segments of a port, and one weaver segment (R230, R250; log entry 99). -/
def tableShares (t : Tab Seg) : Bool :=
  t.all (fun g =>
    let mine := t.filter (fun h => h.2.slice == g.2.slice)
    decide (mine.length ≤ 2 ∧ (mine.filter (fun h => h.2.weaver)).length ≤ 1))

/-- The table takes a segment from a program that holds it (R250; log entry 99). -/
def State.tableTakes (s : State) (p : Nat) (x : SchedS) (t : Tab Seg) : Bool :=
  x.progs.any (fun g =>
    match (s.segsIn p x).find g.1 with
    | some old =>
      let kept := match t.find g.1 with
        | some new => new.slice == old.slice && new.weaver == old.weaver
        | none => false
      !kept && (!old.weaver || x.regs.any (fun r => r.slice == old.slice))
    | none => false)

/-- The programs of a port under a new table: each owner's program admitted again, each weaver segment's generated (R243, R256). The
changes, the largest period, the instructions added and the first refusal. -/
structure Retable where
  x : SchedS
  changes : List Change := []
  period : Nat := 1
  extra : Nat := 0
  bad : Option Rep := none

/-- One segment of the new table. -/
def State.retableSeg (s : State) (p : Nat) (old : SchedS) (a : Retable) (k : Nat) (g : Seg) : Retable :=
  if g.weaver then
    let w := s.weaveProg p g.slice.toNat k a.x a.extra
    if losesPlace a.x g.slice.toNat w then { a with bad := optBy (fun x _ => x) a.bad (some { w.rep with result := resBudget }) }
    else match w.prog with
      | some q =>
        { a with
          x := { (a.x.placedBy g.slice.toNat w) with progs := a.x.progs.set k q }, changes := a.changes ++ [.install k q]
          period := max a.period (max (old.periodOf k) (2 ^ q.period)), extra := a.extra + q.code.length }
      | none => { a with bad := optBy (fun x _ => x) a.bad (some w.rep) }
  else
    match old.progs.find k with
    | some q =>
      let r := s.admitProg { port := p, seg := k, sl := q.slice.toNat, period := q.period, weaver := false, code := q.code, again := true }
        a.x a.extra
      match r.prog with
      | some q' =>
        { a with x := { a.x with progs := a.x.progs.set k q' }, changes := a.changes ++ [.install k q']
                 period := max a.period (2 ^ q'.period) }
      | none => { a with bad := optBy (fun x _ => x) a.bad (some r.rep) }
    | none => a

/-- SET_PORT_SCHED in its turn (R235, R243, R246, R250, R256; log entry 99). Admitted, it reports PHASE 0xFF, ADDR 0xFFFF and figures of 0,
whatever programs were admitted again with it. -/
def State.turnPortSched (s : State) (e : Entry) (words : List W64) : State :=
  let p := fld e.q1 63 59
  let allow := fld e.q1 45 32
  let poll := BitVec.ofNat 8 (fld e.q1 31 24)
  let t := tableOf (words.map (fun w => w.setWidth 32))
  let old := (s.schedAt p).later
  if allow < treeMin (s.admSpeed p) then s.admReport 0 e { result := resBudget } 0
  else if !tableShares t || s.tableTakes p old t then s.admReport 0 e { result := resConflict } 0
  else
    let gone := (old.progs.map (·.1)).filter (fun k => (t.find k).isNone || (match t.find k, (s.segsIn p old).find k with
      | some new, some was => !(new.slice == was.slice && new.weaver == was.weaver)
      | _, _ => false))
    let x := Change.apply (.table t allow poll) { old with progs := old.progs.filter (fun g => !gone.contains g.1) }
    let start : Retable :=
      { x := x, changes := .table t allow poll :: gone.map Change.remove
        period := gone.foldl (fun m k => max m (old.periodOf k)) 1 }
    let a := t.foldl (fun a g => s.retableSeg p old a g.1 g.2) start
    match a.bad with
    | some r => s.admReport 0 e r 0
    | none =>
      let sw := s.switchAt a.period
      ((s.updSched p (fun z => { z with regs := a.x.regs })).addChanges p sw a.changes).admReport 0 e {} (sw.setWidth 32)

/-! ## Graphs -/

/-- ADMIT_GRAPH in its turn (R246, R252, R348; log entry 107). -/
def State.turnGraph (s : State) (sl : Nat) (e : Entry) (words : List W64) : State :=
  match readImage words with
  | none => s.adminDone sl e stMalformed
  | some g =>
    let a := s.admitGraphImage sl g
    if a.room then
      if a.rep.result = resAdmitted then
        let sw := s.switchAt (2 ^ g.period)
        (s.placeGraph sl g a.worst words sw).admReport sl e a.rep (sw.setWidth 32)
      else s.admReport sl e a.rep 0
    else s.adminDone sl e stNoResource

/-- GRAPH_CTL in its turn (R349, R352): at a switch tick of the graph's period (log entry 100). -/
def State.turnGraphCtl (s : State) (sl : Nat) (e : Entry) : State :=
  let g := fld e.q1 63 52
  if (s.graph g).live && (s.graph g).slice.toNat == sl then
    let sw := s.switchAt (2 ^ (s.graph g).period)
    let c : GChange := if fbit e.q1 51 then .stop (BitVec.ofNat 12 g) else .run (BitVec.ofNat 12 g)
    (s.updGChanges (· ++ [(sw, c)])).adminDone sl e stSuccess
  else s.adminDone sl e stNotPermitted

/-! ## The unit (R243) -/

/-- A request whose turn has come (log entry 100). -/
def State.admTurn (s : State) (r : AdmReq) : State :=
  let sl := r.slice.toNat
  match r.entry.op with
  | 0x20 => s.turnWarp sl r.entry r.words
  | 0x22 => s.turnGraph sl r.entry r.words
  | 0x24 => s.turnRegister sl r.entry
  | 0x25 => s.turnWithdraw sl r.entry
  | 0x26 => s.turnWeftMin sl r.entry
  | 0x27 => s.turnPortSched r.entry r.words
  | 0x62 => s.turnGraphCtl sl r.entry
  | 0x8B => s.turnRestore r.entry r.words
  | _ => s.turnBackoff (r.words.getD 0 0).toNat (r.words.getD 1 0).toNat

/-- Takes the first request that a test selects out of a list (log entry 100). -/
def takeFirst (f : AdmReq → Bool) : List AdmReq → Option (AdmReq × List AdmReq)
  | [] => none
  | r :: t => if f r then some (r, t) else (takeFirst f t).map (fun x => (x.1, r :: x.2))

end Sys2Proof.Machine
end

