-- ==== Sys2Proof/Machine/AdminSched.lean ====
section
/-! DEFINITION. The commands of admission and scheduling (07, 08 R289): the admin commands, the admission unit's completions and the
weaver's own generation. -/
namespace Sys2Proof.Machine

open Sys2Proof

/-- ADMIT_WARP (R244, R289): the program as read from the owner's memory goes to the admission unit. -/
def execAdmitWarp (sl : Slice) (words : List W32) (s : State) : Host.Outcome State Fault Refusal :=
  .next (s.admin sl.toNat 0x20 false (fun e s =>
    if 15 < fld e.q1 63 59 ∨ 8 < fld e.q1 55 52 ∨ e.q2.toNat % 4 ≠ 0 then s.adminDone sl.toNat e stMalformed
    else if words.length = fld e.q1 51 36 then s.submit sl.toNat e (words.map (fun w => w.setWidth 64))
    else s))

/-- WITHDRAW_WARP (R246, R289): the program of a non-weaver segment leaves at a switch tick (log entry 101). -/
def execWithdrawWarp (sl : Slice) (s : State) : Host.Outcome State Fault Refusal :=
  .next (s.admin sl.toNat 0x21 false (fun e s =>
    let p := fld e.q1 63 59
    let k := fld e.q1 58 56
    if 15 < p then s.adminDone sl.toNat e stMalformed
    else
      let x := (s.schedAt p).later
      match (s.segsIn p x).find k with
      | some g =>
        if g.slice = sl ∧ g.weaver = false then
          match x.progs.find k with
          | some q => (s.addChanges p (s.switchAt (2 ^ q.period)) [.remove k]).adminDone sl.toNat e stSuccess
          | none => s.adminDone sl.toNat e stSuccess
        else s.admReport sl.toNat e { result := resSegment } 0
      | none => s.admReport sl.toNat e { result := resSegment } 0))

/-- REGISTER_PERIODIC (R253, R270, R289): on an endpoint of the slice; an interval of 0 is out of range, which is checked before the
handle (log entry 104). -/
def execRegisterPeriodic (sl : Slice) (s : State) : Host.Outcome State Fault Refusal :=
  .next (s.admin sl.toNat 0x24 false (fun e s =>
    let st := s.handleRight sl.toNat e.handle
    if fld e.q1 63 56 = 0 then s.adminDone sl.toNat e stMalformed
    else if st ≠ 0 then s.adminDone sl.toNat e st
    else s.submit sl.toNat e []))

/-- WITHDRAW_PERIODIC (R289): for a handle that no registration of the slice names it completes without effect. -/
def execWithdrawPeriodic (sl : Slice) (s : State) : Host.Outcome State Fault Refusal :=
  .next (s.admin sl.toNat 0x25 false (fun e s =>
    if (s.regPort sl.toNat e.handle).isSome then s.submit sl.toNat e [] else s.adminDone sl.toNat e stSuccess))

/-- SET_WEFT_MIN (R253, R289). -/
def execSetWeftMin (sl : Slice) (s : State) : Host.Outcome State Fault Refusal :=
  .next (s.admin sl.toNat 0x26 false (fun e s =>
    if 15 < fld e.q1 63 59 ∨ 12000 < fld e.q1 45 32 then s.adminDone sl.toNat e stMalformed else s.submit sl.toNat e []))

/-- SET_PORT_SCHED (R230, R235, R289): S0 only. -/
def execSetPortSched (sl : Slice) (segs : List W32) (s : State) : Host.Outcome State Fault Refusal :=
  .next (s.admin sl.toNat 0x27 true (fun e s =>
    if 15 < fld e.q1 63 59 ∨ 12000 < fld e.q1 45 32 ∨ fld e.q1 31 24 = 0 ∨ e.q2.toNat % 8 ≠ 0 then
      s.adminDone sl.toNat e stMalformed
    else if segs.length = 8 then
      if segTableOk (tableOf segs) then s.submit sl.toNat e (segs.map (fun w => w.setWidth 64)) else s.adminDone sl.toNat e stMalformed
    else s))

/-- ADMIT_GRAPH (R347): the image as read through the admin queue goes to the admission unit. -/
def execAdmitGraph (sl : Slice) (image : List W64) (s : State) : Host.Outcome State Fault Refusal :=
  .next (s.admin sl.toNat 0x22 false (fun e s => s.submit sl.toNat e image))

/-- WITHDRAW_GRAPH (R246, R349). -/
def execWithdrawGraph (sl : Slice) (s : State) : Host.Outcome State Fault Refusal :=
  .next (s.admin sl.toNat 0x23 false (fun e s =>
    let g := fld e.q1 63 52
    if (s.graph g).live && (s.graph g).slice == sl then
      (s.updGChanges (· ++ [(s.switchAt (2 ^ (s.graph g).period), .withdraw (BitVec.ofNat 12 g))])).adminDone sl.toNat e stSuccess
    else s.adminDone sl.toNat e stNotPermitted))

/-- The answer to a request whose turn has come: while PD11 is quarantined, NO_RESOURCE (R460). -/
def State.admAnswer (s : State) (r : AdmReq) : State :=
  if s.domOn 11 then s.admTurn r else s.adminDone r.slice.toNat r.entry stNoResource

/-- ADMISSION_COMPLETE (R243, R246, R460): the unit takes the first request in order of arrival whose slice's work runs; requests wait
while PD11 is not ON, and are answered while it is quarantined. -/
def execAdmissionComplete (s : State) : Host.Outcome State Fault Refusal :=
  .next (if s.working && (s.domOn 11 || decide ((s.dom 11).st = .quarantined)) then
      match takeFirst (fun r => s.works r.slice.toNat) s.admitting with
      | some (r, l) => (s.updAdmission (fun _ => l)).admAnswer r
      | none => s
    else s)

/-- WEAVER_GENERATE (R255, R256): the program of a weaver segment is generated again when it would differ from the one in force or
admitted; a registration left without a placement raises UNPLACED (log entry 102). -/
def execWeaverGenerate (p : Port) (sl : Slice) (s : State) : Host.Outcome State Fault Refusal :=
  let n := p.toNat
  let k := sl.toNat
  .next (if s.working && s.domOn 11 then
      let x := (s.schedAt n).later
      match s.weaverSeg n k x with
      | some seg =>
        let w := s.weaveProg n k seg x 0
        match w.prog with
        | some g =>
          match x.progs.find seg with
          | some old =>
            if old.code = g.code ∧ old.slice = g.slice ∧ old.speed = g.speed ∧ old.named = g.named then s
            else ((s.unplaced n k x w).installWoven n k seg x w g).2
          | none => ((s.unplaced n k x w).installWoven n k seg x w g).2
        | none => s
      | none => s
    else s)

end Sys2Proof.Machine
end

