-- ==== Sys2Proof/Machine/Arith.lean ====
section
/-! DEFINITION. Coresh instructions that compute on registers and predicates (06): arithmetic, immediates, compares,
PLOG and NOP. -/
namespace Sys2Proof.Machine

open Sys2Proof

/-- NOP (R195). -/
def execNop (u : CUnit) (gd : Guard) (s : State) : Host.Outcome State Fault Refusal :=
  s.coresh u (.nop u gd) gd false (fun c0 t => t.advance u c0 1) (State.skip1 u)

/-- ADD (R190, R195): modulo 2^32. -/
def execAdd (u : CUnit) (gd : Guard) (d a b : Reg) (s : State) : Host.Outcome State Fault Refusal :=
  s.coreshReg u (.add u gd d a b) gd d 1 (fun x => x.reg a + x.reg b)

/-- SUB (R190, R195): modulo 2^32. -/
def execSub (u : CUnit) (gd : Guard) (d a b : Reg) (s : State) : Host.Outcome State Fault Refusal :=
  s.coreshReg u (.sub u gd d a b) gd d 1 (fun x => x.reg a - x.reg b)

/-- AND (R195). -/
def execAnd (u : CUnit) (gd : Guard) (d a b : Reg) (s : State) : Host.Outcome State Fault Refusal :=
  s.coreshReg u (.and u gd d a b) gd d 1 (fun x => x.reg a &&& x.reg b)

/-- OR (R195). -/
def execOr (u : CUnit) (gd : Guard) (d a b : Reg) (s : State) : Host.Outcome State Fault Refusal :=
  s.coreshReg u (.or u gd d a b) gd d 1 (fun x => x.reg a ||| x.reg b)

/-- XOR (R195). -/
def execXor (u : CUnit) (gd : Guard) (d a b : Reg) (s : State) : Host.Outcome State Fault Refusal :=
  s.coreshReg u (.xor u gd d a b) gd d 1 (fun x => x.reg a ^^^ x.reg b)

/-- The shift amount: bits [4:0] (R190). -/
def shiftBy (v : W32) : Nat := v.toNat % 32

/-- SHL (R190, R195). -/
def execShl (u : CUnit) (gd : Guard) (d a b : Reg) (s : State) : Host.Outcome State Fault Refusal :=
  s.coreshReg u (.shl u gd d a b) gd d 1 (fun x => x.reg a <<< shiftBy (x.reg b))

/-- SHR (R190, R195): logical. -/
def execShr (u : CUnit) (gd : Guard) (d a b : Reg) (s : State) : Host.Outcome State Fault Refusal :=
  s.coreshReg u (.shr u gd d a b) gd d 1 (fun x => x.reg a >>> shiftBy (x.reg b))

/-- SAR (R190, R195): arithmetic. -/
def execSar (u : CUnit) (gd : Guard) (d a b : Reg) (s : State) : Host.Outcome State Fault Refusal :=
  s.coreshReg u (.sar u gd d a b) gd d 1 (fun x => (x.reg a).sshiftRight (shiftBy (x.reg b)))

/-- MIN (R195): signed. -/
def execMin (u : CUnit) (gd : Guard) (d a b : Reg) (s : State) : Host.Outcome State Fault Refusal :=
  s.coreshReg u (.min u gd d a b) gd d 1
    (fun x => if (x.reg a).toInt ≤ (x.reg b).toInt then x.reg a else x.reg b)

/-- MAX (R195): signed. -/
def execMax (u : CUnit) (gd : Guard) (d a b : Reg) (s : State) : Host.Outcome State Fault Refusal :=
  s.coreshReg u (.max u gd d a b) gd d 1
    (fun x => if (x.reg a).toInt ≤ (x.reg b).toInt then x.reg b else x.reg a)

/-- MUL (R195): the low 32 bits, 3 cycles. -/
def execMul (u : CUnit) (gd : Guard) (d a b : Reg) (s : State) : Host.Outcome State Fault Refusal :=
  s.coreshReg u (.mul u gd d a b) gd d 3 (fun x => x.reg a * x.reg b)

/-- ADDI (R195): IMM15 sign-extended. -/
def execAddi (u : CUnit) (gd : Guard) (d a : Reg) (imm : BitVec 15) (s : State) : Host.Outcome State Fault Refusal :=
  s.coreshReg u (.addi u gd d a imm) gd d 1 (fun x => x.reg a + immS imm)

/-- ANDI (R195): IMM15 zero-extended. -/
def execAndi (u : CUnit) (gd : Guard) (d a : Reg) (imm : BitVec 15) (s : State) : Host.Outcome State Fault Refusal :=
  s.coreshReg u (.andi u gd d a imm) gd d 1 (fun x => x.reg a &&& immZ imm)

/-- ORI (R195): IMM15 zero-extended. -/
def execOri (u : CUnit) (gd : Guard) (d a : Reg) (imm : BitVec 15) (s : State) : Host.Outcome State Fault Refusal :=
  s.coreshReg u (.ori u gd d a imm) gd d 1 (fun x => x.reg a ||| immZ imm)

/-- XORI (R195): IMM15 zero-extended. -/
def execXori (u : CUnit) (gd : Guard) (d a : Reg) (imm : BitVec 15) (s : State) : Host.Outcome State Fault Refusal :=
  s.coreshReg u (.xori u gd d a imm) gd d 1 (fun x => x.reg a ^^^ immZ imm)

/-- SHLI (R195): by IMM15 [4:0]. -/
def execShli (u : CUnit) (gd : Guard) (d a : Reg) (imm : BitVec 15) (s : State) : Host.Outcome State Fault Refusal :=
  s.coreshReg u (.shli u gd d a imm) gd d 1 (fun x => x.reg a <<< (imm.toNat % 32))

/-- SHRI (R195): by IMM15 [4:0], logical. -/
def execShri (u : CUnit) (gd : Guard) (d a : Reg) (imm : BitVec 15) (s : State) : Host.Outcome State Fault Refusal :=
  s.coreshReg u (.shri u gd d a imm) gd d 1 (fun x => x.reg a >>> (imm.toNat % 32))

/-- MOVI (R195): IMM16 zero-extended. -/
def execMovi (u : CUnit) (gd : Guard) (d : Reg) (imm : W16) (s : State) : Host.Outcome State Fault Refusal :=
  s.coreshReg u (.movi u gd d imm) gd d 1 (fun _ => imm.setWidth 32)

/-- MOVHI (R195): IMM16 in the upper half, gD [15:0] kept. -/
def execMovhi (u : CUnit) (gd : Guard) (d : Reg) (imm : W16) (s : State) : Host.Outcome State Fault Refusal :=
  s.coreshReg u (.movhi u gd d imm) gd d 1 (fun x => (imm.setWidth 32 <<< 16) ||| (x.reg d &&& 0xFFFF))

/-- CMP (R196). -/
def execCmp (u : CUnit) (gd : Guard) (pd : Pred) (cond : BitVec 3) (a b : Reg) (s : State) : Host.Outcome State Fault Refusal :=
  s.coreshPred u (.cmp u gd pd cond a b) gd pd (fun x => condHolds cond (x.reg a) (x.reg b))

/-- CMPI (R196): IMM14 sign-extended. -/
def execCmpi (u : CUnit) (gd : Guard) (pd : Pred) (cond : BitVec 3) (a : Reg) (imm : BitVec 14) (s : State) :
    Host.Outcome State Fault Refusal :=
  s.coreshPred u (.cmpi u gd pd cond a imm) gd pd (fun x => condHolds cond (x.reg a) (imm.signExtend 32))

/-- PLOG (R196). -/
def execPlog (u : CUnit) (gd : Guard) (pd pa pb : Pred) (fn : BitVec 2) (s : State) : Host.Outcome State Fault Refusal :=
  s.coreshPred u (.plog u gd pd pa pb fn) gd pd (fun x => plogFn fn (x.pred pa) (x.pred pb))

end Sys2Proof.Machine
end

