-- ==== Sys2Proof/Machine/BusInstrs.lean ====
section
/-! DEFINITION. The bus instructions of a loom (06): POLL, TAKE, GIVE, SETUP, PING, DEFER, SUSPEND, RESUME, PROBE, WEAVE. -/
namespace Sys2Proof.Machine

open Sys2Proof

/-- POLL (R209). -/
def execPoll (p : Port) (gd : Guard) (d : Reg) (cnt : BitVec 3) (rty : BitVec 2) (e : Reg) (s : State) :
    Host.Outcome State Fault Refusal :=
  s.busInstr p (.poll p gd d cnt rty e) gd .poll d e 0 0 40

/-- TAKE (R210). -/
def execTake (p : Port) (gd : Guard) (d : Reg) (cnt : BitVec 3) (rty : BitVec 2) (e : Reg) (s : State) :
    Host.Outcome State Fault Refusal :=
  s.busInstr p (.take p gd d cnt rty e) gd .take d 0 cnt.toNat rty.toNat (sheafCost cnt)

/-- GIVE (R211). -/
def execGive (p : Port) (gd : Guard) (d : Reg) (cnt : BitVec 3) (rty : BitVec 2) (e : Reg) (s : State) :
    Host.Outcome State Fault Refusal :=
  s.busInstr p (.give p gd d cnt rty e) gd .give d 0 cnt.toNat rty.toNat (sheafCost cnt)

/-- SETUP (R212). -/
def execSetup (p : Port) (gd : Guard) (d : Reg) (cnt : BitVec 3) (rty : BitVec 2) (e : Reg) (s : State) :
    Host.Outcome State Fault Refusal :=
  s.busInstr p (.setup p gd d cnt rty e) gd .setup d 0 cnt.toNat rty.toNat (sheafCost cnt)

/-- PING (R213). -/
def execPing (p : Port) (gd : Guard) (d : Reg) (cnt : BitVec 3) (rty : BitVec 2) (e : Reg) (s : State) :
    Host.Outcome State Fault Refusal :=
  s.busInstr p (.ping p gd d cnt rty e) gd .ping d 0 0 0 40

/-- DEFER (R214). -/
def execDefer (p : Port) (gd : Guard) (d : Reg) (cnt : BitVec 3) (rty : BitVec 2) (e : Reg) (s : State) :
    Host.Outcome State Fault Refusal :=
  s.busInstr p (.defer p gd d cnt rty e) gd .defer d 0 cnt.toNat rty.toNat (sheafCost cnt)

/-- SUSPEND (R215). -/
def execSuspend (p : Port) (gd : Guard) (d : Reg) (cnt : BitVec 3) (rty : BitVec 2) (e : Reg) (s : State) :
    Host.Outcome State Fault Refusal :=
  s.coresh (.loom p) (.suspend p gd d cnt rty e) gd (s.issueWaits p.toNat)
    (fun c0 t => t.segmentInstr p.toNat d true c0) (State.skip1 (.loom p))

/-- RESUME (R215). -/
def execResume (p : Port) (gd : Guard) (d : Reg) (cnt : BitVec 3) (rty : BitVec 2) (e : Reg) (s : State) :
    Host.Outcome State Fault Refusal :=
  s.coresh (.loom p) (.resume p gd d cnt rty e) gd (s.issueWaits p.toNat)
    (fun c0 t => t.segmentInstr p.toNat d false c0) (State.skip1 (.loom p))

/-- PROBE (R216): a slot of VAL µs on the shuttle; with the probes' domain off it ends at once, NOT_ACTIVE (log entry 41). -/
def execProbe (p : Port) (gd : Guard) (d : Reg) (val : BitVec 14) (s : State) : Host.Outcome State Fault Refusal :=
  s.coresh (.loom p) (.probe p gd d val) gd (s.issueWaits p.toNat)
    (fun c0 t =>
      if t.domOn 10 then
        let c0 := max c0 (t.shuttle p.toNat).lastStart
        let q : WSeq := { kind := .probe val.toNat, ctx := 0, d := d, e := 0, cnt := 0, retries := 0, form := .slot, issued := c0 + 8 }
        (((t.updShuttle p.toNat (fun x => { x with seqs := x.seqs ++ [q] })).advance (.loom p) c0 8).serve p.toNat)
      else t.atOnce p.toNat d oNotActive c0 8)
    (State.skip1 (.loom p))

/-- WEAVE (R217, R241, R242): one turn of it once the shuttle is empty. -/
def execWeave (p : Port) (gd : Guard) (d : Reg) (val : BitVec 14) (s : State) : Host.Outcome State Fault Refusal :=
  s.coresh (.loom p) (.weave p gd d val) gd (decide ((s.shuttle p.toNat).seqs ≠ []))
    (fun c0 t => t.weaveTurn p.toNat d val.toNat (max c0 (max (t.shuttle p.toNat).lead (t.shuttle p.toNat).ended)))
    (State.skip1 (.loom p))

end Sys2Proof.Machine
end

