-- ==== Sys2Proof/Machine/Events.lean ====
section
/-! DEFINITION. The event commands and registers (12), the fast bank of a link, and the power states of its function
(16 R515). -/
namespace Sys2Proof.Machine

open Sys2Proof

/-- The scope of a source group (R393): slice, shared or private; none for a reserved group. -/
inductive Scope where
  | slice | shared | priv
deriving DecidableEq, Repr

/-- The scope of a group. -/
def groupScope (g : Nat) : Option Scope :=
  match g with
  | 0 | 1 | 3 | 4 | 5 | 6 | 7 | 8 | 9 => some .shared
  | 2 | 10 | 11 | 12 | 13 | 14 | 15 | 16 | 17 => some .slice
  | 18 => some .priv
  | _ => none

/-- The identifiers FIRST to LAST of a SET_SOURCE or ROUTE_SOURCE. -/
def sourceRange (e : Entry) : List Nat :=
  (List.range (fld e.q1 46 35 + 1 - fld e.q1 58 47)).map (· + fld e.q1 58 47)

/-- The target of a shared source as it will be: the route set, else the default of R393. -/
def State.routedTo (s : State) (key : Nat) : Nat :=
  match (s.srcCfgAt key).target with
  | some t => t.toNat
  | none => match keyGroup key with
    | 1 | 3 | 7 => s.portOwner (keyId key)
    | _ => 0

/-- SET_SOURCE (R396, R412): enable and class of a slice's own sources, or of shared sources routed to it
(log entry 129). -/
def execSetSource (sl : Slice) (s : State) : Host.Outcome State Fault Refusal :=
  .next (s.admin sl.toNat 0x40 false (fun e s =>
    let g := fld e.q1 63 59
    let ids := sourceRange e
    let set (sp : Nat) : State := s.forAll (fun t i => t.updSrcCfg (srcKey sp g i) (fun x => { x with
      enabled := fbit e.q1 34, fast := fbit e.q1 33 })) ids
    match groupScope g with
    | none => s.adminDone sl.toNat e stMalformed
    | some sc =>
      if ids = [] then s.adminDone sl.toNat e stMalformed
      else match sc with
        | .priv => s.adminDone sl.toNat e stNotPermitted
        | .slice => (set sl.toNat).adminDone sl.toNat e stSuccess
        | .shared =>
          if ids.all (fun i => s.routedTo (srcKey sharedSpace g i) == sl.toNat) then
            (set sharedSpace).adminDone sl.toNat e stSuccess
          else s.adminDone sl.toNat e stNotPermitted))

/-- ROUTE_SOURCE (R395, R396, R412): the warden routes shared sources; group TICK goes to S0 only (log entry 129). -/
def execRouteSource (sl : Slice) (s : State) : Host.Outcome State Fault Refusal :=
  .next (s.admin sl.toNat 0x41 true (fun e s =>
    let g := fld e.q1 63 59
    let t := fld e.q1 32 27
    let ids := sourceRange e
    match groupScope g with
    | none => s.adminDone sl.toNat e stMalformed
    | some sc =>
      if ids = [] then s.adminDone sl.toNat e stMalformed
      else if sc ≠ .shared ∨ (g = 0 ∧ t ≠ 0) then s.adminDone sl.toNat e stNotPermitted
      else (s.forAll (fun u i => u.updSrcCfg (srcKey sharedSpace g i) (fun x => { x with
          enabled := fbit e.q1 34, fast := fbit e.q1 33, target := some (BitVec.ofNat 6 t) })) ids).adminDone sl.toNat e stSuccess))

/-! ## Registers of the event queue (R398, R403, R406, R407, R413) -/

/-- EQ_CONS_WRITE (R398): held for the commit. -/
def execEqConsWrite (l : Link) (w : BitVec 4) (v : W32) (s : State) : Host.Outcome State Fault Refusal :=
  .next (s.windowWrite l.toNat w.toNat 0x0310 v)
/-- EQ_CFG_WRITE (R403): held for the commit. -/
def execEqCfgWrite (l : Link) (w : BitVec 4) (v : W32) (s : State) : Host.Outcome State Fault Refusal :=
  .next (s.windowWrite l.toNat w.toNat 0x0308 v)
/-- EQ_CTL_WRITE (R406): held for the commit. -/
def execEqCtlWrite (l : Link) (w : BitVec 4) (v : W32) (s : State) : Host.Outcome State Fault Refusal :=
  .next (s.windowWrite l.toNat w.toNat 0x0314 v)

/-- A committed write of EQ_CFG (R403, R413): LOG2SIZE is taken while RUN is 0 and in range; a start sets both indices to 0
and frees the sources whose records were written and not acknowledged. -/
def State.applyEqCfg (s : State) (sl : Nat) (v : W32) : State :=
  let run := v.getLsbD 31
  let l2 := v.toNat % 32
  if (s.eq sl).run then s.updEq sl (fun q => { q with run := run })
  else
    let s := s.updEq sl (fun q => { q with log2 := if 4 ≤ l2 ∧ l2 ≤ 16 then BitVec.ofNat 5 l2 else q.log2 })
    if run then
      let keys := s.srcsAt (fun w => match w with
        | .queue t _ => t.toNat == sl
        | _ => false)
      (s.forAll State.unOut keys).updEq sl (fun q => { q with run := true, prod := 0, cons := 0 })
    else s

/-- A committed write of a half of EQ_BASE (R413): ignored while RUN is 1. -/
def State.applyEqBase (s : State) (sl : Nat) (hi : Bool) (v : W32) : State :=
  s.updEq sl (fun q =>
    if q.run then q
    else if hi then { q with base := BitVec.ofNat 64 (v.toNat * 2 ^ 32 + q.base.toNat % 2 ^ 32) }
    else { q with base := BitVec.ofNat 64 (q.base.toNat / 2 ^ 32 * 2 ^ 32 + v.toNat / 4096 * 4096) })

/-- A committed write of EQ_CTL (R406). -/
def State.applyEqCtl (s : State) (sl : Nat) (v : W32) : State := s.updEq sl (fun q => { q with mask := v.getLsbD 0 })

/-- A committed write of HOLDOFF i (R413): groups 4i to 4i + 3. -/
def State.applyHoldoff (s : State) (sl i : Nat) (v : W32) : State :=
  s.updEq sl (fun q => { q with
    holdoff := (List.range 4).foldl (fun t j => t.set (4 * i + j) (BitVec.ofNat 8 (v.toNat / 2 ^ (8 * j)))) q.holdoff })

/-- GRP_MASK takes effect (R407): records of masked groups that are owed to the slice are withdrawn, their levels held. -/
def State.maskGroups (s : State) (sl : Nat) (v : W32) : State :=
  let hit (r : EvRec) : Bool := r.slice.toNat == sl && v.getLsbD r.group.toNat
  let s := s.forAll (fun t r => t.unOut r.src) ((s.owedEv ++ s.due.ev).filter hit)
  (s.keepEv (fun r => !hit r)).updEq sl (fun q => { q with grpMask := v })

/-- A write of GRP_MASK (R407): at once. -/
def State.grpMaskWrite (s : State) (l w : Nat) (v : W32) : State :=
  match s.windowSlice l w with
  | some k => s.maskGroups k v
  | none => s.windowWrite l w 0x0318 v

/-- GRP_MASK_WRITE (R407). -/
def execGrpMaskWrite (l : Link) (w : BitVec 4) (v : W32) (s : State) : Host.Outcome State Fault Refusal :=
  .next (s.grpMaskWrite l.toNat w.toNat v)

/-! ## The fast bank (R409, R410, R414) -/

/-- A write of FB_ACK (R410, R414): frees entries at once, whose sources are acknowledged at the next commit; a freed entry sets the arm, and
the vector is sent again while one is valid. -/
def State.fbAckWrite (s : State) (k : Nat) (v : W32) : State :=
  let freed := (s.link k).fbEntry.filter (fun e => v.getLsbD e.1)
  if freed = [] then s
  else
    (s.updLink k (fun x => { x with
      fbEntry := x.fbEntry.filter (fun e => !v.getLsbD e.1), fbArmed := true
      fbAcked := x.fbAcked ++ (freed.filter (fun e =>
        (s.src e.2.src).out == .bank (BitVec.ofNat 2 k) (BitVec.ofNat 3 e.1))).map (fun e => e.2.src) })).fastVector k

/-- FB_ACK (R410, R414). -/
def execFbAck (l : Link) (v : W32) (s : State) : Host.Outcome State Fault Refusal := .next (s.fbAckWrite l.toNat v)

/-- A write of FB_CFG (R414): at once; a mask cleared sends the vector that waits. -/
def State.fbCfgWrite (s : State) (k : Nat) (v : W32) : State :=
  (s.updLink k (fun x => { x with fbMask := v.getLsbD 31, privEn := v.setWidth 2 })).fastVector k

/-- FB_CFG_WRITE (R414). -/
def execFbCfgWrite (l : Link) (v : W32) (s : State) : Host.Outcome State Fault Refusal := .next (s.fbCfgWrite l.toNat v)

/-! ## MSI-X and the function's power state (R404, R515) -/

/-- The vectors pending in the PBA that can be sent now are sent (R404). -/
def State.sendPending (s : State) (l : Nat) : State :=
  s.forAll (fun t v =>
    let x := t.link l
    if x.pba.getLsbD v && x.msixEnable && !x.msixFnMask && !x.vecMasked v && !x.d3hot then
      (t.updLink l (fun x => { x with pba := clrBit x.pba v })).emit (.msix (BitVec.ofNat 2 l) v)
    else t) (List.range 66)

/-- D3HOT_ENTRY (R515): the function issues nothing but PME from now; its slices are suspended at the commit. -/
def execD3hotEntry (l : Link) (pmeEn : Bool) (s : State) : Host.Outcome State Fault Refusal :=
  .next (s.updLink l.toNat (fun x => { x with d3hot := true, pmeEn := pmeEn, pmeSent := false }))

/-- D0_RETURN (R408, R515): the slices resume at the commit; vectors pending are sent. -/
def execD0Return (l : Link) (s : State) : Host.Outcome State Fault Refusal :=
  .next ((s.updLink l.toNat (fun x => { x with d3hot := false, pmeSent := false })).sendPending l.toNat)

end Sys2Proof.Machine
end

