-- ==== Sys2Proof/Machine/Watchman.lean ====
section
/-! DEFINITION. The watchman port (17): requests, their commands, and what a commit applies of them. -/
namespace Sys2Proof.Machine

open Sys2Proof

/-- A change of the watchman's record. -/
def State.updWatch (s : State) (f : WatchS → WatchS) : State := { s with watch := f s.watch }

/-- Sets bit `i` of WM_EVENT (R538). -/
def State.wmEvent (s : State) (i : Nat) : State := s.updWatch (fun x => { x with event := setBit x.event i })

/-- The STATUS codes of R533. -/
def wmOk : Nat := 0
def wmAuth : Nat := 1
def wmSeqFail : Nat := 2
def wmFormat : Nat := 3
def wmRefused : Nat := 4
def wmBusy : Nat := 5
def wmLocked : Nat := 6
def wmUncommissioned : Nat := 7

/-- Bytes 2 to the end of SEQ of a frame (R531), which its MAC covers. -/
def wmSigned (f : WmFrame) : List Byte :=
  [f.addr, f.typ] ++ leBytes 2 f.payload.length ++ f.payload ++ leBytes 4 f.seq.toNat

/-- The MAC of R531 under KW, which is derived from a warden key. -/
def wmMac (key : List Byte) (f : WmFrame) : List Byte :=
  (hmac (hmac key [0x57, 0x41, 0x54, 0x43, 0x48, 0x4D, 0x41, 0x4E]) (wmSigned f)).take 8

/-- The CRC of R531, over bytes 2 to the end of MAC. -/
def wmCrc (f : WmFrame) : W16 := crc16 (wmSigned f ++ f.mac)

/-- The bytes of a frame (R531): CRC as R114 sends it. -/
def wmBytes (f : WmFrame) : List Byte := [0xA5, 0x5A] ++ wmSigned f ++ f.mac ++ beBytes 2 f.crc.toNat

/-- A frame closed with a MAC and its CRC. -/
def wmClose (mac : List Byte) (f : WmFrame) : WmFrame :=
  let g := { f with mac := mac }
  { g with crc := wmCrc g }

/-- An answer (R531, R532): the request's TYPE plus 0x80, STATUS, data and the request's SEQ; with a MAC under KW where the request
was accepted, else with MAC 0 (log entry 74). -/
def State.answer (s : State) (typ : Nat) (seq : W32) (status : Nat) (data : List Byte := []) (accepted : Bool := false) : State :=
  let f : WmFrame :=
    { addr := s.watch.addr, typ := BitVec.ofNat 8 (typ + 0x80), payload := BitVec.ofNat 8 status :: data, seq := seq, mac := [], crc := 0 }
  s.emit (.watchman (wmBytes (wmClose (if accepted then wmMac s.watch.key f else List.replicate 8 0) f)))

/-- TYPE of a command (R533). -/
def WmCmd.typ : WmCmd → Nat
  | .getSeq => 0x00 | .readDigest => 0x01 | .powerCycle _ _ => 0x02 | .resetDomain _ => 0x03 | .wardenLink _ => 0x04
  | .readLog _ _ => 0x05 | .commission _ _ => 0x10 | .rekey _ => 0x11

/-- The command of a request, none when its TYPE or its payload has no meaning in R533 (log entry 74). -/
def wmParse (typ : Byte) (pl : List Byte) : Option WmCmd :=
  let b (i : Nat) : Byte := pl.getD i 0
  match typ.toNat, pl.length with
  | 0x00, 0 => some .getSeq
  | 0x01, 0 => some .readDigest
  | 0x02, 2 => if (b 0).toNat < 16 ∧ 1 ≤ (b 1).toNat ∧ (b 1).toNat ≤ 60 then some (.powerCycle (b 0) (b 1)) else none
  | 0x03, 1 => if 1 ≤ (b 0).toNat ∧ (b 0).toNat ≤ 12 then some (.resetDomain (b 0)) else none
  | 0x04, 1 => if (b 0).toNat < 4 then some (.wardenLink (b 0)) else none
  | 0x05, 3 =>
    if leAt pl 0 2 < 4096 ∧ 1 ≤ (b 2).toNat ∧ (b 2).toNat ≤ 16 then some (.readLog (BitVec.ofNat 16 (leAt pl 0 2)) (b 2)) else none
  | 0x10, 33 => if (b 32).toNat < 4 then some (.commission (pl.take 32) (b 32)) else none
  | 0x11, 40 => some (.rekey pl)
  | _, _ => none

/-- Ticks of the lockout of R532: 600 s. -/
def lockTicks : Nat := 4800000

/-- A failure of R532: counted; the sixteenth in a row begins the lockout (log entry 74). -/
def State.wmFail (s : State) : State :=
  let s := (s.updWatch (fun x => { x with failed := satInc x.failed, run := x.run + 1 })).wmEvent 1
  if 16 ≤ s.watch.run then
    ((s.updWatch (fun x => { x with run := 0, locked := some (BitVec.ofNat 48 (s.now + lockTicks)) })).wmEvent 3).logAon 0x29 0 0
  else s

/-- A request accepted (R532): counted, logged, and its command is to act. -/
def State.wmAccept (s : State) (c : WmCmd) (seq : W32) : State :=
  ((s.updWatch (fun x => { x with accepted := satInc x.accepted, run := 0, req := some (c, seq) })).wmEvent 0).logAon 0x28
    c.typ seq

/-- Received bytes from the first SYNC on; a first byte of one at the end is kept (R531; log entry 79). -/
def wmSync : List Byte → List Byte
  | [] => []
  | b :: t => if b = 0xA5 ∧ (t = [] ∨ t.head? = some 0x5A) then b :: t else wmSync t

/-- The frame at the head of received bytes, once it is whole, and the bytes after it (R531). -/
def wmRead (bs : List Byte) : Option (WmFrame × List Byte) :=
  let n := leAt bs 4 2
  if 6 ≤ bs.length ∧ 20 + n ≤ bs.length then
    some ({ addr := bs.getD 2 0, typ := bs.getD 3 0, payload := (bs.drop 6).take n, seq := BitVec.ofNat 32 (leAt bs (6 + n) 4)
            mac := (bs.drop (10 + n)).take 8, crc := BitVec.ofNat 16 ((bs.getD (18 + n) 0).toNat * 256 + (bs.getD (19 + n) 0).toNat) },
      bs.drop (20 + n))
  else none

/-- A frame as received (R531 to R533): a bad CRC is counted and another station's frame discarded; then LOCKED, NOT_COMMISSIONED, BUSY,
AUTH and SEQ, and an accepted SEQ is stored before its command acts (log entry 74). -/
def State.wmFrame (s : State) (station : Byte) (f : WmFrame) : State :=
  let t := f.typ.toNat
  let free := t == 0x00 || t == 0x10
    if f.crc ≠ wmCrc f then s.wmEvent 2
    else if f.addr ≠ station then s
    else if s.watch.locked.isSome then s.answer t f.seq wmLocked
    else if s.watch.commissioned = false ∧ free = false then s.answer t f.seq wmUncommissioned
    else if s.watch.wait.isSome ∨ s.watch.req.isSome then s.answer t f.seq wmBusy
    else if free then
      match wmParse f.typ f.payload with
      | some c => s.updWatch (fun x => { x with req := some (c, f.seq) })
      | none => s.answer t f.seq wmFormat
    else if f.mac ≠ wmMac s.watch.key f then s.wmFail.answer t f.seq wmAuth
    else if f.seq.toNat ≤ s.watch.seq.toNat then s.wmFail.answer t f.seq wmSeqFail
    else
      let s := s.updWatch (fun x => { x with seq := f.seq })
      match wmParse f.typ f.payload with
      | some c => s.wmAccept c f.seq
      | none =>
        (((s.updWatch (fun x => { x with accepted := satInc x.accepted, run := 0 })).wmEvent 0).logAon 0x28 t f.seq).answer t
          f.seq wmFormat [] true

/-- The station address of the frame in reception: a write of WM_CFG takes effect at the next (R538). -/
def WatchS.hears (x : WatchS) : Byte := x.station.getD x.addr

/-- WATCHMAN_REQUEST (R531): bytes arrive; a frame that they complete is received. -/
def execWatchmanRequest (bytes : List Byte) (s : State) : Host.Outcome State Fault Refusal :=
  let rx := wmSync (s.watch.rx ++ bytes)
  .next (match wmRead rx with
    | some (f, rest) => (s.updWatch (fun x => { x with rx := rest, station := none })).wmFrame s.watch.hears f
    | none => s.updWatch (fun x => { x with rx := rx }))

/-- LOCKOUT_END (R532). -/
def execLockoutEnd (s : State) : Host.Outcome State Fault Refusal :=
  .next (match s.watch.locked with
    | some t => if t.toNat ≤ s.now then s.updWatch (fun x => { x with locked := none }) else s
    | none => s)

/-- BYTE_GAP_TIMEOUT (R531): a frame in reception is discarded. -/
def execByteGapTimeout (s : State) : Host.Outcome State Fault Refusal := .next (s.updWatch (fun x => { x with rx := [], station := none }))


/-- The command of an accepted request and its SEQ. -/
def State.wmReq (s : State) : Option (WmCmd × W32) := s.watch.req

/-- The accepted request is answered and done. -/
def State.wmDone (s : State) (c : WmCmd) (seq : W32) (status : Nat) (data : List Byte := []) : State :=
  (s.updWatch (fun x => { x with req := none })).answer c.typ seq status data (c.typ != 0x00 && c.typ != 0x10)

/-- The accepted request waits for its commit (R534). -/
def State.wmHold (s : State) (c : WmCmd) (seq : W32) : State :=
  s.updWatch (fun x => { x with req := none, wait := some (c, seq) })

/-- GET_SEQ (R533). -/
def execGetSeq (s : State) : Host.Outcome State Fault Refusal :=
  .next (match s.wmReq with
    | some (.getSeq, seq) =>
      s.wmDone .getSeq seq wmOk (leBytes 4 s.watch.seq.toNat ++ leBytes 8 Config.serial.toNat)
    | _ => s)

/-- PSTATE of PWR_STAT (R439): STANDBY while the port is unpowered with its standby feed on. -/
def State.pstate (s : State) (p : Nat) : Nat :=
  match (s.fuse p).st with
  | .relayOpen => 6
  | .ramping => 2
  | .on => 3
  | .wait => 4
  | .latched => 5
  | _ =>
    match (s.port p).shown with
    | .detached | .debounce | .invalid => if s.domOn 12 then 1 else 0
    | _ => 0

/-- An item of the last snapshot, 0x8000_0000 where it was not measured (R336). -/
def State.snapItem (s : State) (i : Nat) : W32 := s.snapshot.get 0x80000000 i

/-- TICK_STATUS (R60). -/
def State.tickStatus (s : State) : Nat :=
  (if s.tick.degraded then 128 else 0) + (if s.tick.tcxoFail then 64 else 0) + (if s.tick.pllFail then 32 else 0) +
    (match s.tick.pps with
     | .absent => 0 | .acquiring => 4 | .locked => 8 | .holdover => 12)

/-- The codes of the supply states (R445). -/
def SupSt.code : SupSt → Nat
  | .start => 0 | .normal => 1 | .holdup => 2 | .lastGasp => 3 | .powerDown => 4

/-- The 12 bytes of a port in the digest (R537). -/
def State.digestPort (s : State) (p : Nat) : List Byte :=
  let x := s.port p
  let f := s.fuse p
  let y := s.probe p
  leBytes 1 (x.shown.code + x.shownSpeed.code * 16) ++ leBytes 1 (s.pstate p * 16 + f.cause.code) ++
    leBytes 2 f.iout.toNat ++ leBytes 2 f.sensor.toNat ++ leBytes 1 (min 255 (y.recent s.now).length) ++
    leBytes 1 (tdrKind y.tdr * 16) ++ leBytes 2 (tdrDist y.tdr) ++ leBytes 2 (min 0xFFFF (y.ir.toNat / 10))

/-- The station digest, 256 bytes (R537). -/
def State.digest (s : State) : List Byte :=
  leBytes 8 Config.serial.toNat ++ leBytes 6 s.now ++ leBytes 2 s.boot.toNat ++ leBytes 4 s.e.toNat ++
    leBytes 4 s.tick.abandons.toNat ++ leBytes 4 s.tick.journalEpoch.toNat ++ leBytes 1 s.supply.st.code ++
    leBytes 1 s.supply.energy.toNat ++ leBytes 2 s.supply.bulk.toNat ++ leBytes 2 s.supply.input.toNat ++
    leBytes 2 s.supply.load.toNat ++ leBytes 2 (s.snapItem 3).toNat ++ leBytes 2 (s.snapItem 7).toNat ++
    leBytes 2 (s.snapItem 6).toNat ++ leBytes 1 s.tickStatus ++
    leBytes 1 (s.comWarden + (if s.watch.commissioned then 128 else 0)) ++
    (List.range 12).map (fun d => BitVec.ofNat 8 (s.dom (d + 1)).shown.code) ++
    leBytes 1 s.tick.lastFirst.toNat ++ leBytes 1 s.tick.lastNdet.toNat ++ leBytes 1 s.tick.lastConsec.toNat ++ [0] ++
    leBytes 4 s.tick.lastTick.toNat ++ ((List.range 16).map s.digestPort).flatten

/-- READ_DIGEST (R534, R537). -/
def execReadDigest (s : State) : Host.Outcome State Fault Refusal :=
  .next (match s.wmReq with
    | some (.readDigest, seq) => s.wmDone .readDigest seq wmOk s.digest
    | _ => s)

/-- The words A0 and A1 of a record of the AON log (R454). -/
def AonRec.words (r : AonRec) : W64 × W64 :=
  (BitVec.ofNat 64 (r.boot.toNat * 2 ^ 48 + r.tick.toNat),
   BitVec.ofNat 64 (r.code.toNat * 2 ^ 56 + r.unit.toNat * 2 ^ 48 + r.value.toNat))

/-- A record of the AON log as 16 bytes; an unwritten one reads zero. -/
def State.aonBytes (s : State) (i : Nat) : List Byte :=
  match s.aonLog.find (i % 4096) with
  | some r => leBytes 8 r.words.1.toNat ++ leBytes 8 r.words.2.toNat
  | none => List.replicate 16 0

/-- READ_LOG (R533). -/
def execReadLog (s : State) : Host.Outcome State Fault Refusal :=
  .next (match s.wmReq with
    | some (.readLog first count, seq) =>
      s.wmDone (.readLog first count) seq wmOk
        ((List.range count.toNat).map (fun i => s.aonBytes (first.toNat + i))).flatten
    | _ => s)

/-- POWER_CYCLE_PORT is refused for a port that is DISABLED, CONTAINED or has cause PASS_FAIL (R534). -/
def State.cycleRefused (s : State) (p : Nat) : Bool :=
  decide ((s.port p).st = .disabled ∨ (s.port p).st = .contained ∨ (s.fuse p).cause = .passFail)

/-- POWER_CYCLE_PORT (R534): held for its first commit. -/
def execPowerCyclePort (s : State) : Host.Outcome State Fault Refusal :=
  .next (match s.wmReq with
    | some (.powerCycle p secs, seq) =>
      if s.cycleRefused p.toNat then s.wmDone (.powerCycle p secs) seq wmRefused
      else s.wmHold (.powerCycle p secs) seq
    | _ => s)

/-- POWER_CYCLE_RESTORE (R534): the off time is over: PORT_REARM and PORT_ON 1 at the next commit. -/
def execPowerCycleRestore (p : Port) (s : State) : Host.Outcome State Fault Refusal :=
  let due := s.watch.cycles.any (fun c => c.1 == p.toNat && decide (c.2.toNat ≤ s.now))
  .next (if due then
      s.updWatch (fun x => { x with
        cycles := x.cycles.filter (fun c => c.1 != p.toNat), restore := x.restore ++ [p.toNat] })
    else s)

/-- RESET_DOMAIN (R534): refused for PD7, PD9 and a domain that R449 holds. -/
def execResetDomain (s : State) : Host.Outcome State Fault Refusal :=
  .next (match s.wmReq with
    | some (.resetDomain d, seq) =>
      if d.toNat = 7 ∨ d.toNat = 9 ∨ s.domHeld d.toNat = true then s.wmDone (.resetDomain d) seq wmRefused
      else s.wmHold (.resetDomain d) seq
    | _ => s)

/-- The move of S0 to a link is refused: the slice at its window 0 would carry a PASID that is held on the old link (R364). -/
def State.moveRefused (s : State) (l : Nat) : Bool :=
  match s.windowSlice l 0 with
  | some k =>
    k != 0 && (s.boundTo s.comWarden).any (fun j => j != 0 && (s.comSlice j).pasid == (s.comSlice k).pasid)
  | none => false

/-- S0 moves to window 0 of a link, and the slice there to window 0 of the old one (R364). -/
def State.moveWarden (s : State) (l : Nat) : State :=
  let old := s.comWarden
  if old = l then s
  else
    let s := match s.windowSlice l 0 with
      | some k => if k = 0 then s else s.updSlice k (fun x => { x with link := BitVec.ofNat 2 old, window := 0 })
      | none => s
    let s := s.updSlice 0 (fun x => { x with link := BitVec.ofNat 2 l, window := 0 })
    s.updWarden (fun _ => BitVec.ofNat 2 l)

/-- WARDEN_LINK (R364, R534): the link in force is answered OK at once. -/
def execWardenLink (s : State) : Host.Outcome State Fault Refusal :=
  .next (match s.wmReq with
    | some (.wardenLink l, seq) =>
      if l.toNat = s.comWarden then s.wmDone (.wardenLink l) seq wmOk
      else if s.moveRefused l.toNat then s.wmDone (.wardenLink l) seq wmRefused
      else s.wmHold (.wardenLink l) seq
    | _ => s)

/-- COMMISSION (R536): of a module without a warden key, before tick 14,400,000. -/
def execCommission (s : State) : Host.Outcome State Fault Refusal :=
  .next (match s.wmReq with
    | some (.commission key l, seq) =>
      if s.watch.commissioned = true ∨ 14400000 ≤ s.now ∨ (l.toNat ≠ s.comWarden ∧ s.moveRefused l.toNat = true) then
        s.wmDone (.commission key l) seq wmRefused
      else (s.wmAccept (.commission key l) 0).wmHold (.commission key l) seq
    | _ => s)

/-- A key wrapped under the warden key (R374, R388, R533); none where its integrity check fails, or the module holds no warden key. -/
def WatchS.unwrap (x : WatchS) (bs : List Byte) : Option (List Byte) := if x.commissioned then keyUnwrap x.key bs else none

/-- REKEY (R536): an unwrap failure is FORMAT. -/
def execRekey (s : State) : Host.Outcome State Fault Refusal :=
  .next (match s.wmReq with
    | some (.rekey ws, seq) =>
      if (s.watch.unwrap ws).isSome then s.wmHold (.rekey ws) seq else s.wmDone (.rekey ws) seq wmFormat
    | _ => s)

/-! ## At a commit (R534 to R536) -/

/-- The watchman's waiting command sets domain `d`, so that a host's write of PD_CTL is dropped (R535). -/
def State.wmTakesDom (s : State) (d : Nat) : Bool :=
  match s.watch.wait with
  | some (.resetDomain e, _) => e.toNat == d
  | _ => false

/-- The watchman's waiting command or a restore sets port `p` (R535). -/
def State.wmTakesPort (s : State) (p : Nat) : Bool :=
  s.watch.restore.contains p ||
  (match s.watch.wait with
   | some (.powerCycle q _, _) => q.toNat == p
   | _ => false)

/-- The waiting command at its commit, and its answer. -/
def State.commitWatch (s : State) : State :=
  let s := s.forAll (fun t p => t.updPSet p (fun x => { x with rearm := true, on := true, onSet := true })) s.watch.restore
  let s := s.updWatch (fun x => { x with restore := [] })
  match s.watch.wait with
  | none => s
  | some (c, seq) =>
    let s := s.updWatch (fun x => { x with wait := none })
    let ok (t : State) : State := t.answer c.typ seq wmOk [] true
    match c with
    | .powerCycle p secs =>
      ok ((s.updPSet p.toNat (fun x => { x with on := false, offCause := .offCmd, onSet := true })).updWatch (fun x => { x with
        cycles := x.cycles.filter (fun y => y.1 != p.toNat) ++ [(p.toNat, BitVec.ofNat 48 (s.now + secs.toNat * 8000))] }))
    | .resetDomain d =>
      ok (s.updDom d.toNat (fun x =>
        if x.st = .quarantined then { x with clearQ := true } else { x with reset := true }))
    | .wardenLink l =>
      if s.moveRefused l.toNat then s.answer c.typ seq wmRefused [] true
      else
        let old := s.comWarden
        ok (((s.moveWarden l.toNat).logAon 0x2B l.toNat (BitVec.ofNat 32 old)).wmEvent 5)
    | .commission key l =>
      ok ((((s.moveWarden l.toNat).updWatch (fun x => { x with commissioned := true, key := key })).logAon 0x2A l.toNat 1).wmEvent 4)
    | .rekey ws =>
      ok (((s.updWatch (fun x => { x with key := (x.unwrap ws).getD x.key })).logAon 0x2A s.comWarden 2).wmEvent 4)
    | _ => s

end Sys2Proof.Machine
end

