-- ==== Sys2Proof/Machine/Slices.lean ====
section
/-! DEFINITION. The slice commands of S0 (11), host links going down and coming up, and the gleaner and scrub. -/
namespace Sys2Proof.Machine

open Sys2Proof

/-- An effect for the commit to carry out. -/
def State.act (s : State) (a : SliceAct) : State := s.updSliceActs (fun l => l ++ [a])

/-- A slice command of S0 that names a slice in Q1 [63:58] (R388). -/
def State.sliceCommand (s : State) (sl op : Nat) (f : Nat → Entry → State → State) : State :=
  s.admin sl op true (fun e s => f (fld e.q1 63 58) e s)

/-- Completes with a status, REJECTED with the report of R359. -/
def State.sliceDone (s : State) (sl : Nat) (e : Entry) (st : Nat) : State :=
  s.adminDone sl e st (if st = stRejected then reportC2 8 0xFF 0xFFFF else 0) 0

/-- DEFINE_SLICE (R359, R360); NO_RESOURCE while the entropy source's health tests fail (R376; log entry 24). -/
def execDefineSlice (sl : Slice) (record : List W64) (entropy : Bool) (s : State) : Host.Outcome State Fault Refusal :=
  .next (s.sliceCommand sl.toNat 0x80 (fun k e s =>
    let st := if e.q2.toNat % 8 = 0 then s.recStatus k false record else stMalformed
    let st := if st = stSuccess && !entropy then stNoResource else st
    let s := s.sendRead sl.toNat e.q2 128
    (if st = stSuccess then s.act (.define (BitVec.ofNat 6 k) (SlRec.ofWords record)) else s).sliceDone sl.toNat e st))

/-- RESIZE_SLICE (R359, R366). -/
def execResizeSlice (sl : Slice) (record : List W64) (s : State) : Host.Outcome State Fault Refusal :=
  .next (s.sliceCommand sl.toNat 0x81 (fun k e s =>
    let st := if e.q2.toNat % 8 = 0 then s.recStatus k true record else stMalformed
    let s := s.sendRead sl.toNat e.q2 128
    (if st = stSuccess then s.act (.resize (BitVec.ofNat 6 k) (SlRec.ofWords record)) else s).sliceDone sl.toNat e st))

/-- The completion of BIND_SLICE (R361, R382). -/
def State.bindStatus (s : State) (k l w p : Nat) : Nat :=
  let x := s.slice k
  let here := (s.slices.map (·.1)).filter (fun j => j != k && (s.slice j).bound && (s.slice j).link.toNat == l)
  if k = 0 ∨ x.st = .free ∨ x.st = .running then stNotPermitted
  else if s.saving k then stRejected
  else if w = 0 ∧ l = s.wardenNow.toNat then stRejected
  else if here.any (fun j => (s.slice j).window.toNat == w) then stRejected
  else if p = 0 ∨ here.any (fun j => (s.slice j).pasid.toNat == p) then stRejected
  else if !(s.link l).pasidEn && !here.isEmpty then stRejected
  else stSuccess

/-- BIND_SLICE (R361, R363). -/
def execBindSlice (sl : Slice) (s : State) : Host.Outcome State Fault Refusal :=
  .next (s.sliceCommand sl.toNat 0x82 (fun k e s =>
    let l := fld e.q1 57 56
    let w := fld e.q1 55 52
    let p := fld e.q1 51 32
    let st := s.bindStatus k l w p
    (if st = stSuccess then
      s.act (.bind (BitVec.ofNat 6 k) (BitVec.ofNat 2 l) (BitVec.ofNat 4 w) (BitVec.ofNat 20 p) (fbit e.q1 31))
    else s).sliceDone sl.toNat e st))

/-- UNBIND_SLICE (R363, R382). -/
def execUnbindSlice (sl : Slice) (s : State) : Host.Outcome State Fault Refusal :=
  .next (s.sliceCommand sl.toNat 0x83 (fun k e s =>
    let x := s.slice k
    let st := if k = 0 ∨ x.st = .free ∨ x.st = .running then stNotPermitted else if s.saving k then stRejected else stSuccess
    (if st = stSuccess ∧ x.bound = true then s.act (.unbind (BitVec.ofNat 6 k)) else s).sliceDone sl.toNat e st))

/-- FREEZE_SLICE (R380): of a frozen slice it succeeds without effect. DEDUCED: of a slice without work it is not permitted
(log entry 22). -/
def execFreezeSlice (sl : Slice) (s : State) : Host.Outcome State Fault Refusal :=
  .next (s.sliceCommand sl.toNat 0x84 (fun k e s =>
    let x := s.slice k
    let st := if k = 0 ∨ x.st = .free ∨ x.st = .defined then stNotPermitted else stSuccess
    (if st = stSuccess ∧ x.st = .running then s.act (.freeze (BitVec.ofNat 6 k)) else s).sliceDone sl.toNat e st))

/-- THAW_SLICE (R381, R382): of a bound frozen slice (log entry 22). -/
def execThawSlice (sl : Slice) (s : State) : Host.Outcome State Fault Refusal :=
  .next (s.sliceCommand sl.toNat 0x85 (fun k e s =>
    let x := s.slice k
    let st := if k = 0 ∨ x.bound = false ∨ x.st ≠ .frozen then stNotPermitted else if s.saving k then stRejected else stSuccess
    (if st = stSuccess then s.act (.thaw (BitVec.ofNat 6 k)) else s).sliceDone sl.toNat e st))

/-- RELEASE_SLICE (R378, R379). -/
def execReleaseSlice (sl : Slice) (s : State) : Host.Outcome State Fault Refusal :=
  .next (s.sliceCommand sl.toNat 0x86 (fun k e s =>
    let st := if k = 0 ∨ (s.slice k).st = .free then stNotPermitted else if s.saving k then stRejected else stSuccess
    (if st = stSuccess then s.act (.release (BitVec.ofNat 6 k)) else s).sliceDone sl.toNat e st))

/-- SET_ATTACH (R164, R388). -/
def execSetAttach (sl : Slice) (s : State) : Host.Outcome State Fault Refusal :=
  .next (s.admin sl.toNat 0x87 true (fun e s =>
    let p := fld e.q1 63 59
    let d := fld e.q1 58 56
    let k := fld e.q1 28 23
    if 16 < p ∨ 5 < d then s.adminDone sl.toNat e stMalformed
    else
      let v := if fbit e.q1 30 then none else some (BitVec.ofNat 6 k, fbit e.q1 29)
      (s.act (.attach (BitVec.ofNat 5 p) (hopsOf d (fld e.q1 55 31)) v)).adminDone sl.toNat e stSuccess))

/-- SET_IMAGE_KEK (R374, R388): the 48 bytes read, KEK_ID and the wrapped KEK of a slice other than S0. -/
def execSetImageKek (sl : Slice) (data : List Byte) (s : State) : Host.Outcome State Fault Refusal :=
  .next (s.sliceCommand sl.toNat 0x88 (fun k e s =>
    if k = 0 then s.adminDone sl.toNat e stNotPermitted
    else
      let s := s.sendRead sl.toNat e.q2 48
      match s.watch.unwrap ((data.drop 8).take 40) with
      | some key => (s.act (.kek (BitVec.ofNat 6 k) (BitVec.ofNat 64 (leAt data 0 8)) key)).adminDone sl.toNat e stSuccess
      | none => s.adminDone sl.toNat e stMalformed))

/-- The code of a slice state (R356). -/
def SlState.code : SlState → Nat
  | .free => 0 | .defined => 1 | .running => 2 | .frozen => 3

/-- SLC_TABLE of a slice (R390). -/
def SliceS.table (x : SliceS) : W32 :=
  BitVec.ofNat 32 (x.st.code * 2 ^ 29 + (if x.linkDown then 2 ^ 28 else 0) + x.link.toNat * 2 ^ 26 + x.window.toNat * 2 ^ 22 +
    (if x.bound then 2 ^ 21 else 0) + (if x.autoThaw then 2 ^ 20 else 0) + x.pasid.toNat)

/-- READ_SLICE (R388): the committed record and the SLC_TABLE word. -/
def execReadSlice (sl : Slice) (s : State) : Host.Outcome State Fault Refusal :=
  .next (s.sliceCommand sl.toNat 0x8C (fun k e s =>
    let x := s.comSlice k
    (s.adminWords sl.toNat e.q2 (x.res.words ++ [x.table.setWidth 64])).adminDone sl.toNat e stSuccess))

/-! ## Host links (R365, R555) -/

/-- LINK_DOWN (R365, R555): the slices bound to the link are frozen at the commit; a fundamental reset of the link clears PASID Enable. -/
def execLinkDown (l : Link) (reset : Bool) (s : State) : Host.Outcome State Fault Refusal :=
  .next (s.updLink l.toNat (fun x => { x with
    up := false, downNow := x.downNow || x.up, pasidEn := x.pasidEn && !reset }))

/-- LINK_UP (R297, R365): the link is trained at a rate and width. -/
def execLinkUp (l : Link) (gts width : Nat) (s : State) : Host.Outcome State Fault Refusal :=
  .next (s.updLink l.toNat (fun x => { x with up := true, gts := gts, width := width }))

/-- Until the journal's restore of a cold start completes, every function answers configuration requests with Configuration Request Retry
Status (R464). -/
def State.configReady (s : State) : Bool :=
  !s.supply.restoring && s.supply.release.isNone && decide (s.supply.st ≠ .start)

/-- PASID_ENABLE (R464, R555): the host changes PASID Enable; holds follow at the commit (log entry 69). -/
def execPasidEnable (l : Link) (on : Bool) (s : State) : Host.Outcome State Fault Refusal :=
  .next (if s.configReady then s.updLink l.toNat (fun x => { x with pasidEn := on }) else s)

/-! ## The gleaner and the scrub (R371, R373) -/

/-- A page is in FILL for slice `k`, as committed. -/
def State.inFill (s : State) (k p : Nat) : Bool := (s.comPage p).st == .fill && (s.comPage p).sl.toNat == k

/-- Pages of a slice in FILL (R389): for S0 the pages never listed are in FILL too. -/
def State.fillCount (s : State) (k : Nat) : Nat :=
  let listed := ((s.pot.map (·.1)).filter (s.inFill k)).length
  if k = 0 then listed + (64512 - ((s.pot.map (·.1)).filter (fun p => decide (p < 5184 ∨ 6208 ≤ p))).length) else listed

/-- The page that the gleaner fills next (R373): for slices other than S0 device-table pages first, then the rest, then the pages
of S0. -/
def State.nextFill (s : State) : Option Nat :=
  let other := (s.pot.map (·.1)).filter (fun p => (s.comPage p).st == .fill && (s.comPage p).sl != 0)
  match other.find? (fun p => 5120 ≤ p && p < 5184) with
  | some p => some p
  | none =>
    match other.head? with
    | some p => some p
    | none => (pagesFrom (s.inFill 0) 65536 0 1).head?

/-- The bytes of a page (R369). -/
def pageBytes : Nat := 65536

/-- The contexts or the device-table entries of a page that was filled are FREE (R371): at once, in both versions. -/
def State.clearPage (s : State) (p : Nat) : State :=
  if p < 5120 then { s with ctxs := s.ctxs.filter (fun e => e.1 / 1024 != p) }
  else if p < 5184 then
    { s with
      devs := s.devs.filter (fun e => 5120 + e.1 / 8192 != p), devX := s.devX.filter (fun e => 5120 + e.1 / 8192 != p)
      bridges := s.bridges.filter (fun b => match b.2.cur.dev with
        | some d => 5120 + d.toNat / 8192 != p
        | none => true) }
  else s

/-- PAGE_FILL (R371, R373): every line of the next page is written, and it is OWNED, once the bytes that the gleaner may write have come to a
page; FILLED when it was the slice's last (log entry 120). -/
def execPageFill (pg : W16) (s : State) : Host.Outcome State Fault Refusal :=
  let p := pg.toNat
  .next (if s.nextFill = some p ∧ s.domOn 9 = true ∧ pageBytes ≤ s.fillRoom then
      let k := (s.comPage p).sl.toNat
      let v := (s.pot.get (.of (pageDefault p)) p).both (fun x => { x with st := .owned })
      let s : State := { s.clearPage p with pot := s.pot.set p v, fillRoom := s.fillRoom - pageBytes }
      if (s.sliceXAt k).filling = true ∧ s.fillCount k = 0 then
        (s.sliceEvent k 4).updSliceX k (fun x => { x with filling := false })
      else s
    else s)

/-- Lines of DRAM: 65,536 pages of 1,024 lines of 64 bytes (R369, R375). -/
def dramLines : Nat := 67108864

/-- The gleaner and the scrub at cycle 0 (R23, R373): 18,750 bytes of the tick go to the scrub, with what is left of a line, and 56,250 to
the pages in FILL, with what is done of the page in hand (log entry 120). -/
def State.gleanAt0 (s : State) : State :=
  if s.domOn 9 then
    { s with
      scrubRoom := s.scrubRoom % 64 + 18750
      fillRoom := if s.nextFill.isSome then min (s.fillRoom + 56250) (pageBytes + 56249) else 0 }
  else s

/-- ECC_SCRUB (R373, R375, R390): as many lines as the tick's bytes allow, read and written back as ciphertext, and the errors corrected in
them. -/
def execEccScrub (lines corrected : W16) (s : State) : Host.Outcome State Fault Refusal :=
  .next (if s.domOn 9 then
      let m := min (s.scrubRoom / 64) lines.toNat
      let n := s.scrubPos + m
      { s with
        scrubRoom := s.scrubRoom - 64 * m
        scrubPos := n % dramLines, scrubPasses := if dramLines ≤ n then satInc s.scrubPasses else s.scrubPasses
        eccCorrected := satAdd s.eccCorrected corrected.toNat }
    else s)

/-- CHANNEL_RELEASE (R368): a withdrawn channel that is STOPPED with nothing owed returns to S0. -/
def execChannelRelease (c : Chan) (s : State) : Host.Outcome State Fault Refusal :=
  .next (match (s.chan c.toNat).leaving with
    | some sl =>
      if s.chanLeaves c.toNat && s.working then
        ((s.updChan c.toNat (fun _ => {})).updSlice sl.toNat (fun x => { x with
          res := { x.res with chan := clrBit x.res.chan c.toNat } })).sliceEvent sl.toNat 0
      else s
    | none => s)

end Sys2Proof.Machine
end

