-- ==== Sys2Proof/Machine/OwnOps.lean ====
section
/-! DEFINITION. Control transfers of the module's own (04 R130 to R134; 07 R234, R236, R237): requests, the stages that carry them, what they
cost and what a reply makes of them. -/
namespace Sys2Proof.Machine

open Sys2Proof

/-! ## Requests (R131, R132) -/

/-- A request: CODE, TARGET, FLAGS, ARG and LENGTH (R131). -/
structure Req where
  code : Nat
  target : Nat := 0
  flags : Nat := 0
  arg : Nat := 0
  len : Nat := 0

/-- The eight bytes of a request (R131). -/
def Req.bytes (r : Req) : List Byte :=
  [BitVec.ofNat 8 r.code, BitVec.ofNat 8 r.target, BitVec.ofNat 8 r.flags] ++ beBytes 3 r.arg ++ beBytes 2 r.len

/-- A hub request to a hub port (R132). -/
def hubReq (code port arg len : Nat) : Req :=
  { code := code, target := 0x80 + port, flags := if len = 0 then 0x20 else 0xA0, arg := arg, len := len }

/-! ## Stages (R130) -/

/-- The LENGTH of a transfer's request (R131). -/
def OwnX.len (x : OwnX) : Nat := beNat ((x.req.drop 6).take 2)

/-- What carries the next stage; every request of the module's with data reads them (R130, R132). A data stage takes one packet in a
transaction (log entry 86). -/
def OwnX.form (x : OwnX) : Attempt :=
  match x.stage with
  | .setup => .setupStage
  | .data => .inSheaf 1
  | .status => if x.len = 0 then .statusIn else .statusOut

/-- W of the next stage with RTY 0 (R224, R234, R236): `fig` is the figure at which a packet of the data stage is charged. -/
def OwnX.cost (sp : Speed) (fig : Nat) (x : OwnX) : Nat :=
  wireClocks 0 (match x.stage with
    | .setup => outA sp 1 8
    | .data => inA sp 1 (min fig (x.len - x.got.length))
    | .status => if x.len = 0 then inA sp 1 0 else outA sp 1 0)

/-- What a stage came to. -/
inductive OwnOut where
  /-- It ended, and this stage follows. -/
  | next (x : OwnX)
  /-- NAK, or a packet was missing: the stage is carried again in a later tick (log entry 86). -/
  | again (x : OwnX)
  /-- The transfer completed, with the data read. -/
  | done (data : List Byte)
  /-- It ended with STALL, NO_REPLY or DAMAGED, or with another failure (log entry 86). -/
  | failed
deriving DecidableEq, Repr

/-- The number after the last intact packet of a sheaf that an attempt from number `f` asked for (R122). -/
def nextAfter (f : BitVec 4) (ps : List Pkt) : BitVec 4 := f + BitVec.ofNat 4 (intact 1 f ps).length

/-- A packet of the data stage arrives (R122, R124, R236): one shorter than `short` bytes, or all that was asked for, ends the stage. -/
def OwnX.takeData (short : Nat) (x : OwnX) (ps : List Pkt) (damaged excess : Bool) : OwnOut :=
  let ok := intact 1 x.seq ps
  let y := { x with seq := nextAfter x.seq ps, got := x.got ++ pktBytes ok }
  let out := inOutcome 1 ps ok damaged excess
  if out = oDamaged then .failed
  else if out ≠ oDone then .again y
  else if (pktBytes ok).length < short ∨ x.len ≤ y.got.length then .next { y with stage := .status }
  else .next y

/-- What the reply to a stage makes of the transfer (R125, R130, R556). -/
def OwnX.react (short : Nat) (x : OwnX) (r : Reply) : OwnOut :=
  match r, x.form with
  | .nak, _ => .again x
  | .ack _, .setupStage => .next { x with stage := if x.len = 0 then .status else .data }
  | .ack n, .statusOut =>
    match ackedPackets x.seq n 1 1 with
    | some (_, true) => .done x.got
    | some (_, false) => .again x
    | none => .failed
  | .sheaf ps dmg excess, .inSheaf _ => x.takeData short ps dmg excess
  | .sheaf ps dmg excess, .statusIn =>
    let out := inOutcome 1 ps (intact 1 x.seq ps) dmg excess
    if out = oDone then .done x.got else if out = oDamaged then .failed else .again x
  | _, _ => .failed

end Sys2Proof.Machine
end

