-- ==== Sys2Proof/Machine/EnumOps.lean ====
section
/-! DEFINITION. Enumeration (05): record checks, identifiers and contexts of a new device, and the steps of R171. -/
namespace Sys2Proof.Machine

open Sys2Proof

/-! ## Records (R168, R169, R172) -/

/-- A field of a record, most significant byte first. -/
def beAt (bs : List Byte) (i n : Nat) : Nat := leNat ((bs.drop i).take n).reverse

/-- ROLE, NEP, MPS0 in bytes, PORTS and TABLE_LEN of an identity record (R168). -/
def idRole (b : List Byte) : Nat := beAt b 4 1 / 64
def idNep (b : List Byte) : Nat := beAt b 6 1
def idMps0 (b : List Byte) : Nat := beAt b 7 1 * 8
def idPorts (b : List Byte) : Nat := beAt b 8 1
def idTable (b : List Byte) : Nat := beAt b 10 2
/-- CAPS [0] and [1] (R168). -/
def idWake (b : List Byte) : Bool := beAt b 5 1 % 2 == 1

/-- The identity record passes (R172, R236). -/
def identOk (sp : Speed) (b : List Byte) : Bool :=
  b.length == 16 && idRole b != 3 && decide (1 ≤ idNep b ∧ idNep b ≤ 16) &&
  decide (8 ≤ idMps0 b ∧ idMps0 b ≤ payloadLimit sp) && (sp != .field || idMps0 b == 8) &&
  idTable b == 4 * (idNep b - 1) && (if idRole b = 0 then idPorts b == 0 else decide (1 ≤ idPorts b ∧ idPorts b ≤ 32))

/-- Entry `k` of an endpoint table, of endpoint k + 1 (R169): its MPS, and whether it passes (R172). -/
def tableMps (b : List Byte) (k : Nat) : Nat := beAt b (4 * k + 2) 2
def tableEntryOk (sp : Speed) (b : List Byte) (k : Nat) : Bool :=
  let e := beAt b (4 * k) 1
  e % 16 == k + 1 && decide (1 ≤ tableMps b k ∧ tableMps b k ≤ payloadLimit sp) &&
  (if e / 64 % 2 = 1 then beAt b (4 * k + 1) 1 == 0 else beAt b (4 * k + 1) 1 != 0)

/-- The endpoint table passes (R172). -/
def tableOk (sp : Speed) (len : Nat) (b : List Byte) : Bool :=
  b.length == len && (List.range (len / 4)).all (tableEntryOk sp b)

/-! ## Identifiers and contexts (R165, R166) -/

/-- The first number from `k` on that passes. -/
def firstFrom (f : Nat → Bool) : Nat → Nat → Option Nat
  | 0, _ => none
  | n + 1, k => if f k then some k else firstFrom f n (k + 1)

/-- An identifier may be given: FREE, or in QUARANTINE for 8,000 ticks (R165, R167), and its page is not in FILL (R371). -/
def State.idFree (s : State) (d : Nat) : Bool :=
  let x := s.dev d
  (s.comPage (5120 + d / 8192)).st == .owned && match x.st with
  | .free => true
  | .quarantine => decide (8000 ≤ (s.tick.n.setWidth 23 - x.base).toNat)
  | _ => false

/-- The identifier of a newly attached device of slice `sl` (R165): that of the address plan, or the lowest free one. An error is
the ENUM code to raise. -/
def State.chooseId (s : State) (sl p : Nat) (hops : List (BitVec 5)) : Except Nat Nat :=
  match s.planAt (planKey sl (routeKey p hops)) with
  | some d =>
    if s.idFree d.toNat && s.idBlockOwner (d.toNat / 8192) == sl then .ok d.toNat else .error 5
  | none =>
    match firstSome (fun k => if s.idBlockOwner k = sl then firstFrom s.idFree 8192 (8192 * k) else none) (List.range 64) with
    | some d => .ok d
    | none => .error 4

/-- `n` contexts from `i` are FREE. -/
def State.runFree (s : State) (i n : Nat) : Bool := (List.range n).all (fun k => decide ((s.ctx (i + k)).st = .free))

/-- The lowest place for `n` contexts in the barn blocks of a slice (R166), past the pages in FILL (R371). -/
def State.chooseBase (s : State) (sl n : Nat) : Option Nat :=
  let block (b : Nat) : Option Nat :=
    if s.barnOwner b = sl ∧ (s.comPage b).st = .owned then firstFrom (fun i => s.runFree i n) (1025 - n) (1024 * b) else none
  firstFrom (fun b => (block b).isSome) 5120 0 |>.bind block

/-- The route passes a port that a bridge marks DEFERRED (R144, R146). -/
def State.deferredRoute (s : State) (p : Nat) (hops : List (BitVec 5)) : Bool :=
  (List.range hops.length).any (fun k => match s.devAt p (hops.take k), hops[k]? with
    | some d, some h => (s.dev d).bridge && ((s.tree p).words.get 0 (hubWordKey d h.toNat)).getLsbD 23
    | _, _ => false)

/-- The speed of a root port's tree: Cabinet for P16 (R478). -/
def State.treeSpeed (s : State) (p : Nat) : Speed := if p = 16 then .cabinet else (s.port p).speed

/-- A context of a device in enumeration (R162, R171). -/
def State.newCtx (s : State) (sl d ep p : Nat) (hops : List (BitVec 5)) : Ctx :=
  { handle := BitVec.ofNat 23 (handleOf d ep), depth := BitVec.ofNat 3 hops.length, hops := BitVec.ofNat 25 (hopsNat hops)
    port := BitVec.ofNat 5 p, speed := BitVec.ofNat 2 (s.treeSpeed p).code, slice := BitVec.ofNat 6 sl, st := .configuring
    deferred := s.deferredRoute p hops }

/-- Allocates identifier and contexts (R165, R166, R171). -/
def State.allocate (s : State) (sl p : Nat) (hops : List (BitVec 5)) (ident : List Byte) : Except Nat (Nat × State) :=
  let n := idNep ident
  match s.chooseId sl p hops with
  | .error e => .error e
  | .ok d =>
    match s.chooseBase sl n with
    | none => .error 4
    | some b =>
      let s := s.updDev d (fun _ => {
        base := BitVec.ofNat 23 b, nep := BitVec.ofNat 4 (n - 1), slice := BitVec.ofNat 6 sl, st := .configuring
        hub := idRole ident != 0, bridge := idRole ident == 2, tier := BitVec.ofNat 3 (hops.length + 2)
        ports := BitVec.ofNat 5 (idPorts ident - 1) })
      let s := s.updDevX d (fun _ => {})
      let s := s.forAll (fun t k => t.updCtx (b + k) (fun _ => t.newCtx sl d k p hops)) (List.range n)
      .ok (d, s.updCtx b (fun c => { c with mps := BitVec.ofNat 11 (idMps0 ident) }))

/-! ## The sequencer (R170 to R173, R188) -/

/-- R170's order: tier, then the HOPS field. -/
def routeRank (r : Route) : Nat := r.hops.length * 2 ^ 25 + hopsNat r.hops

/-- The first waiting route. -/
def nextRoute : List Route → Option Route
  | [] => none
  | r :: t => match nextRoute t with
    | some q => if routeRank q < routeRank r then some q else some r
    | none => some r

/-- STEP of ENUM_STAT (R171, R188). -/
def EStep.code : EStep → Nat
  | .idle => 0 | .ident => 1 | .assign => 2 | .table => 3 | .configure => 4 | .tier => 5 | .portSet _ => 5 | .wake => 6

/-- RESULT of ENUM_STAT (R188). -/
def EResult.code : EResult → Nat
  | .none => 0 | .attach => 1 | .fail => 2 | .noSpace => 3 | .conflict => 4

/-- Takes the next waiting device when the sequencer of a tree is idle (R170). -/
def State.enumNext (s : State) (p : Nat) : State :=
  let x := s.enum p
  if x.step = .idle then
    match nextRoute x.waiting with
    | some r => s.updEnum p (fun x => { x with
        step := .ident, route := r, attempts := 0, tag := 0, ident := [], table := [], x := none
        dev := (s.devAt p r.hops).map (BitVec.ofNat 19), waiting := x.waiting.filter (· != r) })
    | none => s
  else s

/-- A device waits for enumeration, or its enumeration begins anew (R171, R173). -/
def State.enumAdd (s : State) (p : Nat) (hops : List (BitVec 5)) : State :=
  let r : Route := { port := BitVec.ofNat 5 p, hops := hops }
  let s := s.dropEnum p hops
  s.updEnum p (fun x => { x with waiting := x.waiting ++ [r] })

/-- The sequencer is done with its device. -/
def State.enumDone (s : State) (p : Nat) (res : EResult) : State :=
  s.updEnum p (fun x => { x with
    step := .idle, attempts := 0, tag := 0, dev := none, ident := [], table := [], x := none, result := res
    lastId := match x.dev with
      | some d => d
      | none => x.lastId })

/-- The owner of the device in enumeration. -/
def State.enumOwner (s : State) (p : Nat) : Nat := s.routeOwner p (s.enum p).route.hops

/-- The handle of the device in enumeration, 0 when it has none. -/
def State.enumHandle (s : State) (p : Nat) : Nat :=
  match (s.enum p).dev with
  | some d => handleOf d.toNat 0
  | none => 0

/-- A device whose enumeration failed gives up its identifier and contexts (R172): at once when it has no work. -/
def State.enumRelease (s : State) (d : Nat) : State :=
  if s.noWork d then s.releaseDevice d
  else
    let s := s.endWork d stDetached (some stDetached)
    let s := s.forAll (fun t i => t.updCtx i (fun c => { c.noTicket with st := .detached })) (s.ctxsOf d)
    s.updDevX d (fun x => { x with leaving := true })

/-- ENUM_FAIL (R172, R236), with the TREE_ALLOW that a stage needs, or 0. -/
def State.enumFail (s : State) (p needed : Nat) : State :=
  let h := s.enumHandle p
  let s := s.enumEvent (s.enumOwner p) p 3 (needed * 2 ^ 32 + h)
  let s := match (s.enum p).dev with
    | some d => s.enumRelease d.toNat
    | none => s
  s.enumDone p .fail

/-- An attempt of a step failed (R172): it is repeated, up to three in all. -/
def State.enumRetry (s : State) (p : Nat) : State :=
  if 3 ≤ (s.enum p).attempts + 1 then s.enumFail p 0
  else s.updEnum p (fun x => { x with attempts := x.attempts + 1 })

/-- The sequencer goes on to a step. -/
def State.enumTo (s : State) (p : Nat) (st : EStep) : State := s.updEnum p (fun x => { x with step := st, attempts := 0 })

/-- The request of a step (R132, R171). -/
def stepReq (x : EnumS) (d : Dev) : Req :=
  match x.step with
  | .ident => { code := 0x45, flags := 0x80, arg := 0x010000, len := 16 }
  | .assign => { code := 0x44, arg := (x.dev.map (·.toNat)).getD 0 }
  | .table => { code := 0x45, flags := 0x80, arg := 0x020000, len := idTable x.ident }
  | .configure => { code := 0x46, arg := 1 }
  | .tier => { code := 0x54, flags := 0x20, arg := d.tier.toNat }
  | .portSet n => hubReq 0x52 n 1 0
  | .wake => { code := 0x43, arg := 1 }
  | .idle => { code := 0 }

/-- The context with which the sequencer addresses its device (R170, R171): DEF until ASSIGN_ID has completed. -/
def State.enumCtx (s : State) (p : Nat) : Ctx :=
  let x := s.enum p
  let c := s.newCtx 0 0 0 p x.route.hops
  match x.step with
  | .ident | .assign => { c with handle := 0, defTok := true, tag := x.tag }
  | _ => { c with handle := BitVec.ofNat 23 (s.enumHandle p), tag := x.tag }

/-- Wire cost of the longest stage of a step with RTY 0, at the MPS0 that is known, a packet in a stage (R234, R236; log entry 86). -/
def State.stageCost (s : State) (p : Nat) : Nat :=
  let x := s.enum p
  let sp := s.treeSpeed p
  let n := match x.step with
    | .ident => if sp = .field then 8 else 16
    | .table => min (idMps0 x.ident) (idTable x.ident)
    | _ => 0
  max (wireCost .take sp 1 0 n) (wireClocks 0 (outA sp 1 8))

/-- What an empty lead leaves for tree service (R232, R235, R236). -/
def State.leadRoom (s : State) (p : Nat) : Nat :=
  if s.treeSpeed p = .field then 12000 else s.treeAllow p - noticeAllow (s.treeSpeed p) 0

/-- The lowest free bridge slot (R337). -/
def State.freeSlot (s : State) : Option Nat := (List.range 64).find? (fun b => (s.bridge b).dev.isNone)

/-- A device becomes known as a hub or bridge (R234, R337): its polls fall due TREE_POLL ticks on, and a bridge takes a slot. -/
def State.serveHub (s : State) (p d : Nat) : State :=
  let x := s.dev d
  let due := s.tick.n + BitVec.ofNat 48 (s.schedAt p).treePoll.toNat
  let ps : List Poll := (if x.hub then [{ dev := BitVec.ofNat 19 d, ep := 1, due := due }] else []) ++
    (if x.bridge then [{ dev := BitVec.ofNat 19 d, ep := 2, due := due }] else [])
  let s := s.updTree p (fun t => { t with polls := t.polls.filter (fun q => q.dev.toNat != d) ++ ps })
  if x.bridge && (s.bridges.map (·.1)).all (fun b => (s.bridge b).dev != some (BitVec.ofNat 19 d)) then
    match s.freeSlot with
    | some b => s.updBridge b (fun _ => { dev := some (BitVec.ofNat 19 d) })
    | none => s.enumEvent x.slice.toNat p 7 (handleOf d 0)
  else s

/-- A context as its device becomes ACTIVE (R171, R177, R387): a pin of its handle, within the pin ways of its slice, and what a restore
kept for it apply again. -/
def State.activate (s : State) (i : Nat) : State :=
  let h := (s.ctx i).handle.toNat
  let sl := (s.ctx i).slice
  let pin := decide (s.pinAt h = some sl) && ((s.ctx i).pin || !s.pinFull sl.toNat i)
  let s := s.updCtx i (fun c => { c with st := .active, pin := pin })
  match s.kept.find? (fun k => k.1 == h) with
  | some (_, t, v) => (s.updCtx i (fun c => { c with tktTimeout := t, scratch := v })).updKept (fun l => l.filter (fun k => k.1 != h))
  | none => s

/-- The last step has completed (R171): the device is ASSIGNED, its contexts ACTIVE, and ATTACH goes to its owner. -/
def State.enumAttach (s : State) (p d : Nat) : State :=
  let x := s.enum p
  let s := s.updDev d (fun y => { y with st := .assigned })
  let s := s.updDevX d (fun y => { y with ident := x.ident, table := x.table, lostAt := none })
  let s := s.forAll State.activate (s.ctxsOf d)
  let s := s.updCtx (s.dev d).base.toNat (fun c => { c with tag := x.tag })
  let s := s.serveHub p d
  (s.enumEvent (s.dev d).slice.toNat p 1 (handleOf d 0)).enumDone p .attach

/-- After CONFIGURE and the hub's steps: WAKE_ENABLE when the device can and the attach table says so (R164, R171 step 6). -/
def State.enumWake (s : State) (p d : Nat) : State :=
  let x := s.enum p
  let want := match s.attachOf p x.route.hops with
    | some e => e.2
    | none => false
  if want && idWake x.ident then s.enumTo p .wake else s.enumAttach p d

/-- The endpoint table sets the contexts of the endpoints (R162, R169, R171). -/
def State.setEndpoints (s : State) (d : Nat) (tbl : List Byte) : State :=
  s.forAll (fun t k => t.updCtx ((t.dev d).base.toNat + k + 1) (fun c =>
    let e := beAt tbl (4 * k) 1
    { c with dirIn := e / 128 == 1, typ := if e / 64 % 2 = 1 then 2 else 1, mps := BitVec.ofNat 11 (tableMps tbl k), st := .configuring }))
    (List.range (tbl.length / 4))

/-- The device at the route is taken for another one (R184, changed records): a detach, then a new attach (log entry 45). -/
def State.enumChanged (s : State) (p d : Nat) : State :=
  let s := s.detachDevice d
  s.updEnum p (fun x => { x with dev := none })

/-- Step 1 returned a record that passes (R165, R166, R171, R184). -/
def State.enumIdent (s : State) (p : Nat) (b : List Byte) : State :=
  let s := match (s.enum p).dev with
    | some d =>
      if (s.devXAt d.toNat).ident ≠ [] && idNep (s.devXAt d.toNat).ident != idNep b then s.enumChanged p d.toNat else s
    | none => s
  let x := s.enum p
  match x.dev with
  | some d =>
    let i := (s.dev d.toNat).base.toNat
    let sp := BitVec.ofNat 2 (s.treeSpeed p).code
    let dfr := s.deferredRoute p x.route.hops
    let s := s.forAll (fun t k => t.updCtx k (fun c =>
      { c with st := if c.st = .lost then .configuring else c.st, speed := sp, deferred := dfr })) (s.ctxsOf d.toNat)
    let s := s.updDev d.toNat (fun y => { y with st := .configuring })
    ((s.updCtx i (fun c => { c with mps := BitVec.ofNat 11 (idMps0 b) })).updEnum p (fun x => { x with ident := b })).enumTo p .assign
  | none =>
    let sl := s.enumOwner p
    match s.allocate sl p x.route.hops b with
    | .ok (d, s) => (s.updEnum p (fun x => { x with ident := b, dev := some (BitVec.ofNat 19 d) })).enumTo p .assign
    | .error e => (s.enumEvent sl p e 0).enumDone p (if e = 5 then .conflict else .noSpace)

/-- Step 3 returned a table that passes: as before, or a changed device, which is enumerated afresh (R171, R184; log entry 45). -/
def State.enumTable (s : State) (p d : Nat) (b : List Byte) : State :=
  let old := (s.devXAt d).table
  if (s.devXAt d).ident ≠ [] && old != b then
    let s := s.enumChanged p d
    s.updEnum p (fun x => { x with step := .ident, attempts := 0, ident := [], table := [] })
  else ((s.setEndpoints d b).updEnum p (fun x => { x with table := b })).enumTo p .configure

/-- A step ended well (R171). -/
def State.enumOk (s : State) (p : Nat) (b : List Byte) : State :=
  let x := s.enum p
  let d := (x.dev.map (·.toNat)).getD 0
  match x.step with
  | .idle => s
  | .ident => if identOk (s.treeSpeed p) b then s.enumIdent p b else s.enumRetry p
  | .assign => s.enumTo p .table
  | .table => if tableOk (s.treeSpeed p) (idTable x.ident) b then s.enumTable p d b else s.enumRetry p
  | .configure =>
    let s := s.updDevX d (fun y => { y with configured := true })
    if (s.dev d).hub then s.enumTo p .tier else s.enumWake p d
  | .tier => s.enumTo p (.portSet 0)
  | .portSet n => if n < (s.dev d).ports.toNat then s.enumTo p (.portSet (n + 1)) else s.enumWake p d
  | .wake => (s.updCtx (s.dev d).base.toNat (fun c => { c with rwake := true })).enumAttach p d

/-- A control transfer of the enumeration ended (R134, R170 to R172): with its data, or with STALL, NO_REPLY or DAMAGED. -/
def State.enumEnd (s : State) (p : Nat) (res : Option (List Byte)) : State :=
  let s := s.updEnum p (fun y => { y with last := some s.tick.n, tag := y.tag + 1, x := none })
  match res with
  | some b => s.enumOk p b
  | none => s.enumRetry p

/-- The sequencer of a tree takes its next device; a stage that cannot fit an empty lead ends the enumeration at once (R170, R236). -/
def State.enumReady (s : State) (p : Nat) : State :=
  let s := s.enumNext p
  if (s.enum p).step ≠ .idle ∧ (s.enum p).last ≠ some s.tick.n ∧ s.leadRoom p < s.stageCost p then
    s.enumFail p (s.stageCost p + noticeAllow (s.treeSpeed p) 0)
  else s

/-- The control transfer of the enumeration that can go on in this tick (R170, R171). -/
def State.enumTransfer (s : State) (p : Nat) : Option OwnX :=
  let y := s.enum p
  if y.step = .idle ∨ y.last = some s.tick.n then none
  else some (y.x.getD { req := (stepReq y (s.dev ((y.dev.map (·.toNat)).getD 0))).bytes })

/-- A stage of the enumeration has been answered (R172, R236). -/
def State.enumStage (s : State) (p : Nat) (o : OwnOut) : State :=
  match o with
  | .next x => s.updEnum p (fun y => { y with x := some x })
  | .again x => s.updEnum p (fun y => { y with x := some x, last := some s.tick.n })
  | .done b => s.enumEnd p (some b)
  | .failed => s.enumEnd p none

/-- The identity record and the endpoint table of the P16 device (R478, R479). -/
def p16Ident : List Byte := [0x1F, 0x4E, 0x4D, 0x03, 0x01, 0x02, 6, 8, 0, 0, 0, 20, 0, 0, 0, 0]
def p16Table : List Byte :=
  [0x81, 1, 0, 128, 0xC2, 0, 4, 0, 0xC3, 0, 4, 0, 0xC4, 0, 4, 0, 0x85, 255, 0, 64]

/-- The P16 responder answers one step per tick, without wire time (R478). -/
def State.enumP16 (s : State) : State :=
  let s := s.enumNext 16
  let x := s.enum 16
  if x.last = some s.tick.n then s
  else match x.step with
  | .idle => s
  | .ident => s.enumEnd 16 (some p16Ident)
  | .table => s.enumEnd 16 (some p16Table)
  | _ => s.enumEnd 16 (some [])

end Sys2Proof.Machine
end

