-- ==== Sys2Proof/Machine/Tree.lean ====
section
/-! DEFINITION. Tree service (07): hub and ticket polls, hub-port service, hub requests and enumeration stages, and the ticket
records of bridges (04). -/
namespace Sys2Proof.Machine

open Sys2Proof

/-! ## Hub-port service (R144, R145, R237) -/

/-- The place of a device in the order of R234 and R237: tier, then route. -/
def State.hubRank (s : State) (d : Nat) : Nat := (s.dev d).tier.toNat * 2 ^ 25 + hopsNat (s.hopsOfDev d)

/-- The place of a hub port on the service list (R237): tier, route, port. -/
def State.svcRank (s : State) (v : HubSvc) : Nat := s.hubRank v.hub.toNat * 32 + v.port.toNat

/-- Puts a hub port on the list in order; a service that has begun, or was carried over, stays first (R234, R237). -/
def insertSvc (rank : HubSvc → Nat) (v : HubSvc) : List HubSvc → List HubSvc
  | [] => [v]
  | x :: t => if rank v < rank x && !x.begun then v :: x :: t else x :: insertSvc rank v t

/-- Puts a hub port on the service list of a port's tree. -/
def State.addService (s : State) (p : Nat) (v : HubSvc) : State :=
  s.updTree p (fun t => { t with service := insertSvc s.svcRank v t.service })

/-- A hub's change bitmap (R143, R237): its ports with a change join the service list, but for one whose changes a service on the list has
still to acknowledge. -/
def State.hubChanges (s : State) (p d bitmap : Nat) : State :=
  s.forAll (fun t n =>
    if bitmap.testBit n && !(t.tree p).service.any (fun v => v.hub.toNat == d && v.port.toNat == n && v.todo.contains .ack) then
      t.addService p { hub := BitVec.ofNat 19 d, port := BitVec.ofNat 5 n }
    else t) (List.range ((s.dev d).ports.toNat + 1))

/-- HUB_PORT_FAULT (R237, R393) to the owner of the port's prefix. -/
def State.hubFault (s : State) (p d n : Nat) (mismatch : Bool) : State :=
  let hops := s.hopsOfDev d ++ [BitVec.ofNat 5 n]
  s.enumEvent (s.routeOwner p hops) p 8 (n * 2 ^ 24 + bnat mismatch * 2 ^ 23 + handleOf d 0)

/-- The device behind a hub port is gone: it and its subtree are detached at the commit (R184, R185, R237). -/
def State.hubGone (s : State) (p : Nat) (hops : List (BitVec 5)) : State :=
  s.updSliceActs (fun l => l ++ [.detach (BitVec.ofNat 5 p) hops])

/-- The change bits of a returned word and the state bits that R237 reads (R144). -/
def chgConnect (w : W32) : Bool := w.getLsbD 0
def chgReset (w : W32) : Bool := w.getLsbD 1
def chgFuse (w : W32) : Bool := w.getLsbD 3
def chgWake (w : W32) : Bool := w.getLsbD 4
def wConnected (w : W32) : Bool := w.getLsbD 14
def wPowered (w : W32) : Bool := w.getLsbD 15
def wResetting (w : W32) : Bool := w.getLsbD 16
def wSuspended (w : W32) : Bool := w.getLsbD 17
def wTripped (w : W32) : Bool := w.getLsbD 20
def wMismatch (w : W32) : Bool := w.getLsbD 21

/-- The first three rows of R237: a lost connection, a tripped fuse, a mismatch; and the request that they ask for. -/
def State.hubLosses (s : State) (p d n : Nat) (w : W32) : State × List SvcStep :=
  let hops := s.hopsOfDev d ++ [BitVec.ofNat 5 n]
  let k := hubWordKey d n
  let off := chgConnect w && !wConnected w
  let fuse := chgFuse w && wTripped w
  let s := if off || fuse then s.hubGone p hops else s
  let s := if fuse then s.hubFault p d n false else s
  let s := if off then s.updTree p (fun t => { t with mismatch := t.mismatch.filter (· != k) }) else s
  let s := if wMismatch w then (s.hubFault p d n true).updTree p (fun t => { t with mismatch := t.mismatch ++ [k] }) else s
  (s, if fuse then [.powerOff] else [])

/-- The actions of R237 for a returned word, in the order of its table, and the requests that they ask for. After a mismatch nothing
follows until the port shows that it is disconnected. -/
def State.hubActions (s : State) (p : Nat) (v : HubSvc) : State × List SvcStep :=
  let d := v.hub.toNat
  let n := v.port.toNat
  let w := v.word
  let hops := s.hopsOfDev d ++ [v.port]
  if (s.tree p).mismatch.contains (hubWordKey d n) && !(chgConnect w && !wConnected w) then (s, [])
  else
    let (s, l) := s.hubLosses p d n w
    if wMismatch w then (s, l)
    else
      let s := if chgConnect w && wConnected w && wPowered w then
          s.updTree p (fun t => { t with resets := t.resets ++
            [{ hub := v.hub, port := v.port, due := v.readAt + BitVec.ofNat 48 (s.port p).waitTicks }] })
        else s
      let s := if chgReset w && !wResetting w && !wSuspended w then s.enumAdd p hops else s
      let wake := (s.attachOf p hops).any (·.2)
      (s, l ++ if chgWake w && wake then [.resume] else [])

/-- The request of a step of a port's service (R132, R145, R237). -/
def svcReq (v : HubSvc) : SvcStep → Req
  | .readPort => hubReq 0x51 v.port.toNat 0 4
  | .ack => hubReq 0x53 v.port.toNat (v.word.toNat % 32 * 256) 0
  | .powerOff => hubReq 0x53 v.port.toNat 1 0
  | .resume => hubReq 0x53 v.port.toNat 4 0
  | .reset => hubReq 0x52 v.port.toNat 2 0

/-- Another standing of the service at the head of the list. -/
def State.setService (s : State) (p : Nat) (v : HubSvc) : State :=
  s.updTree p (fun t => { t with service := v :: t.service.drop 1 })

/-- The service goes on to its next requests, or is over (R237). -/
def State.svcNext (s : State) (p : Nat) (v : HubSvc) (todo : List SvcStep) : State :=
  if todo = [] then s.updTree p (fun t => { t with service := t.service.drop 1 })
  else s.setService p { v with todo := todo, x := none, attempts := 0 }

/-- A request of the service failed (R237): it is repeated in a later tick; after three attempts the hub's own segment is reset and its
services end. -/
def State.svcFailed (s : State) (p : Nat) (v : HubSvc) : State :=
  if 3 ≤ v.attempts + 1 then
    let d := v.hub.toNat
    let r := s.routeOfDev d
    let s := s.updTree p (fun x => { x with service := x.service.filter (fun y => y.hub != v.hub) })
    if r.hops = [] then s.updPort p (fun x => { x with cmds := x.cmds ++ [((s.dev d).slice.toNat, .reset)] })
    else s.updSliceActs (fun l => l ++ [.reset r.port r.hops])
  else s.setService p { v with attempts := v.attempts + 1, x := none, last := some s.tick.n }

/-- A request of the service completed, with the data read (R144, R237): the word of READ_PORT, most significant byte first; after the
acknowledgement the actions; after PORT_SET with RESET the segment behind the port has been reset (R137). -/
def State.svcDone (s : State) (p : Nat) (v : HubSvc) (b : List Byte) : State :=
  let d := v.hub.toNat
  match v.todo with
  | .readPort :: t =>
    if b.length = 4 then
      let w := BitVec.ofNat 32 (beNat b)
      (s.updTree p (fun x => { x with words := x.words.set (hubWordKey d v.port.toNat) w })).svcNext p
        { v with word := w, readAt := s.tick.n } t
    else s.svcFailed p v
  | .ack :: t =>
    let (s, l) := s.hubActions p v
    s.svcNext p v (t ++ l)
  | .reset :: t => (s.markReset p (s.hopsOfDev d ++ [v.port])).svcNext p v t
  | l => s.svcNext p v (l.drop 1)

/-- A control transfer of the module's own to a hub has ended: its tag goes on (R134). -/
def State.ownEnd (s : State) (d : Nat) : State := s.updCtx (s.dev d).base.toNat (fun c => { c with tag := c.tag + 1 })

/-- A stage of the service has been answered. -/
def State.svcStage (s : State) (p : Nat) (v : HubSvc) (o : OwnOut) : State :=
  let v := { v with begun := true }
  match o with
  | .next x => s.setService p { v with x := some x }
  | .again x => s.setService p { v with x := some x, last := some s.tick.n }
  | .done b => (s.ownEnd v.hub.toNat).svcDone p v b
  | .failed => (s.ownEnd v.hub.toNat).svcFailed p v

/-! ## Hub requests of SUSPEND and RESUME (R215, R234 item 3) -/

/-- The request of a SUSPEND or RESUME (R145). -/
def HubReq.req (r : HubReq) : Req := hubReq (if r.suspend then 0x52 else 0x53) r.port.toNat 4 0

/-- A stage of the request at the head has been answered; one that fails is given up (log entry 87). -/
def State.reqStage (s : State) (p : Nat) (r : HubReq) (o : OwnOut) : State :=
  let put (s : State) (l : List HubReq) : State := s.updTree p (fun t => { t with reqs := l ++ t.reqs.drop 1 })
  match o with
  | .next x => put s [{ r with x := some x }]
  | .again x => put s [{ r with x := some x, last := some s.tick.n }]
  | .done _ => (put (s.ownEnd r.hub.toNat) []).updTree p (fun t => { t with
      words := Tab.upd 0 t.words (hubWordKey r.hub.toNat r.port.toNat) (fun w => if r.suspend then setBit w 17 else clrBit w 17) })
  | .failed => put (s.ownEnd r.hub.toNat) []

/-! ## Ticket records (R150 to R154, R284) -/

/-- The status of a ticket outcome other than DONE and STALL (R284); an outcome that R150 does not list gives an unstated status,
which is a free value (log entries 6, 84). -/
def State.ticketStatus (s : State) (o : Byte) : Nat × State :=
  match o.toNat with
  | 2 => (0x0D, s)
  | 3 => (0x07, s)
  | 4 => (0x0E, s)
  | 5 => (0x0F, s)
  | _ => (s.free.toNat % 256, s.useFree)

/-- A record of an outstanding ticket (R151, R152): the ticket is over; OUT and control writes complete or go on to their next
post, IN and control reads wait for collection, anything else ends the transfer. -/
def State.takeTicket (s : State) (i : Nat) (r : TicketRec) : State :=
  let posted := match s.transferOf i with
    | some (_, e) => e.posted.toNat
    | none => s.now
  let s := match s.bridgeOf i with
    | some b => (s.updBridge b (fun x => { x with latency := (x.latency ++ [s.now - posted]).drop (x.latency.length + 1 - 64) })).count
        (bridgeItem b 1) 1
    | none => s
  let s := s.updCtx i Ctx.noTicket
  match s.transferOf i with
  | none => s
  | some (_, e) =>
    let c := s.ctx i
    let ctl := c.typ == 0
    let rd := if ctl then setupIn e.q3 && setupLength e.q3 != 0 else c.dirIn
    match r.outcome.toNat with
    | 0 =>
      if rd then s.updTransfer i (fun x => { x with record := some r, stageDone := 0 })
      else
        let n := min r.len.toNat c.remain.toNat
        let s := s.updCtx i (Ctx.move n)
        if ctl || decide (c.remain.toNat ≤ r.len.toNat) then s.endProgress i stSuccess
        else s.updTransfer i (fun x => { x with stageDone := 0 })
    | 1 =>
      let s := if c.ep ≠ 0 then s.updCtx i (fun c => { c with st := .halted }) else s
      s.endProgress i stStall
    | _ =>
      let (st, s) := s.ticketStatus r.outcome
      s.endProgress i st

/-- A record read from a bridge's ticket endpoint (R150, R153): one whose ticket is not outstanding is late, discarded and counted. -/
def State.ticketRecord (s : State) (r : TicketRec) : State :=
  match s.ctxOfHandle (handleOf r.dev.toNat r.ep.toNat) with
  | some i =>
    if (s.ctx i).tktValid && (s.ctx i).ticket == r.ticket then s.takeTicket i r
    else
      let s := s.updCtx i (fun c => { c with late := satInc c.late })
      match s.bridgeOf i with
      | some b => s.count (bridgeItem b 5) 1
      | none => s
  | none => s

/-! ## Polls (R127, R143, R150, R234) -/

/-- The context of a polled endpoint. -/
def State.pollCtx (s : State) (q : Poll) : Nat := (s.dev q.dev.toNat).base.toNat + q.ep.toNat

/-- The place of a poll (R234): those carried over, then tier and route; a bridge's change bitmap before its tickets. -/
def State.pollRank (s : State) (q : Poll) : Nat :=
  bnat (!q.carried) * 2 ^ 40 + s.hubRank q.dev.toNat * 16 + q.ep.toNat

/-- Puts a poll in a list in order. -/
def insertPoll (rank : Poll → Nat) (q : Poll) : List Poll → List Poll
  | [] => [q]
  | x :: t => if rank q < rank x then q :: x :: t else x :: insertPoll rank q t

/-- The polls that have fallen due, in order (R234 item 1); an endpoint that is halted is polled no more (R127). -/
def State.duePolls (s : State) (p : Nat) : List Poll :=
  ((s.tree p).polls.filter (fun q => decide (q.due.toNat ≤ s.now) && decide ((s.ctx (s.pollCtx q)).st = .active))).foldl
    (fun acc q => insertPoll s.pollRank q acc) []

/-- A change of a poll on the list of a port's tree. -/
def State.updPoll (s : State) (p : Nat) (q : Poll) (f : Poll → Poll) : State :=
  s.updTree p (fun t => { t with polls := t.polls.map (fun x => if x.dev = q.dev ∧ x.ep = q.ep then f x else x) })

/-- A completion record of a ticket endpoint (R150), most significant byte first. -/
def recordOf (b : List Byte) : TicketRec :=
  let w := beNat b
  { ticket := BitVec.ofNat 16 (w / 2 ^ 48), outcome := BitVec.ofNat 8 (w / 2 ^ 40), dev := BitVec.ofNat 19 (w / 2 ^ 21)
    ep := BitVec.ofNat 4 (w / 2 ^ 17), len := BitVec.ofNat 17 w }

/-- The whole records of a packet (R150). -/
def recordsOf (b : List Byte) : List TicketRec := (pieces 8 (b.length / 8) b).map recordOf

/-- The data of a poll: the bitmap of a hub's ports, bit 31 in the first byte (R106, R143), or ticket records (R150). -/
def State.pollData (s : State) (p : Nat) (q : Poll) (b : List Byte) : State :=
  if q.ep = 1 then (if b.length = 4 then s.hubChanges p q.dev.toNat (beNat b) else s)
  else s.forAll State.ticketRecord (recordsOf b)

/-- The outcome of a transaction of tree service (R125). -/
def treeOut (f : BitVec 4) (r : Reply) : Nat :=
  match r with
  | .nak => oNak
  | .stall => oStall
  | .ticket _ => oTicket
  | .routeErr _ _ _ => oRouteErr
  | .noReply => oNoReply
  | .damaged => oDamaged
  | .ack _ => oDone
  | .sheaf ps dmg excess => inOutcome 1 ps (intact 1 f ps) dmg excess

/-- A poll has been answered (R122, R125, R127, R234): it is due again TREE_POLL ticks on; the packets kept advance the endpoint's number
and their data is taken, and STALL halts the endpoint. -/
def State.polled (s : State) (p : Nat) (q : Poll) (r : Reply) : State :=
  let i := s.pollCtx q
  let c := s.ctx i
  let out := treeOut c.seq r
  let s := s.updPoll p q (fun x => { x with due := s.tick.n + BitVec.ofNat 48 (s.schedAt p).treePoll.toNat, carried := false })
  let s := s.updCtx i (fun c => { Ctx.runs out c with lastSvc := s.tick.n, st := if out = oStall then .halted else c.st })
  match r with
  | .sheaf ps _ _ => (s.updCtx i (fun c => { c with seq := nextAfter c.seq ps })).pollData p q (pktBytes (intact 1 c.seq ps))
  | _ => s

/-! ## TREE_SERVICE (R234) -/

/-- What tree service can do next (R234): a poll, a stage of hub-port service, of a hub request, of the enumeration. -/
inductive TreeItem where
  | poll (q : Poll)
  | service (v : HubSvc) (x : OwnX)
  | request (r : HubReq) (x : OwnX)
  | enumerate (x : OwnX)
deriving DecidableEq, Repr

/-- Tree service runs on an ACTIVE port, at Field speed in the phase-7 tick (R229, R234). -/
def State.treeRuns (s : State) (p : Nat) : Bool :=
  s.portActive p && s.working && s.frontOn p && (decide ((s.port p).speed ≠ .field) || decide (s.phase = 7))

/-- EP0 of a hub is free for a transfer of the module's own: ACTIVE, without a transfer of its owner's or another of the module's, its tag as
committed (R134; log entry 86). -/
def State.ownReady (s : State) (p d : Nat) : Bool :=
  let i := (s.dev d).base.toNat
  let c := s.ctx i
  decide (c.st = .active) && c.queue == 0 && (s.comCtx i).queue == 0 && (s.comCtx i).tag == c.tag && !s.ownBusy p i

/-- The transfer that a request to a hub goes on with in this tick, or begins. -/
def State.ownTransfer (s : State) (p d : Nat) (last : Option (BitVec 48)) (x : Option OwnX) (r : Req) : Option OwnX :=
  if last = some s.tick.n then none
  else match x with
  | some x => some x
  | none => if s.ownReady p d then some { req := r.bytes } else none

/-- What tree service can do next, in the order of R234: of each class but the polls the one that is in turn; a request of SUSPEND or RESUME
after the commit of its instruction. -/
def State.treeItems (s : State) (p : Nat) : List TreeItem :=
  let t := s.tree p
  (s.duePolls p).map .poll ++
  (match t.service with
   | v :: _ => ((s.ownTransfer p v.hub.toNat v.last v.x (svcReq v (v.todo.headD .ack))).map (TreeItem.service v)).toList
   | [] => []) ++
  (match t.reqs with
   | r :: _ =>
     if r.since.toNat < s.now then ((s.ownTransfer p r.hub.toNat r.last r.x r.req).map (TreeItem.request r)).toList else []
   | [] => []) ++
  ((s.enumTransfer p).map .enumerate).toList

/-- The context with which an item is addressed, with the number of its next packet. -/
def State.itemCtx (s : State) (p : Nat) : TreeItem → Ctx
  | .poll q => s.ctx (s.pollCtx q)
  | .service v x => { s.ep0 v.hub.toNat with seq := x.seq }
  | .request r x => { s.ep0 r.hub.toNat with seq := x.seq }
  | .enumerate x => { s.enumCtx p with seq := x.seq }

/-- What carries an item, and the request of its setup stage. -/
def TreeItem.form : TreeItem → Attempt
  | .poll _ => .inSheaf 1
  | .service _ x | .request _ x | .enumerate x => x.form
def TreeItem.req : TreeItem → List Byte
  | .poll _ => []
  | .service _ x | .request _ x | .enumerate x => x.req

/-- The sizes of an item's packets (R236): below which one is short, at which it is charged, and the largest that the port takes. Before MPS0
is known these are 8, 16 or 8, and the largest MPS0 that R168 allows. -/
def State.itemSizes (s : State) (p : Nat) (i : TreeItem) : Nat × Nat × Nat :=
  let all (m : Nat) : Nat × Nat × Nat := (m, m, m)
  match i with
  | .poll q => all (s.ctx (s.pollCtx q)).mps.toNat
  | .service v _ => all (s.ep0 v.hub.toNat).mps.toNat
  | .request r _ => all (s.ep0 r.hub.toNat).mps.toNat
  | .enumerate _ =>
    let b := (s.enum p).ident
    if b ≠ [] then all (idMps0 b) else if s.treeSpeed p = .field then all 8 else (8, 16, 128)

/-- W of an item (R224, R234, R236). -/
def State.itemCost (s : State) (p : Nat) (i : TreeItem) : Nat :=
  let sp := s.treeSpeed p
  let fig := (s.itemSizes p i).2.1
  match i with
  | .poll _ => wireClocks 0 (inA sp 1 fig)
  | .service _ x | .request _ x | .enumerate x => x.cost sp fig

/-- The end of the lead, or of the window of a phase-7 tick at Field speed (R229). -/
def State.leadEnd (s : State) (p : Nat) : Nat := if (s.port p).speed = .field then 12000 else (s.shuttle p).lead

/-- An item still fits the lead after the notice allowance has been set aside (R234). -/
def State.treeFits (s : State) (p : Nat) (i : TreeItem) : Bool :=
  let x := s.shuttle p
  let allow := if x.noticed then 0 else noticeAllow (s.port p).speed s.phase
  decide (x.treeAt + s.itemCost p i + allow ≤ s.leadEnd p)

/-- An item that does not fit is taken ahead of later items in its class from the next tick (R234). -/
def State.carryOver (p : Nat) (s : State) (i : TreeItem) : State :=
  match i with
  | .poll q => s.updPoll p q (fun x => { x with carried := true })
  | .service v _ => s.setService p { v with begun := true }
  | _ => s

/-- An item has been answered. -/
def State.treeAnswer (s : State) (p : Nat) (i : TreeItem) (r : Reply) : State :=
  let short := (s.itemSizes p i).1
  match i with
  | .poll q => s.polled p q r
  | .service v x => s.svcStage p v (x.react short r)
  | .request q x => s.reqStage p q (x.react short r)
  | .enumerate x => s.enumStage p (x.react short r)

/-- The port acknowledges a sheaf of an item whose next packet was number `f` (R122). -/
def State.ackSheaf (s : State) (p : Nat) (f : BitVec 4) (r : Reply) : State :=
  match r with
  | .sheaf ps _ _ => s.sendPacket p (ackPacket (nextAfter f ps))
  | _ => s

/-- An item is carried from cycle `t0` and answered by a cycle: what arrived in time, or nothing by the response timeout (R69, R125); none
when the packets given are no such reply. A transaction counts for the snapshot and in the wire clocks used (R336). -/
def State.treeTransact (s : State) (p : Nat) (i : TreeItem) (xs : List RxPkt) (cyc : Nat) : Option State :=
  let t0 := (s.shuttle p).treeAt
  let c := s.itemCtx p i
  let pks := attemptPackets c i.req i.form
  let sent := s.sentBy p t0 pks
  let inTime := if xs = [] then decide (sent + s.responseTime p ≤ cyc ∧ cyc ≤ 12000) else s.inTime p sent cyc xs
  if inTime then
    let r := s.replyOf p (i.form.sheaf (s.itemSizes p i).2.2) xs
    let s := ((s.transmit p t0 pks).ackSheaf p c.seq r).treeAnswer p i r
    let next := s.nextStart p r cyc
    some ((s.countWire p (treeOut c.seq r)).updShuttle p (fun x => { x with treeAt := next, used := x.used + (cyc - t0) }))
  else none

/-- The next transaction of tree service (R232, R234): the first item that fits the lead; a notice that is due goes before it. -/
def State.treeTurn (s : State) (p : Nat) (xs : List RxPkt) (cyc : Nat) : State :=
  let items := s.treeItems p
  let s := s.forAll (State.carryOver p) (items.takeWhile (fun i => !s.treeFits p i))
  match items.find? (s.treeFits p) with
  | some i =>
    let u := if s.noticeDue p then s.sendNotice p (s.shuttle p).treeAt else s
    (u.treeTransact p i xs cyc).getD s
  | none => s

/-- TREE_SERVICE (R170, R232, R234 to R237): the next transaction with the packets that came back, none for no reply, and the cycle at which it
has ended (log entry 86). -/
def execTreeService (p : Port) (reply : List RxPkt) (cyc : Cycle) (s : State) : Host.Outcome State Fault Refusal :=
  let k := p.toNat
  .next (if s.treeRuns k then ((s.afeSees k reply).enumReady k).treeTurn k reply cyc.toNat else s)

/-- HUB_PORT_RESET_DUE (R237): the wait of a hub port has ended, and PORT_SET with RESET joins the service list (log entry 87). -/
def execHubPortResetDue (p : Port) (s : State) : Host.Outcome State Fault Refusal :=
  let k := p.toNat
  .next (match (s.tree k).resets.find? (fun r => decide (r.due.toNat ≤ s.now)) with
    | some r =>
      if s.working then
        (s.updTree k (fun t => { t with resets := t.resets.filter (· != r) })).addService k
          { hub := r.hub, port := r.port, todo := [.reset] }
      else s
    | none => s)

end Sys2Proof.Machine
end

