-- ==== Sys2Proof/Machine/Images.lean ====
section
/-! DEFINITION. Images (11 R383 to R387): saving, loading, checking and restoring; and the slice commands' effects at a commit. -/
namespace Sys2Proof.Machine

open Sys2Proof

/-- 48 MiB, the largest image (R385, R386; log entry 57). -/
def imageMax : Nat := 50331648

/-- The header of an image (R383). -/
def imageHeader (sl : Nat) (since : BitVec 48) (frozen n : Nat) (iv : List Byte) (kekId : W64) (wrapped : List Byte) : List Byte :=
  [0x4E, 0x53, 0x49, 0x34, 1, 0, BitVec.ofNat 8 sl, 0] ++ leBytes 8 Config.serial.toNat ++ leBytes 4 since.toNat ++
    leBytes 4 frozen ++ leBytes 8 n ++ iv ++ [0, 0, 0, 0] ++ leBytes 8 kekId.toNat ++ wrapped

/-- The image as written (R383): the header, which is the additional data, the body under AES-256-GCM and its tag. The IV and the content
key are the next two draws (R376; log entry 25). -/
def State.imageBytes (s : State) (sl : Nat) (kekId : W64) (since : BitVec 48) : List Byte :=
  let body := ((s.imageBody sl).map (fun w => leBytes 8 w.toNat)).flatten
  let iv := (drawBytes s.freeCount 0 16).take 12
  let key := drawBytes (s.freeCount + 1) 0 32
  let hdr := imageHeader sl since (s.now - since.toNat) body.length iv kekId (keyWrap (s.sliceXAt sl).kek key)
  let ct := gcmCrypt key iv body
  hdr ++ ct ++ gcmTag key iv hdr ct

/-- The pages from which the CONTEXT section of an image is read (R372, R384). -/
def State.imagePages (s : State) (sl : Nat) : List Nat :=
  ((s.devsOf sl).flatMap s.ctxsOf).flatMap s.ctxPages

/-- A channel of S0 in EXPORT role (R385, R386; log entry 54). -/
def State.exportChan (s : State) (c : Nat) : Bool := s.chanOwner c == 0 && (s.chan c).role == .xport

/-- SAVE_IMAGE (R385): completes when the export starts; NO_RESOURCE while the entropy source's health tests fail (R376; log entries 24,
54). -/
def execSaveImage (sl : Slice) (entropy : Bool) (s : State) : Host.Outcome State Fault Refusal :=
  .next (s.sliceCommand sl.toNat 0x89 (fun k e s =>
    let c := fld e.q1 57 52
    if e.q2.toNat % 4096 ≠ 0 then s.adminDone sl.toNat e stMalformed
    else match (s.sliceXAt k).kekId, (s.sliceXAt k).since with
      | some kek, some since =>
        if (s.slice k).st ≠ .frozen ∨ s.exportChan c = false then s.adminDone sl.toNat e stNotPermitted
        else
          let bs := s.imageBytes k kek since
          if imageMax < bs.length || !entropy then s.adminDone sl.toNat e stNoResource
          else if s.exportFree c then
            s.dramAccess k (s.imagePages k) (fun s =>
              ((s.startExport c (.save (BitVec.ofNat 6 k)) e.q2 k bs).useFree.useFree).adminDone sl.toNat e stSuccess)
          else s
      | _, _ => s.adminDone sl.toNat e stNotPermitted))

/-- LOAD_IMAGE (R386): completes when the read starts; an image staged before is replaced (log entries 54, 57). -/
def execLoadImage (sl : Slice) (s : State) : Host.Outcome State Fault Refusal :=
  .next (s.sliceCommand sl.toNat 0x8A (fun k e s =>
    let c := fld e.q1 57 52
    if e.q2.toNat % 4096 ≠ 0 then s.adminDone sl.toNat e stMalformed
    else if k = 0 ∨ s.exportChan c = false then s.adminDone sl.toNat e stNotPermitted
    else if s.exportFree c then
      let s : State := { s with stagedImage := none, loadTarget := some (BitVec.ofNat 6 k) }
      (s.updChan c (fun x => { x with
        job := some (.load (BitVec.ofNat 6 k)), st := .running, done := 0, read := [0], wrote := [0], buf := [], data := [], failed := false
        active := some { w0 := e.q2, w1 := 0, w2 := BitVec.ofNat 64 (imageMax * 2 ^ 32 + k * 2 ^ 16), w3 := 0, addr := 0 } })).adminDone
          sl.toNat e stSuccess
    else s))

/-- MAGIC, VERSION, size, KEK_ID and WRAPPED of a header pass (R386): the content key. -/
def headerKey (hdr : List Byte) (kekId : Option W64) (kek : List Byte) : Option (List Byte) :=
  if hdr.take 4 = [0x4E, 0x53, 0x49, 0x34] ∧ leAt hdr 4 2 = 1 ∧ 112 + leAt hdr 24 8 ≤ imageMax ∧
      kekId = some (BitVec.ofNat 64 (leAt hdr 48 8)) then
    keyUnwrap kek ((hdr.drop 56).take 40)
  else none

/-- What has been read of an image is checked (R386): none while more is needed; then the body, or none where a check fails (log
entry 56). -/
def imageCheck (kekId : Option W64) (kek bs : List Byte) : Option (Option (List W64)) :=
  if bs.length < 96 then none
  else
    let hdr := bs.take 96
    match headerKey hdr kekId kek with
    | none => some none
    | some key =>
      let n := leAt hdr 24 8
      if bs.length < 112 + n then none
      else
        let iv := (hdr.drop 32).take 12
        let ct := (bs.drop 96).take n
        if gcmTag key iv hdr ct = (bs.drop (96 + n)).take 16 then
          some (some ((pieces 8 (n / 8) (gcmCrypt key iv ct)).map (fun b => BitVec.ofNat 64 (leNat b))))
        else some none

/-- The channel that loads an image, with its target (R386; log entry 56). -/
def State.loading (s : State) : Option (Nat × Sys2Proof.Slice) :=
  firstSome (fun c => match (s.chan c).job with
    | some (.load k) => if (s.chan c).active.isSome then some (c, k) else none
    | _ => none) (s.chans.map (·.1))

/-- IMAGE_VERIFY (R386): what the channel has read is checked: the image is staged as verified, or its record ends FORMAT (log
entry 56). -/
def execImageVerify (s : State) : Host.Outcome State Fault Refusal :=
  .next (match s.loading with
    | some (c, k) =>
      match (s.chan c).active, imageCheck (s.sliceXAt k.toNat).kekId (s.sliceXAt k.toNat).kek (s.chan c).data with
      | some d, some r =>
        if s.working && s.chanWorks c then
          let s : State := match r with
            | some body => { s with stagedImage := some (k, body) }
            | none => s
          let bytes := match r with
            | some body => 112 + 8 * body.length
            | none => 0
          ((s.updChan c (fun x => { x.endWith s.workTick d (if r.isSome then .done else .format) bytes with
            job := none })).updChanX c (ChX.forget (fun _ => true))).boundary c 0
        else s
      | _, _ => s
    | none => s)

/-- RESTORE_IMAGE (R387): of a verified image into the FREE slice that LOAD_IMAGE named; NO_RESOURCE while the entropy source's health
tests fail (R376; log entries 24, 54). -/
def execRestoreImage (sl : Slice) (entropy : Bool) (s : State) : Host.Outcome State Fault Refusal :=
  .next (s.admin sl.toNat 0x8B true (fun e s =>
    match s.stagedImage with
    | some (k, body) =>
      let st := s.recStatus k.toNat false (sectionOf body 0x01)
      let st := if st = stSuccess && !entropy then stNoResource else st
      if st = stSuccess then (s.adminBegin sl.toNat e).act (.restore k body { e with begun := true }) else s.sliceDone sl.toNat e st
    | none => s.adminDone sl.toNat e stNotPermitted))

/-! ## The restore at its commit (R387) -/

/-- Queue definitions take effect stopped, in ownership-bit mode, with indices 0 (R53, R387). -/
def State.restoreQueue (s : State) (sl : Nat) (w : W64 × W64) : State :=
  let q := fld w.1 63 52
  s.updQueue (qKey sl q) (fun _ => {
    live := q != 0, legacy := fbit w.1 47, entryMax := 2 ^ fld w.1 46 44, own := true
    interval := BitVec.ofNat 8 (fld w.1 42 35), prio := BitVec.ofNat 3 (fld w.1 34 32), port := BitVec.ofNat 5 (fld w.1 31 27)
    chan := BitVec.ofNat 6 (fld w.1 26 21), cev := BitVec.ofNat 2 (fld w.1 20 19), errLimit := BitVec.ofNat 8 (fld w.1 18 11)
    nakLimit := BitVec.ofNat 8 (fld w.1 10 3), base := w.2, log2 := BitVec.ofNat 5 (fld w.1 51 48 + 3) })

/-- Channel settings, of the channels that the slice holds (R318, R387). -/
def State.restoreChan (s : State) (sl : Nat) (w : W64 × W64) : State :=
  let c := fld w.1 63 58
  let role := roleOf (fld w.1 57 56)
  if s.chanOwner c = sl then
    s.updChan c (fun _ => {
      role := role, share := fld w.1 55 49, cqLog2 := fld w.1 48 45, qshuf := BitVec.ofNat 8 (fld w.1 44 37), cqBase := w.2
      st := if role = .queue then .idle else .stopped })
  else s

/-- A registration or a WEFT_MIN value. -/
def State.restorePeriodic (s : State) (sl : Nat) (w : W64) : State :=
  let p := fld w 28 24
  if 16 ≤ p then s
  else if fbit w 23 then s.updSched p (fun x => { x with weftMin := x.weftMin.set sl (fld w 45 32) })
  else s.updSched p (fun x => { x with
    regs := x.regs ++ [{ slice := BitVec.ofNat 6 sl, handle := BitVec.ofNat 23 (fld w 22 0), interval := fld w 63 56
                         cnt := fld w 55 53, rty := fld w 52 51 }] })

/-- Bounds that the slice may set. -/
def State.restoreBound (s : State) (sl : Nat) (w : W64 × W64) : State :=
  let v : W32 × W32 := (BitVec.ofNat 32 (fld w.2 63 32), BitVec.ofNat 32 (fld w.2 31 0))
  if fbit w.1 0 then
    let a := fld w.1 63 49
    if s.actHolder sl a = some sl then s.updActBound (actKey sl a) (fun _ => some v) else s
  else
    let b := fld w.1 63 53
    if 0x280 ≤ b ∨ s.boundHolder b = some sl then s.updBound (boundKey sl b) (fun _ => some v) else s

/-- The route of a word in the Q1 layout. -/
def q1Route (w : W64) : Nat × List (BitVec 5) := (fld w 63 59, hopsOf (fld w 58 56) (fld w 55 31))

/-- A restore at its commit: definition, tables and definitions; programs and graphs go to the admission unit. The slice is FROZEN and
unbound, and its deadlines count from its thaw. -/
def State.restoreSlice (s : State) (sl : Nat) (body : List W64) (e : Entry) : State :=
  let sn := BitVec.ofNat 6 sl
  let s := s.defineSlice sl (SlRec.ofWords (sectionOf body 0x01))
  let s := (s.updSlice sl (fun x => { x with st := .frozen })).updSliceX sl (fun x => { x with since := some s.tick.n })
  let s := s.forAll (fun t w => t.setAttach (q1Route w).1 (q1Route w).2 (some (sn, fbit w 29))) (sectionOf body 0x02)
  let s := s.forAll (fun t w => t.updPlan (planKey sl (routeKey (q1Route w).1 (q1Route w).2)) (fun _ => some (w.setWidth 19))) (sectionOf body 0x03)
  let s := s.forAll (fun t w => t.restorePeriodic sl w) (sectionOf body 0x05)
  let s := s.forAll (fun t w => t.restoreBound sl w) (wordPairs (sectionOf body 0x07))
  let s := s.forAll (fun t w => t.updPin (fld w 22 0) (fun _ => some sn)) (sectionOf body 0x0B)
  let s := s.forAll (fun t w => t.restoreQueue sl w) (wordPairs (sectionOf body 0x08))
  let s := s.forAll (fun t w => t.restoreChan sl w) (wordPairs (sectionOf body 0x09))
  let eq := sectionOf body 0x0A
  let s := s.updEq sl (fun q => { q with base := eq.getD 0 0, log2 := (eq.getD 1 4).setWidth 5, run := false })
  let s := s.updKept (fun l => l.filter (fun k => !(SlRec.ofWords (sectionOf body 0x01)).idblk.getLsbD (k.1 / 131072)) ++
    (wordPairs (sectionOf body 0x0C)).map (fun w => (fld w.1 22 0, BitVec.ofNat 32 (fld w.1 63 32), w.2)))
  s.updAdmission (· ++ [{ slice := 0, entry := e, words := BitVec.ofNat 64 sl :: body }])

/-! ## The slice commands' effects at a commit (R360 to R388) -/

/-- An effect that the commit carries out. -/
def State.applyAct (s : State) : SliceAct → State
  | .define sl r => s.defineSlice sl.toNat r
  | .resize sl r => s.resizeSlice sl.toNat r
  | .bind sl l w p auto => s.bindSlice sl.toNat l w p auto
  | .unbind sl => s.unbindSlice sl.toNat
  | .freeze sl => s.freezeSlice sl.toNat false
  | .thaw sl => s.thawSlice sl.toNat
  | .release sl => s.releaseSlice sl.toNat
  | .attach p hops e => s.setAttach p.toNat hops e
  | .reset p hops => s.resetSegment p.toNat hops
  | .detach p hops => s.detachTree p.toNat hops
  | .kek sl id key => s.updSliceX sl.toNat (fun x => { x with kekId := some id, kek := key })
  | .restore sl body e => s.restoreSlice sl.toNat body e

/-- Carries out the effects of the tick's slice commands, in order. -/
def State.commitActs (s : State) : State :=
  let l := s.sliceActsNow
  if l = [] then s else (s.forAll State.applyAct l).updSliceActs (fun _ => [])

end Sys2Proof.Machine
end

