-- ==== Sys2Proof/Machine/Steward.lean ====
section
/-! DEFINITION. The steward's commands (10): dispatch, flows, timers, its admin commands, trace export, and the decisions that a
commit applies. -/
namespace Sys2Proof.Machine

open Sys2Proof

/-! ## Dispatch (R324, R326, R327, R330) -/

/-- An entry of the task may be dispatched on core `c`: its run limit leaves a run (R252), it is not held (R327), its graph runs, the
work of its slice runs (R380), and its flow has room for 8 values (R330; log entry 89). -/
def State.mayRun (s : State) (c t : Nat) : Bool :=
  let x := s.task t
  let g := s.graph x.graph.toNat
  x.live && decide ((s.coreAt c).runs.get 0 t < x.limit) && !s.taskHeld t && g.live && !g.stopped && s.works x.slice.toNat &&
    (match x.member with
     | some f => decide (8 ≤ flowRoom (s.flowAt f.toNat))
     | none => true)

/-- A task leaves the back-pressure bitmap of a core; the tasks that wait for it are held no longer by it (R327; log entry 110). -/
def State.leaveBitmap (s : State) (c t : Nat) : State :=
  let s := s.updCore c (fun y => { y with bitmap := y.bitmap.filter (fun k => k.toNat != t) })
  s.forAll (fun u k => u.updCore k (fun y => { y with held := y.held.filter (fun h => h.2.toNat != t) })) (List.range 4)

/-- A run begins (R192, R324, R325): the flags in M clear, but for a flow member, whose entry captured them. -/
def State.beginRun (s : State) (c : Nat) (e : ReadyE) : State :=
  let t := e.task.toNat
  let x := s.task t
  let g := s.graph x.graph.toNat
  let cyc := max (s.thread (coreThread c)).cycle (e.since - s.now * 12500)
  let flags := if x.member.isSome then e.flags else x.f
  let s := s.updTask t (fun y => { y with f := if x.member.isSome then y.f else y.f &&& ~~~y.m, last := BitVec.ofNat 2 c })
  let s := s.updCore c (fun y => { y with runs := Tab.upd 0 y.runs t (· + 1) })
  let s := s.updThread (coreThread c) (fun _ =>
    { running := true, code := g.code, pc := x.entry, cycle := cyc, begun := cyc, slice := x.slice, period := g.period
      task := e.task, flags := flags, place := e.place })
  let s := s.tr c cyc 0 t x.slice.toNat (placeArg e.place) flags
  if g.code.length ≤ x.entry then s.endRun c none else s

/-- The lowest back-pressured task enters the ready queue when it has room (R327; log entry 110). -/
def State.refill (s : State) (c : Nat) : State :=
  match (s.coreAt c).bitmap with
  | t :: _ =>
    if (s.coreAt c).queued < readyMax then
      let (e, s) := s.makeEntry t.toNat (s.thread (coreThread c)).cycle
      (s.updCore c (fun y => { y with ready := y.ready ++ [e] })).leaveBitmap c t.toNat
    else s
  | [] => s

/-- The spilled entry that a core dispatches next, with its graph: graph by graph, oldest first (R326, R328; log entry 110). -/
def State.nextSpilled (s : State) (c : Nat) : Option (Nat × ReadyE) :=
  firstSome (fun g => ((s.graph g).spill.find? (fun e => e.1.toNat == c && s.mayRun c e.2.task.toNat)).map (fun e => (g, e.2)))
    (s.graphs.map (·.1))

/-! ## The built-in policies as tasks 0 to 6 (R326, R334, R340) -/

/-- The core of a policy (R340). -/
def policyHome (k : Nat) : Nat :=
  match k with
  | 0 | 1 => 1
  | 2 | 6 => 0
  | 3 => 2
  | _ => 3

/-- The core on which a policy of core `c` runs: the next, counting upward, that is not contained (R334; log entry 106). -/
def State.policyCore (s : State) (c : Nat) : Option Nat :=
  ([c, (c + 1) % 4, (c + 2) % 4, (c + 3) % 4]).find? (fun k => !s.coreContained.get false k)

/-- The flags and the mask of a policy's task: the tick flag (R340). -/
def policyFlags : W32 := 0x80000000

/-- Policy `k` becomes ready with the tick flag, on the core that runs it (R323, R326, R340). -/
def State.policyReady (s : State) (k : Nat) : State :=
  match s.policyCore (policyHome k) with
  | some c =>
    (s.updCore c (fun y => { y with policies := insertTask (BitVec.ofNat 12 k) y.policies })).tr c 0 2 k 0 0 policyFlags
  | none => s

/-- The run of a policy ends: its cycles are not stated, but for the 1,200 that the policies of one core need at most in a tick (R334;
log entry 106). -/
def State.endPolicy (s : State) (c : Nat) : State :=
  match (s.coreAt c).run with
  | some k =>
    let h := policyHome k.toNat
    let n := s.free.toNat % (1200 - (s.coreAt h).polUsed + 1)
    let s := s.useFree.updThread (coreThread c) (fun x => { x with cycle := x.cycle + n })
    let s := s.updCore h (fun y => { y with polUsed := y.polUsed + n })
    let s := s.updCore c (fun y => { y with run := none, done := [], used := y.used + n })
    let s := { s with corePeak := Tab.upd 0 s.corePeak c (max (s.coreAt c).used) }
    s.tr c (s.thread (coreThread c)).cycle 1 k.toNat 0 n policyFlags
  | none => s

/-- The run of a policy begins (R326, R350). -/
def State.beginPolicy (s : State) (c : Nat) (k : Task) : State :=
  (s.updCore c (fun y => { y with policies := y.policies.filter (· != k), run := some k, done := [] })).tr
    c (s.thread (coreThread c)).cycle 0 k.toNat 0 0 policyFlags

/-- The core dispatches one entry of a graph in the order of R326. -/
def State.dispatchGraph (s : State) (c : Nat) : State :=
  match (s.coreAt c).bitmap.find? (fun t => s.mayRun c t.toNat) with
  | some t =>
    let (e, s) := s.makeEntry t.toNat (s.thread (coreThread c)).cycle
    (s.leaveBitmap c t.toNat).beginRun c e
  | none =>
    match s.nextSpilled c with
    | some (g, e) =>
      s.dramAccess (s.graph g).slice.toNat (s.graph g).pages (fun s =>
        (s.updGraph g (fun x => { x with spill := x.spill.erase (BitVec.ofNat 2 c, e) })).beginRun c e)
    | none =>
      match (s.coreAt c).ready.find? (fun e => s.mayRun c e.task.toNat) with
      | some e => ((s.updCore c (fun y => { y with ready := y.ready.erase e })).refill c).beginRun c e
      | none => s

/-- The core dispatches one entry in the order of R326: first the built-in policies. -/
def State.dispatch (s : State) (c : Nat) : State :=
  match (s.coreAt c).policies with
  | k :: _ => s.beginPolicy c k
  | [] => s.dispatchGraph c

/-- TASK_DISPATCH (R326): an idle core, within the window; a policy's run that was in progress on it is over. -/
def execTaskDispatch (c : Core) (s : State) : Host.Outcome State Fault Refusal :=
  .next (if s.working && s.domOn 11 && !(s.thread (coreThread c.toNat)).running && !s.coreContained.get false c.toNat then
      let s := s.endPolicy c.toNat
      if (s.thread (coreThread c.toNat)).cycle < 12000 then s.dispatch c.toNat else s
    else s)

/-! ## Ordered flows (R330) -/

/-- The values of the flow's next place go to its sink; the place is released when none is left (log entries 90, 93). -/
def State.releaseNext (s : State) (f cyc : Nat) : State :=
  let x := s.flowAt f
  let sink := x.sink.toNat
  let vs := (x.vals.filter (fun v => v.1 == x.next)).map (·.2)
  let (left, y) := releaseVals vs (s.task sink)
  let s := if (s.task sink).live && left.length != vs.length then s.updTask sink (fun _ => y) else s
  let rest := x.vals.filter (fun v => v.1 != x.next)
  let s :=
    if left = [] then
      (s.updFlow f (fun z => { z with vals := rest, next := x.next + 1, ended := z.ended.filter (· != x.next) })).tr
        (s.task sink).last.toNat cyc 0xA sink x.slice.toNat f x.next
    else s.updFlow f (fun z => { z with vals := left.map (fun v => (x.next, v)) ++ rest })
  if left.length != vs.length then s.evalTask sink cyc else s

/-- FLOW_RELEASE (R330): the next place has ended, and the sink is not running; at a cycle of the tick. -/
def execFlowRelease (f : Flow) (cyc : Cycle) (s : State) : Host.Outcome State Fault Refusal :=
  let x := s.flowAt f.toNat
  .next (if x.live && s.working && s.domOn 11 && x.ended.contains x.next && !s.taskRuns x.sink.toNat then s.releaseNext f.toNat cyc.toNat else s)

/-! ## Timers (R332) -/

/-- The core on whose delay list a timer of the pair is due: that of a contained core goes on firing (R332). -/
def State.timerDue (s : State) (t : Task) (flag : BitVec 5) : Option (Nat × TimerS) :=
  firstSome (fun c => ((s.coreAt c).timers.find? (fun m => m.task == t && m.flag == flag && decide (m.deadline.toNat ≤ s.now))).map
    (fun m => (c, m))) (List.range 4)

/-- The timers of a slice fire in this tick: its work runs, or is held only from the next tick on (R380, R515, R555). -/
def State.timersRun (s : State) (sl : Nat) : Bool := s.works sl || decide ((s.sliceXAt sl).since = some s.tick.n)

/-- TIMER_FIRE (R332, R380): at a commit, a timer whose deadline has come sets its flag in the committed state. -/
def execTimerFire (t : Task) (flag : BitVec 5) (s : State) : Host.Outcome State Fault Refusal :=
  .next (if s.tick.selvage && s.committed && s.domOn 11 && s.timersRun (s.task t.toNat).slice.toNat then
      match s.timerDue t flag with
      | some (c, m) =>
        let drop (y : CoreS) : CoreS := { y with timers := y.timers.filter (fun z => !(z.task == t && z.flag == flag)) }
        let set (y : TaskS) : TaskS := if y.live then { y with f := setBit y.f flag.toNat } else y
        let s := { s with
          cores := s.cores.set c ((Tab.get (Ver.of ({} : CoreS)) s.cores c).both drop)
          tasks := s.tasks.set t.toNat ((Tab.get (Ver.of ({} : TaskS)) s.tasks t.toNat).both set) }
        s.tr c 12033 9 t.toNat (s.task t.toNat).slice.toNat flag.toNat (m.deadline.setWidth 32)
      | none => s
    else s)

/-! ## Admin commands (R338, R339, R352) -/

/-- The slice sets the bound pair (R339, R352): 0x280 and on are each slice's own (log entry 109). -/
def State.boundMine (s : State) (sl b : Nat) : Bool := decide (0x280 ≤ b) || s.boundHolder b == some sl

/-- SET_BOUND (R339, R352; log entry 109). -/
def execSetBound (sl : Slice) (s : State) : Host.Outcome State Fault Refusal :=
  .next (s.admin sl.toNat 0x60 false (fun e s =>
    let b := fld e.q1 63 53
    let lo : W32 := BitVec.ofNat 32 (fld e.q2 63 32)
    let hi : W32 := BitVec.ofNat 32 (fld e.q2 31 0)
    if hi.toInt < lo.toInt ∨ (b < 0x300 ∧ boundDefault b = none) then s.adminDone sl.toNat e stMalformed
    else if s.boundMine sl.toNat b then
      (s.updBound (boundKey sl.toNat b) (fun _ => some (lo, hi))).adminDone sl.toNat e stSuccess
    else s.adminDone sl.toNat e stNotPermitted))

/-- New bounds of SHED_PRIO clamp its value (R433). -/
def State.clampPrio (s : State) (a : Nat) (lo hi : W32) : State :=
  if a < 128 ∧ a % 8 = 2 then
    (s.updPSet (a / 8) (fun x => { x with shedPrio := min 15 (clamp lo hi (BitVec.ofNat 32 x.shedPrio)).toNat })).ownerSets a
  else s

/-- SET_ACT_BOUND (R338, R352, R433; log entry 109). -/
def execSetActBound (sl : Slice) (s : State) : Host.Outcome State Fault Refusal :=
  .next (s.admin sl.toNat 0x61 false (fun e s =>
    let a := fld e.q1 63 49
    let lo : W32 := BitVec.ofNat 32 (fld e.q2 63 32)
    let hi : W32 := BitVec.ofNat 32 (fld e.q2 31 0)
    if hi.toInt < lo.toInt then s.adminDone sl.toNat e stMalformed
    else if actrOk a && s.actHolder sl.toNat a == some sl.toNat then
      ((s.updActBound (actKey sl.toNat a) (fun _ => some (lo, hi))).clampPrio a lo hi).adminDone sl.toNat e stSuccess
    else s.adminDone sl.toNat e stNotPermitted))

/-- GRAPH_CTL (R349, R352): through the admission unit in its turn (log entry 100). -/
def execGraphCtl (sl : Slice) (s : State) : Host.Outcome State Fault Refusal :=
  .next (s.admin sl.toNat 0x62 false (fun e s =>
    { s.adminBegin sl.toNat e with
      admission := s.admission.upd s.e (· ++ [{ slice := sl, entry := { e with begun := true }, words := [] }]) }))

/-- The task is one of the slice's. -/
def State.taskMine (s : State) (sl t : Nat) : Bool := (s.task t).live && (s.task t).slice.toNat == sl

/-- SET_FLAG (R323, R352): at its commit (log entry 108). -/
def execSetFlag (sl : Slice) (s : State) : Host.Outcome State Fault Refusal :=
  .next (s.admin sl.toNat 0x63 false (fun e s =>
    let t := fld e.q1 63 52
    if s.taskMine sl.toNat t then
      ({ s with flagSets := s.flagSets ++ [(BitVec.ofNat 12 t, BitVec.ofNat 5 (fld e.q1 51 47))] } : State).adminDone
        sl.toNat e stSuccess
    else s.adminDone sl.toNat e stNotPermitted))

/-- The 72 bytes of READ_TASK: F and M, then the state words; the 72 bytes have no room for the condition (log entry 52). -/
def taskBytes (x : TaskS) : List Byte :=
  leBytes 4 x.f.toNat ++ leBytes 4 x.m.toNat ++ (List.range 16).flatMap (fun k => leBytes 4 (x.words.get 0 k).toNat)

/-- READ_TASK (R352; log entry 52). -/
def execReadTask (sl : Slice) (s : State) : Host.Outcome State Fault Refusal :=
  .next (s.admin sl.toNat 0x64 false (fun e s =>
    let t := fld e.q1 63 52
    if s.taskMine sl.toNat t then (s.adminBytes sl.toNat e.q2 (taskBytes (s.comTask t))).adminDone sl.toNat e stSuccess
    else s.adminDone sl.toNat e stNotPermitted))

/-- READ_SNAPSHOT (R352): items that the slice may not read are written as 0x8000_0000. -/
def execReadSnapshot (sl : Slice) (s : State) : Host.Outcome State Fault Refusal :=
  .next (s.admin sl.toNat 0x65 false (fun e s =>
    let first := fld e.q1 63 48
    let n := fld e.q1 47 40
    if n = 0 then s.adminDone sl.toNat e stMalformed
    else
      let item (k : Nat) : W32 := if s.itemRight sl.toNat k then s.snapshot.get 0x80000000 k else 0x80000000
      (s.adminBytes sl.toNat e.q2 ((List.range n).flatMap (fun i => leBytes 4 (item (first + i)).toNat))).adminDone
        sl.toNat e stSuccess))

/-- TRACE_EXPORT (R351, R352): starts or stops a stream. -/
def execTraceExport (sl : Slice) (s : State) : Host.Outcome State Fault Refusal :=
  .next (s.admin sl.toNat 0x66 false (fun e s =>
    let c := fld e.q1 63 58
    let l2 := fld e.q1 57 53
    let k := fld e.q1 50 48
    let x := s.stream k
    if fbit e.q1 52 then
      if l2 < 8 ∨ 20 < l2 ∨ e.q2.toNat % 4096 ≠ 0 then s.adminDone sl.toNat e stMalformed
      else if (fbit e.q1 51 && sl != 0) || s.chanOwner c != sl.toNat || (s.chan c).role != .xport then
        s.adminDone sl.toNat e stNotPermitted
      else if x.run && x.slice != sl then s.adminDone sl.toNat e stNoResource
      else
        let y : Stream :=
          { run := true, slice := sl, all := fbit e.q1 51, chan := BitVec.ofNat 6 c, log2 := l2, base := e.q2, since := s.tick.n }
        (s.updStream k (fun _ => y)).adminDone sl.toNat e stSuccess
    else if x.run && x.slice != sl then s.adminDone sl.toNat e stNotPermitted
    else (s.updStream k (fun y => { y with run := false, held := [] })).adminDone sl.toNat e stSuccess))

/-- READ_TRACE_STAT (R352): TRACE_LOST in C2, the records exported in C3. -/
def execReadTraceStat (sl : Slice) (s : State) : Host.Outcome State Fault Refusal :=
  .next (s.admin sl.toNat 0x67 false (fun e s =>
    let x := s.stream (fld e.q1 50 48)
    if x.slice = sl then s.adminDone sl.toNat e stSuccess (x.lost.setWidth 64) (x.written.setWidth 64)
    else s.adminDone sl.toNat e stNotPermitted))

/-! ## Trace export (R350, R351) -/

/-- A trace record as two words (R350). -/
def TraceRec.words (r : TraceRec) : List W64 :=
  [BitVec.ofNat 64 (r.tick.toNat * 2 ^ 32 + r.cycle.toNat * 2 ^ 18 + r.core.toNat * 2 ^ 16 + r.kind.toNat * 2 ^ 12 + r.task.toNat),
   BitVec.ofNat 64 (r.slice.toNat * 2 ^ 58 + r.arg.toNat * 2 ^ 40 + r.cause.toNat * 2 ^ 32 + r.val.toNat)]

/-- TRACE_BLOCK (R351): 256 records, or after 64 ticks those that the stream holds, as one descriptor; TAG is the block's index (log entry
111). -/
def execTraceBlock (k : BitVec 3) (s : State) : Host.Outcome State Fault Refusal :=
  let x := s.stream k.toNat
  let c := x.chan.toNat
  let rs := x.held.take 256
  .next (if x.run && s.working && (decide (256 ≤ x.held.length) || (!x.held.isEmpty && decide (x.since.toNat + 64 ≤ s.now))) &&
        s.exportFree c && s.chanOwner c == x.slice.toNat && s.chanWorks c then
      let s := s.startExport c (.trace k.toNat) (x.base + BitVec.ofNat 64 (x.block * 4096)) x.block
        (wordBytes (rs.flatMap TraceRec.words))
      s.updStream k.toNat (fun y => { y with
        held := y.held.drop rs.length, block := (x.block + 1) % (2 ^ x.log2 / 256), since := s.tick.n
        written := y.written + BitVec.ofNat 32 rs.length })
    else s)

/-! ## Decisions at a commit (R15, R17, R19, R335, R338) -/

/-- A built-in policy acted on a port or bridge of a slice (R354). -/
def State.policyActed (s : State) (task : Task) (sl : Nat) : State := if task.toNat < 32 then s.stwEventSet sl 4 else s

/-- PORT_ON of the shedding policy: what it shed, and its event (R340, R341, R394). -/
def State.shedDecided (s : State) (p : Nat) (on : Bool) : State :=
  let o := s.portOwner p
  if on then
    (s.updPolicy (fun y => { y with restoredAt := some s.tick.n })).policyEvent o p 0x05 0 0
  else (s.updFuse p (fun f => { f with shedDraw := portPower f })).policyEvent o p 0x04 0 0

/-- A decision takes effect. -/
def State.applyDecision (s : State) (d : Decision) : State :=
  let a := d.actr.toNat
  let p := a / 8
  if a < 128 then
    let s := s.policyActed d.task (s.portOwner p)
    match a % 8 with
    | 0 =>
      let s := s.updPSet p (fun x => { x with on := d.val != 0, offCause := if d.task = 2 then .shed else .offCmd, onSet := true })
      if d.task = 2 then s.shedDecided p (d.val != 0) else s
    | 1 =>
      let was := (s.psetAt p).ilim
      let s := s.updPSet p (fun x => { x with ilim := d.val.toNat })
      if d.task = 3 then s.policyEvent (s.portOwner p) p (if d.val.toNat < was then 0x06 else 0x07) 0 d.val.toNat else s
    | 2 => s.updPSet p (fun x => { x with shedPrio := min 15 d.val.toNat })
    | _ =>
      if d.val = 1 then
        let s := s.updPort p (fun x => { x with disableNow := true })
        if d.task = 0 then
          let o := s.portOwner p
          let s := s.policyEvent o p 0x01 0 0
          if o = 0 then s else s.policyEvent 0 p 0x01 0 0
        else s
      else s
  else if a < 0x300 then
    let s := match s.bridgeOwner (a - 0x200) with
      | some o => s.policyActed d.task o
      | none => s
    s.updBridge (a - 0x200) (fun b => { b with pace := d.val.toNat })
  else s.occur (srcKey d.slice.toNat 14 (a - 0x300)) (d.val.setWidth 64)

/-- A decision at its commit: a hardware switch-off of the port in the tick stands (R17), and so does the owner's own setting (R19). -/
def State.commitDecision (s : State) (d : Decision) : State :=
  let a := d.actr.toNat
  let hw := decide (a < 128) && (s.fuse (a / 8)).tripped && ((a % 8 == 0 && d.val != 0) || a % 8 == 1)
  if hw then s.superseded d 12032 1
  else if s.ownerSet.contains d.actr then s.superseded d 12032 2
  else s.applyDecision d

/-- The decisions and the flags that a commit sets (R15, R323; log entry 108). -/
def State.commitSteward (s : State) : State :=
  let s := s.forAll State.commitDecision s.decisions
  let s := s.forAll (fun t x => t.updTask x.1.toNat (fun y => if y.live then { y with f := setBit y.f x.2.toNat } else y)) s.flagSets
  { s with decisions := [], flagSets := [], ownerSet := [] }

end Sys2Proof.Machine
end

