-- ==== Sys2Proof/Machine/Policies.lean ====
section
/-! DEFINITION. The built-in policies of the steward (10 R339 to R346): each decides from the snapshot of the previous tick. -/
namespace Sys2Proof.Machine

open Sys2Proof

/-- An item of the snapshot, if it was measured (R336). -/
def State.measured (s : State) (item : Nat) : Option W32 :=
  match s.snapshot.find item with
  | some v => if v = 0x80000000 then none else some v
  | none => none

/-- The POLICY bit of a port for a policy (R339; log entry 106). -/
def State.policyOn (s : State) (p bit : Nat) : Bool := (s.boundOf (s.portOwner p) (p * 16)).1.getLsbD bit

/-- The parameters of pair `k` of a port (R339). -/
def State.portPair (s : State) (p k : Nat) : W32 × W32 := s.boundOf (s.portOwner p) (p * 16 + k)

/-- The core on which the run of policy `k` is in progress. -/
def State.policyRuns (s : State) (k : Nat) : Option Nat :=
  (List.range 4).find? (fun c => (s.coreAt c).run == some (BitVec.ofNat 12 k))

/-- Policy `k` looks at a port, registration, context, bridge slot or feeder: within its run of the tick (R340), once (log entry 106). -/
def State.runPolicy (s : State) (k key : Nat) (f : Nat → State → State) : State :=
  if s.working && s.domOn 11 then
    match s.policyRuns k with
    | some c =>
      if (s.coreAt c).done.contains key then s else f c (s.updCore c (fun y => { y with done := key :: y.done }))
    | none => s
  else s

/-- The POLICY trace record of policy `k` on a port, bridge slot or handle (R350). -/
def State.policyTrace (s : State) (core k sl arg : Nat) : State :=
  s.tr core (s.thread (coreThread core)).cycle 0xB k sl k (BitVec.ofNat 32 arg)

/-- A decision of policy `k` on a port actuator. -/
def State.policyDecides (s : State) (core k p actr v : Nat) : State :=
  (s.policyTrace core k (s.portOwner p) p).decideOn k (s.portOwner p) actr (BitVec.ofNat 32 v) core
    (s.thread (coreThread core)).cycle

/-! ## Port isolation (R340) -/

/-- The condition of isolation: an insulation measurement of a Field port below its minimum, or more surges than allowed. -/
def State.isolates (s : State) (p : Nat) : Bool :=
  let b := s.portPair p 1
  (match s.measured (portItem p 9) with
   | some v => decide ((s.port p).declared = .field) && b.1 != 0 && decide (v.toInt < b.1.toInt)
   | none => false) ||
  (match s.measured (portItem p 8) with
   | some v => b.2 != 0 && decide (b.2.toInt < v.toInt)
   | none => false)

/-- PORT_ISOLATION (R340): task 0. -/
def execPortIsolation (p : Port) (s : State) : Host.Outcome State Fault Refusal :=
  let k := p.toNat
  .next (s.runPolicy 0 k (fun c s =>
    if s.policyOn k 0 && s.isolates k && !decide ((s.port k).st = .disabled ∨ (s.port k).st = .contained) then
      s.policyDecides c 0 k (actIsolate k) 1
    else s))

/-! ## Poll back-off (R342) -/

/-- The registration of a handle on a port. -/
def State.regOf (s : State) (p h : Nat) : Option PReg := (s.schedAt p).regs.find? (fun r => r.handle.toNat == h)

/-- A back-off change goes to the admission unit in its turn; the registration changes no more for 64 ticks (log entry 105). -/
def State.askBackoff (s : State) (core sl h cur n : Nat) : State :=
  let s := (s.policyTrace core 1 sl h).updPolicy (fun y => { y with backoff := y.backoff.set h (cur, s.tick.n, 0) })
  s.updAdmission (· ++ [{ slice := BitVec.ofNat 6 sl
                          entry := { pos := 0, units := 0, q0 := 0, q1 := 0, q2 := 0, q3 := 0, tick := s.tick.n }
                          words := [BitVec.ofNat 64 h, BitVec.ofNat 64 n] }])

/-- The back-off policy on a registration: the interval doubles when the committed ERR_RUN has reached the threshold, and halves after
64 consecutive DONE (log entry 105). -/
def State.backoffReg (s : State) (core p : Nat) (r : PReg) (i : Nat) : State :=
  let h := r.handle.toNat
  let b := s.portPair p 2
  let own := if (s.port p).speed = .field then max 8 (floorPow r.interval) else floorPow r.interval
  let x := s.policyNow.backoff.get (own, 0, 0) h
  let cur := max own x.1
  let held := (s.policyNow.backoff.find h).isSome && decide (s.now < x.2.1.toNat + 64)
  let up := min (2 * cur) (floorPow (max 1 b.2.toNat))
  if held then s
  else if b.1 ≠ 0 ∧ b.1.toNat ≤ (s.comCtx i).errRun.toNat ∧ cur < up then s.askBackoff core r.slice.toNat h cur up
  else if own < cur ∧ 64 ≤ x.2.2 then s.askBackoff core r.slice.toNat h cur (cur / 2)
  else s

/-- The period of an owner's own program that names the context (log entry 105). -/
def State.ownPeriod (s : State) (p i : Nat) : Option Nat :=
  (((s.schedAt p).progs.filter (fun g => (g.2.named.find i).isSome)).head?).map (fun g => 2 ^ g.2.period)

/-- POLL_BACKOFF (R342): task 1. For an endpoint that only an owner's own program names it raises advice (log entry 105). -/
def execPollBackoff (p : Port) (handle : BitVec 23) (s : State) : Host.Outcome State Fault Refusal :=
  let k := p.toNat
  let h := handle.toNat
  .next (s.runPolicy 1 (k * 2 ^ 23 + h) (fun c s =>
    match s.ctxOfHandle h with
    | some i =>
      if s.policyOn k 1 && (s.ctx i).port.toNat == k then
        match s.regOf k h with
        | some r => s.backoffReg c k r i
        | none =>
          match s.ownPeriod k i with
          | some n =>
            let b := s.portPair k 2
            let x := s.policyNow.backoff.get (n, 0, 0) h
            let held := (s.policyNow.backoff.find h).isSome && decide (s.now < x.2.1.toNat + 64)
            let up := min (2 * x.1) (floorPow (max 1 b.2.toNat))
            if !held && b.1 != 0 && decide (b.1.toNat ≤ (s.comCtx i).errRun.toNat) then
              let sl := (s.ctx i).slice.toNat
              ((s.policyTrace c 1 sl h).updPolicy (fun y => { y with backoff := y.backoff.set h (n, s.tick.n, 0) })).policyEvent
                sl k 0x03 h up
            else s
          | none => s
      else s
    | none => s))

/-! ## Power shedding (R341) -/

/-- The budget in 0.1 W: reduced by a quarter while the supply is at its temperature limit; none when S0 disables it. -/
def State.shedBudget (s : State) : Option Nat :=
  let w := min 400 (s.boundOf 0 0x101).1.toNat
  let lim := (s.boundOf 0 0x102).1
  let hot := lim != 0 && (match s.measured 6 with
    | some t => decide ((lim.toNat * 10 : Int) ≤ t.toInt)
    | none => false)
  if w = 0 then none else some (if hot then w * 10 * 3 / 4 else w * 10)

/-- Brownout holds after `n` consecutive ticks below the threshold. -/
def State.brownout (s : State) (run : Nat) : Bool :=
  let b := s.boundOf 0 0x100
  b.1 != 0 && b.2 != 0 && decide (b.2.toNat ≤ run)

/-- The consecutive ticks below the brownout threshold, with the snapshot. -/
def State.brownRunNow (s : State) : Nat :=
  match s.measured 1 with
  | some v => if v.toNat < (s.boundOf 0 0x100).1.toNat * 10 then s.policyNow.brownRun + 1 else 0
  | none => 0

/-- Total port power exceeds the budget. -/
def State.overloaded (s : State) : Bool :=
  match s.shedBudget, s.measured 3 with
  | some b, some t => decide (b < t.toNat)
  | _, _ => false

/-- The port that the policy restores: shed by it or by the sequencer (R436), of highest SHED_PRIO, when its draw fits below the budget
less the margin; no budget, no check (R339). -/
def State.restorable (s : State) : Option Nat :=
  let shed := s.shedList.reverse.filter (fun p => s.policyNow.shedPorts.contains p && s.policyOn p 2)
  match shed, s.shedBudget, s.measured 3 with
  | p :: _, none, _ => some p
  | p :: _, some b, some t =>
    if t.toNat + (s.fuse p).shedDraw + (s.boundOf 0 0x101).2.toNat * 10 < b then some p else none
  | _, _, _ => none

/-- POWER_SHEDDING (R341): task 2, once in a tick. -/
def execPowerShedding (s : State) : Host.Outcome State Fault Refusal :=
  .next (s.runPolicy 2 0 (fun c s =>
    if s.policyNow.shedRan = some s.tick.n then s
    else
      let order := s.shedList
      let run := s.brownRunNow
      let s := (s.updPolicy (fun y => { y with brownRun := run, shedRan := some s.tick.n })).updShedOrder
        (fun _ => order.map (BitVec.ofNat 4))
      if s.brownout run || s.overloaded then
        match order.find? (fun p => s.powered p && decide ((s.comPSet p).shedPrio < 15) && (s.comPSet p).on && s.policyOn p 2) with
        | some p => s.policyDecides c 2 p (actPortOn p) 0
        | none => s
      else
        match s.restorable with
        | some p =>
          if (match s.policyNow.restoredAt with
              | some t => decide (s.now < t.toNat + 80)
              | none => false) then s
          else s.policyDecides c 2 p (actPortOn p) 1
        | none => s))

/-! ## Thermal derating (R343) -/

/-- The larger of the sensor and model temperatures of a port, in 0.1 °C. -/
def State.portTemp (s : State) (p : Nat) : Option Int :=
  optBy max ((s.measured (portItem p 3)).map (·.toInt)) ((s.measured (portItem p 4)).map (·.toInt))

/-- THERMAL_DERATING (R343): task 3. -/
def execThermalDerating (p : Port) (s : State) : Host.Outcome State Fault Refusal :=
  let k := p.toNat
  .next (s.runPolicy 3 k (fun c s =>
    let step := (s.portPair k 3).1.toNat
    let lim := (s.comPSet k).ilim
    let lo := (s.actBoundOf (s.portOwner k) (actIlim k)).1.toNat
    let hi := (s.actBoundOf (s.portOwner k) (actIlim k)).2.toNat
    match s.portTemp k with
    | some t =>
      if s.policyOn k 3 = false ∨ step = 0 then s
      else if 1350 ≤ t then
        if lo < lim then s.policyDecides c 3 k (actIlim k) (max lo (lim - step)) else s
      else if t ≤ 1350 - (s.portPair k 3).2.toInt ∧ lim < hi ∧ (match s.policyNow.raised.find k with
          | some at0 => decide (at0.toNat + 8 ≤ s.now) || decide (at0 = s.tick.n)
          | none => true) = true then
        (s.updPolicy (fun y => { y with raised := y.raised.set k s.tick.n })).policyDecides c 3 k (actIlim k) (min hi (lim + step))
      else s
    | none => s))

/-! ## Context pinning (R344) -/

/-- CONTEXT_PINNING (R344): task 4. -/
def execContextPinning (i : CtxIdx) (s : State) : Host.Outcome State Fault Refusal :=
  .next (s.runPolicy 4 i.toNat (fun c s =>
    let x := s.ctx i.toNat
    let h := x.handle.toNat
    let sl := x.slice.toNat
    let p := x.port.toNat
    let b := s.portPair p 4
    let n := ((s.policyNow.delays.get [] i.toNat).filter (fun t => decide (s.now ≤ t.toNat + 64))).length
    if x.st = .free ∨ 16 ≤ p ∨ s.policyOn p 4 = false then s
    else if s.policyNow.pinned.contains h then
      if b.2 ≠ 0 ∧ x.lastSvc.toNat + b.2.toNat ≤ s.now then
        (((s.unpinCtx h i.toNat).updPolicy (fun y => { y with pinned := y.pinned.filter (· != h) })).policyTrace c 4 sl h)
      else s
    else if b.1 ≠ 0 ∧ b.1.toNat ≤ n ∧ (s.pinAt h).isNone = true then
      if s.pinFull sl i.toNat then s.policyTrace c 4 sl h
      else (((s.pinCtx sl h i.toNat).updPolicy (fun y => { y with pinned := h :: y.pinned })).policyTrace c 4 sl h)
    else s))

/-! ## Radio pacing (R345) -/

/-- PACE_RATE after a period (R345). -/
def nextPace (rate target : Nat) (timedOut : Bool) (mean : Option Nat) (outstanding : Bool) : Nat :=
  if timedOut then rate / 2
  else match mean with
    | some m =>
      if target ≠ 0 ∧ target < m then rate * 3 / 4
      else if target ≠ 0 ∧ 2 * m < target ∧ outstanding = true then rate + rate / 8 + 1
      else rate
    | none => rate

/-- RADIO_PACING (R345): task 5, every 64 ticks. -/
def execRadioPacing (b : BitVec 6) (s : State) : Host.Outcome State Fault Refusal :=
  let k := b.toNat
  .next (s.runPolicy 5 k (fun c s =>
    match s.bridgeOwner k with
    | some o =>
      if s.now % 64 = 0 then
        let x := s.bridge k
        let r := nextPace x.pace (s.boundOf o (0x200 + k)).1.toNat x.timedOut ((s.measured (bridgeItem k 3)).map (·.toNat))
          (match s.measured (bridgeItem k 2) with
           | some v => v != 0
           | none => false)
        if r = x.pace then s.updBridge k (fun y => { y with timedOut := false })
        else
          (((s.updBridge k (fun y => { y with timedOut := false })).policyTrace c 5 o k).decideOn 5 o (0x200 + k) (BitVec.ofNat 32 (max 1 r)) c
            (s.thread (coreThread c)).cycle)
      else s
    | none => s))

/-! ## Load-shed notices (R346) -/

/-- LOAD_SHED_NOTICE (R346): task 6; nothing while the cartridge is absent. -/
def execLoadShedNotice (sl : Slice) (f : BitVec 2) (s : State) : Host.Outcome State Fault Refusal :=
  let k := sl.toNat * 4 + f.toNat
  .next (s.runPolicy 6 k (fun c s =>
    let b := s.boundOf sl.toNat (0x280 + f.toNat)
    match s.measured (0x805 + f.toNat * 8), s.measured (0x807 + f.toNat * 8) with
    | some d, some n =>
      if b.1 = 0 ∨ s.measured 0x844 ≠ some 1 then s
      else
        let lim : Int := b.1.toInt * 1000
        let x := s.policyNow.loadShed.get (false, none, none) k
        let note (code : Nat) (y : Bool × Option W32 × Option W32) (t : State) : State :=
          (((t.updPolicy (fun z => { z with loadShed := z.loadShed.set k y })).policyTrace c 6 sl.toNat f.toNat).policyEvent
            sl.toNat (0x80 + f.toNat) code 0 d.toNat)
        if lim < d.toInt then
          if x.2.1 = some n then s.updPolicy (fun z => { z with loadShed := z.loadShed.set k (true, x.2) })
          else note 0x08 (true, some n, x.2.2) s
        else if x.1 = true ∧ d.toInt * 100 ≤ lim * (100 - b.2.toInt) then
          if x.2.2 = some n then s.updPolicy (fun z => { z with loadShed := z.loadShed.set k (false, x.2) })
          else note 0x09 (false, x.2.1, some n) s
        else s
    | _, _ => s))

end Sys2Proof.Machine
end

