-- ==== Sys2Proof/Machine/Journal.lean ====
section
/-! DEFINITION. The flash journal (02 R51 to R53): what it holds of the committed state, and how changes become durable. -/
namespace Sys2Proof.Machine

open Sys2Proof

/-- The entries of a table under a change that keeps what is journaled, less those that say nothing. -/
def Tab.kept {α β : Type} [DecidableEq β] (d : β) (f : α → β) (t : Tab α) : Tab β := (t.mapV f).filter (fun e => decide (e.2 ≠ d))

/-- The entries that hold something. -/
def Tab.present {α : Type} (t : Tab (Option α)) : Tab α := t.filterMap (fun e => e.2.map (fun x => (e.1, x)))

/-- A queue's definition (R51, R53): restored stopped, in ownership-bit mode, with its indices at 0 (R280; log entry 14). -/
def QueueS.journal (x : QueueS) : QueueS :=
  { live := x.live, legacy := x.legacy, entryMax := x.entryMax, interval := x.interval, prio := x.prio, port := x.port, chan := x.chan
    cev := x.cev, errLimit := x.errLimit, nakLimit := x.nakLimit, base := x.base, log2 := x.log2 }

/-- A channel's settings (R318): a QUEUE channel is restored IDLE, another STOPPED (log entry 14). -/
def ChS.journal (x : ChS) : ChS :=
  { role := x.role, share := x.share, cqLog2 := x.cqLog2, qshuf := x.qshuf, cqBase := x.cqBase
    st := if x.role = .queue then .idle else .stopped }

/-- A port's power setting, with the SHED_PRIO in force (R418, R433; log entry 14). -/
def PortSet.journal (x : PortSet) : PortSet := { x with onSet := false, rearm := false, passClear := false }

/-- An admitted task, as it starts (R348; log entry 14). -/
def TaskS.journal (x : TaskS) : TaskS := { x with f := 0, m := 0, all := false, words := [], last := x.home }

/-- A flow, as it starts. -/
def FlowS.journal (x : FlowS) : FlowS := { x with place := 0, next := 0, vals := [], ended := [] }

/-- A graph, as admitted (R348; log entry 14). -/
def GraphS.journal (x : GraphS) : GraphS := { x with stopped := false, spill := [] }

/-- A port's schedule with the changes that are admitted (R246, R51; log entry 14). -/
def SchedS.journal (x : SchedS) : SchedS :=
  let y := x.changes.foldl (fun y c => c.2.apply y) x
  { y with changes := [], lastQ := [], lastSpeed := .none, changed := y.segs.isSome }

/-- What the journal holds of the committed state at an epoch (R51; log entry 14). -/
def State.journalNow (s : State) : Journal where
  slices := Tab.kept {} (Ver.comAt s.e) s.slices
  keys := Tab.kept (none, none) (fun x => (x.journalKey.map inFlash, x.kekId.map (fun i => (i, inFlash x.kek)))) s.sliceX
  pages := Tab.kept 0 (fun v => (v.comAt s.e).sl) s.pot
  attach := Tab.present (s.attach.mapV (Ver.comAt s.e))
  plan := Tab.present (s.plan.mapV (Ver.comAt s.e))
  pins := Tab.present (s.pins.mapV (Ver.comAt s.e))
  power := Tab.kept {} (fun v => (v.comAt s.e).journal) s.pset
  bounds := Tab.present (s.bounds.mapV (Ver.comAt s.e))
  actBounds := Tab.present (s.actBounds.mapV (Ver.comAt s.e))
  graphs := Tab.kept {} (fun v => (v.comAt s.e).journal) s.graphs
  tasks := Tab.kept {} (fun v => (v.comAt s.e).journal) s.tasks
  flows := Tab.kept {} (fun v => (v.comAt s.e).journal) s.flows
  sched := Tab.kept {} (fun v => (v.comAt s.e).journal) s.sched
  queues := Tab.kept {} (fun v => (v.comAt s.e).journal) s.queues
  chans := Tab.kept {} (fun v => (v.comAt s.e).journal) s.chans
  eqs := Tab.kept (0, 4, []) (fun q => (q.base, q.log2, q.holdoff)) s.eqs
  srcs := Tab.kept {} (Ver.comAt s.e) s.srcCfg
  domCtl := Tab.kept (false, .on) (fun d => (d.auto, d.req)) s.doms
  probes := Tab.kept (0, 6600, true) (fun x => (x.interval, x.vf, x.irEn)) s.probes
  relay := s.relay
  warden := s.warden.comAt s.e
  wmAddr := s.watch.addr
  wmBaud := s.watch.baud

/-- The last state that was appended to the journal, durable or not. -/
def State.lastJournal (s : State) : Journal :=
  match s.jwait.getLast? with
  | some x => x.2
  | none => s.durable

/-- JOURNAL_EPOCH (R52): EPOCH while nothing awaits the flash, else the epoch before that of the oldest change that waits. -/
def State.journalEpochNow (s : State) : W32 :=
  match s.jwait with
  | [] => s.e
  | x :: _ => x.1 - 1

/-- JOURNAL_EPOCH follows. -/
def State.setJournalEpoch (s : State) : State := { s with tick := { s.tick with journalEpoch := s.journalEpochNow } }

/-- After a commit (R51, R52, R458): a change of journaled state is appended, and wakes PD9; while a cold start restores the journal,
nothing is (R464; log entry 14). -/
def State.commitJournal (s : State) : State :=
  let j := s.journalNow
  if s.supply.restoring = true ∨ j = s.lastJournal then s.setJournalEpoch
  else ({ s with jwait := s.jwait ++ [(s.e, j)] } : State).setJournalEpoch.wakeRet 9 1 (s.now * 12500 + 12033)

/-- JOURNAL_DURABLE (R52): the oldest change that waits is in the flash. -/
def execJournalDurable (s : State) : Host.Outcome State Fault Refusal :=
  .next (match s.jwait with
    | (_, j) :: t => if s.domOn 9 then ({ s with durable := j, jwait := t } : State).setJournalEpoch else s
    | [] => s)

end Sys2Proof.Machine
end

