-- ==== Sys2Proof/Machine/Metrology.lean ====
section
/-! DEFINITION. The metrology receiver and the raw sample streams (15). -/
namespace Sys2Proof.Machine

open Sys2Proof

/-- A change of the receiver's record. -/
def State.updMet (s : State) (f : MetS → MetS) : State := { s with met := f s.met }

/-- Sets bit `i` of MET_EVENT (R492). -/
def State.metEvent (s : State) (i : Nat) : State := s.updMet (fun x => { x with event := setBit x.event i })

/-- What the cartridge's received values are now: those that wait for a commit, else the committed ones (R477). -/
def State.metFresh (s : State) : MetPub := s.met.fresh.getD s.metNow

/-- A change of the received values that wait for the next commit. -/
def State.updFresh (s : State) (f : MetPub → MetPub) : State := s.updMet (fun x => { x with fresh := some (f s.metFresh) })

/-! ## The raw sample streams (R488, R489) -/

/-- The sets of a block (R488). -/
def rawSets : Nat := 85

/-- A missing sample set: each of its 16 channels 0x80_0000 (R488). -/
def gapSet : List Byte := (List.replicate 16 [(0 : Byte), 0, 0x80]).flatten

/-- Bit f of [7:4] of H1: feeder f has 1 A inputs, as EP5 tells (R484, R488). -/
def oneAmp (ep5 : List Byte) : Nat :=
  ((List.range 4).map (fun f => if leAt ep5 (24 + 4 * f + 2) 1 = 1 then 2 ^ (4 + f) else 0)).sum

/-- A block of 4,096 bytes: its header and its sets, then zeros (R488). -/
def RawS.block (x : RawS) (ep5 : List Byte) : List Byte :=
  padTo 4096 (leBytes 8 (x.validSets * 2 ^ 48 + x.first.toNat) ++
    leBytes 8 ((if x.free then 1 else 0) + (if x.gap then 2 else 0) + oneAmp ep5) ++ x.sets.flatten)

/-- The block in progress ends: it is held on the die, or lost when two blocks are held already (R489). -/
def RawS.close (ep5 : List Byte) (x : RawS) : RawS :=
  let x := if x.held.length < 2 then { x with held := x.held ++ [x.block ep5] } else { x with lost := satInc x.lost }
  { x with sets := [], validSets := 0, free := false, gap := false }

/-- One more set of a running stream: a full block ends. -/
def RawS.add (tick : BitVec 48) (set : List Byte) (valid freeRun : Bool) (ep5 : List Byte) (x : RawS) : RawS :=
  if x.run then
    let x := { x with
      first := if x.sets = [] then tick else x.first, sets := x.sets ++ [set]
      validSets := if valid then x.validSets + 1 else x.validSets, free := x.free || freeRun, gap := x.gap || !valid }
    if rawSets ≤ x.sets.length then x.close ep5 else x
  else x

/-- The sample set of a tick goes to every running stream; a missing one is marked GAP (R489). -/
def State.addSet (s : State) (tick : BitVec 48) (set : Option (List Byte)) (freeRun : Bool) : State :=
  { s with raws := s.raws.mapV (RawS.add tick (set.getD gapSet) set.isSome freeRun s.metFresh.ep5) }

/-- RAW_CTL_WRITE (R489, R493): held for the commit. -/
def execRawCtlWrite (l : Link) (w : BitVec 4) (v : W32) (s : State) : Host.Outcome State Fault Refusal :=
  .next (s.windowWrite l.toNat w.toNat 0x0400 v)

/-- A committed write of RAW_CTL (R489, R493): a start is refused when four streams run, for a channel that is not an EXPORT
channel of the slice, and for a ring out of range; a stop writes the block in progress. Blocks that a new start finds unwritten are lost
(log entry 76). -/
def State.applyRawCtl (s : State) (sl : Nat) (v : W32) : State :=
  let x := s.raw sl
  let c := v.toNat / 2 ^ 24 % 64
  let l2 := v.toNat % 16
  if x.run then
    if v.getLsbD 31 then s
    else s.updRaw sl (fun x => { (if x.sets = [] then x else x.close s.metFresh.ep5) with run := false })
  else
    let s := s.updRaw sl (fun x => { x with chan := BitVec.ofNat 6 c, log2 := l2 })
    if v.getLsbD 31 then
      if 4 ≤ (s.raws.filter (fun r => r.2.run)).length ∨ s.chanOwner c ≠ sl ∨ (s.chan c).role ≠ .xport ∨ l2 < 4 ∨ 12 < l2 then
        s.updRaw sl (fun x => { x with refused := true })
      else s.updRaw sl (fun x => { x with
        run := true, index := 0, sets := [], validSets := 0, free := false, gap := false, held := []
        lost := x.held.foldl (fun n _ => satInc n) x.lost })
    else s

/-- A committed write of a half of RAW_BASE (R493): ignored while RUN is 1. -/
def State.applyRawBase (s : State) (sl : Nat) (hi : Bool) (v : W32) : State :=
  s.updRaw sl (fun x =>
    if x.run then x
    else if hi then { x with base := BitVec.ofNat 64 (v.toNat * 2 ^ 32 + x.base.toNat % 2 ^ 32) }
    else { x with base := BitVec.ofNat 64 (x.base.toNat / 2 ^ 32 * 2 ^ 32 + v.toNat / 4096 * 4096) })

/-- RAW_BLOCK (R489): the oldest held block goes out as one descriptor, its record's TAG its index in the ring. -/
def execRawBlock (sl : Slice) (s : State) : Host.Outcome State Fault Refusal :=
  let x := s.raw sl.toNat
  let c := x.chan.toNat
  .next (match x.held with
    | b :: t =>
      if s.exportFree c = true ∧ s.chanOwner c = sl.toNat ∧ s.chanWorks c = true then
        let s := s.startExport c (.raw sl) (x.base + BitVec.ofNat 64 (x.index * 4096)) x.index b
        s.updRaw sl.toNat (fun x => { x with held := t, index := (x.index + 1) % 2 ^ x.log2 })
      else s
    | [] => s)

/-! ## Frames (R474 to R477) -/

/-- STATUS bits that changed raise their events: CHECKSUM_FAULT set, PARAM_OPEN changed (R480, R492). -/
def State.metStatus (s : State) (v : W16) : State :=
  let was := s.met.status
  let s := if v.getLsbD 2 && !was.getLsbD 2 then s.metEvent 4 else s
  let s := if v.getLsbD 1 != was.getLsbD 1 then s.metEvent 3 else s
  s.updMet (fun x => { x with status := v })

/-- `n` bytes, each a free value (log entries 6, 94). -/
def State.freeBytes (s : State) (n : Nat) : List Byte := (List.range n).map (fun i => (Config.freeValue (s.freeCount + i)).setWidth 8)

/-- EP1 as it stands before a frame: what no page 0 has brought yet is free (log entries 6, 94). -/
def State.ep1Held (s : State) : List Byte :=
  if s.metFresh.ep1.length = 128 then s.metFresh.ep1 else List.replicate 104 0 ++ s.freeBytes 24

/-- EP1 as a frame gives it: the tick of the previous strobe, INSTANT, and on page 0 the bytes from 104 on (R474, R475). -/
def ep1Of (old : List Byte) (tick : W32) (instant page : List Byte) (page0 : Bool) : List Byte :=
  leBytes 4 tick.toNat ++ padTo 100 instant ++
    (if page0 then padTo 24 page else (padTo 128 old).drop 104)

/-- A completed page set: EP2, EP3 and EP5, with the tick of its latch in the first bytes of EP2 and EP3 (R475, R477). -/
def MetPub.setPages (x : MetPub) (latch : BitVec 48) (pages : List (List Byte)) : MetPub :=
  let bs := (pages.map (padTo 24)).flatten
  let tick := leBytes 4 latch.toNat
  { x with
    ep2 := tick ++ ((bs.take 144).drop 4)
    ep3 := tick ++ (((bs.drop 144).take 64).drop 4)
    ep5 := (bs.drop 216).take 48 }

/-- Page 12: a legal log entry at its ring index; a new one raises LOG (R475, R483, R490). -/
def State.logPage (s : State) (page : List Byte) : State :=
  let entry := padTo 16 page
  let i := leAt page 16 4 % 1024
  let seq := leAt entry 0 4
  let s := s.updFresh (fun x => { x with log := x.log.set i entry })
  match s.met.nextLog with
  | some n =>
    if n ≤ seq then
      (s.occur (srcKey sharedSpace 8 1)
        (BitVec.ofNat 64 (seq * 2 ^ 32 + leAt entry 8 1 * 2 ^ 24 + leAt entry 9 1 * 2 ^ 16)) true).updMet
          (fun x => { x with nextLog := some (seq + 1) })
    else s
  | none => s

/-- Pages 1 to 11: a set whose frames do not arrive with consecutive SEQ is discarded whole; page 11 completes it (R475, R476; log entry
76). -/
def State.setPage (s : State) (k : Nat) (consec : Bool) (page : List Byte) : State :=
  let have' := s.met.pages
  if k = 1 then
    let s := if have' = [] then s else s.updMet (fun x => { x with setsLost := satInc x.setsLost })
    s.updMet (fun x => { x with pages := [page], latch := s.tick.n - 1 })
  else if have' = [] then s
  else if consec && have'.length + 1 == k then
    if k = 11 then
      let s := s.updFresh (fun x => x.setPages s.met.latch (have' ++ [page]))
      s.updMet (fun x => { x with
        pages := [], nextLog := match x.nextLog with
          | some n => some n
          | none => some (leAt s.metFresh.ep5 20 4) })
    else s.updMet (fun x => { x with pages := have' ++ [page] })
  else s.updMet (fun x => { x with pages := [], setsLost := satInc x.setsLost })

/-- The pages of a valid frame (log entry 76). -/
def State.framePages (s : State) (f : MetFrame) : State :=
  let k := f.pageNo
  let consec := match s.met.lastSeq with
    | some q => decide (q + 1 = f.seq)
    | none => false
  let was := leAt s.metFresh.ep1 120 4
  let held := s.ep1Held
  let s := if k ≠ 0 ∧ s.metFresh.ep1.length ≠ 128 then { s with freeCount := s.freeCount + 24 } else s
  let s := s.updFresh (fun x => { x with ep1 := ep1Of held ((s.tick.n - 1).setWidth 32) f.instant f.page (k == 0) })
  let s :=
    if k = 0 then
      (if s.met.dated = true ∧ leAt s.metFresh.ep1 120 4 ≠ was then
        s.occur (srcKey sharedSpace 8 2) (BitVec.ofNat 64 (was * 2 ^ 32)) true
      else s).updMet (fun x => { x with dated := true })
    else s
  let s :=
    if 1 ≤ k ∧ k ≤ 11 then s.setPage k consec f.page
    else if s.met.pages ≠ [] then s.updMet (fun x => { x with pages := [], setsLost := satInc x.setsLost })
    else s
  let s := if k = 12 then s.logPage f.page else s
  s.updMet (fun x => { x with lastSeq := some f.seq })

/-- A frame as received (R474): its fields, none where its length, SYNC or CRC is not that of a frame. -/
def readFrame (bs : List Byte) : Option MetFrame :=
  if bs.length = 184 ∧ leAt bs 0 2 = 0x5A47 ∧ leAt bs 180 4 = (crc32 ((bs.drop 2).take 178)).toNat then
    some { seq := BitVec.ofNat 16 (leAt bs 2 2), pageNo := leAt bs 6 1, status := BitVec.ofNat 16 (leAt bs 4 2), samples := (bs.drop 8).take 48
           instant := (bs.drop 56).take 100, page := (bs.drop 156).take 24 }
  else none

/-- METRO_FRAME (R474 to R477, R489): a frame with a bad SYNC or CRC is counted and discarded; a valid one gives its status, its
values and pages for the next commit, and its sample set (log entry 76). -/
def execMetroFrame (bytes : List Byte) (s : State) : Host.Outcome State Fault Refusal :=
  .next (if s.domOn 10 = true ∧ s.met.got = false then
      match readFrame bytes with
      | some f =>
        let s := s.updMet (fun x => { x with valid := x.valid + 1, silent := 0, got := true })
        ((s.metStatus f.status).framePages f).addSet (s.tick.n - 1) (some (padTo 48 f.samples)) (f.status.getLsbD 0)
      | none => (s.updMet (fun x => { x with crcErr := satInc x.crcErr, valid := 0 })).metEvent 2
    else s)

/-- CARTRIDGE_PRESENT (R476, R478, R491): after 8 consecutive valid frames. -/
def execCartridgePresent (s : State) : Host.Outcome State Fault Refusal :=
  .next (if s.domOn 10 = true ∧ 8 ≤ s.met.valid ∧ (s.metFresh.present = false ∨ s.met.stale = true) then
      ((s.updFresh (fun x => { x with present := true })).metEvent 0).updMet (fun x => { x with
        stale := false, presentAt := some s.tick.n
        enumerate := (s.devAt 16 []).isNone })
    else s)

/-- CARTRIDGE_ABSENT (R476, R478): after 8 consecutive ticks without a valid frame. -/
def execCartridgeAbsent (s : State) : Host.Outcome State Fault Refusal :=
  .next (if s.domOn 10 = true ∧ 8 ≤ s.met.silent ∧ s.metFresh.present = true then
      ((s.updFresh (fun x => { x with present := false, log := [] })).metEvent 1).updMet (fun x => { x with
        gone := true, enumerate := false, presentAt := none, valid := 0, nextLog := none, pages := [], lastSeq := none, dated := false })
    else s)

/-! ## At a tick's beginning and at a commit -/

/-- At cycle 0: a tick without a valid frame counts toward absence, and gives running streams a missing set, of the strobe before that
tick; the strobe goes out while PD10 is ON (R472, R476, R489, R491). -/
def State.metTick (s : State) : State :=
  let s := if s.met.got then s else s.addSet (s.tick.n - 2) none false
  let s :=
    if s.domOn 10 then
      if s.met.got then s.updMet (fun x => { x with got := false })
      else s.updMet (fun x => { x with silent := x.silent + 1, valid := 0 })
    else s.updMet (fun x => { x with valid := 0, silent := 0, got := false, stale := x.stale || s.metFresh.present })
  let s := s.updMet (fun x => { x with served := 0, p16Last := x.p16Pass.getD x.p16Last, p16Pass := none })
  if s.domOn 10 then s.emit .strobe else s

/-- The received values at a commit (R477): they replace the committed ones; an absent cartridge's device detaches. -/
def State.commitMet (s : State) : State :=
  let s := match s.met.fresh with
    | some f => (s.updMetPub (fun _ => f)).updMet (fun x => { x with fresh := none })
    | none => s
  let s := if s.met.gone then (s.detachTree 16 []).updMet (fun x => { x with gone := false }) else s
  if s.met.enumerate then
    (s.updEnum 16 (fun e => { e with waiting := e.waiting ++ [{ port := 16, hops := [] }] })).updMet (fun x => { x with
      enumerate := false })
  else s

/-- The snapshot items that come from the cartridge (R487), absent ones without a measurement. -/
def MetPub.items (x : MetPub) : List (Nat × W32) :=
  if x.present then
    let w (i : Nat) : W32 := BitVec.ofNat 32 (leAt x.ep1 i 4)
    ((List.range 4).map (fun f =>
      let p := w (24 + 20 * f)
      ((List.range 5).map (fun k => (0x0800 + 8 * f + k, w (24 + 20 * f + 4 * k)))) ++
      [(0x0800 + 8 * f + 5, w (104 + 4 * f)),
       (0x0800 + 8 * f + 6, if p.toInt < 0 then 0 else BitVec.ofNat 32 (p.toNat * 125 / 3600000)),
       (0x0800 + 8 * f + 7, w 120)])).flatten ++
    [(0x0840, w 8), (0x0841, w 12), (0x0842, w 16), (0x0843, w 4), (0x0844, 1)]
  else [(0x0844, 0)]

end Sys2Proof.Machine
end

