-- ==== Sys2Proof/Machine/Operators.lean ====
section
/-! DEFINITION. The steward operators of Coresh (06): SNAP, BOUND, EMA, ACT, TIMER, FLOW and TRACE. -/
namespace Sys2Proof.Machine

open Sys2Proof

/-- An item of the snapshot (R219, R336): 0x8000_0000 where it holds no measurement. -/
def State.snapOf (s : State) (item : Nat) : W32 := s.snapshot.get 0x80000000 item

/-- SNAP (R219). -/
def execSnap (c : Core) (gd : Guard) (d : Reg) (item : W16) (s : State) : Host.Outcome State Fault Refusal :=
  s.coreshReg (.core c) (.snap c gd d item) gd d 2 (fun _ => s.snapOf item.toNat)

/-- BOUND (R220): gA clamped to a pair of the graph's slice as committed. -/
def execBound (c : Core) (gd : Guard) (d a : Reg) (bnd : BitVec 11) (s : State) : Host.Outcome State Fault Refusal :=
  s.coreshReg (.core c) (.bound c gd d a bnd) gd d 3
    (fun x => clamp (s.boundOf x.slice.toNat bnd.toNat).1 (s.boundOf x.slice.toNat bnd.toNat).2 (x.reg a))

/-- EMA (R220): gD + ((gA − gD) >> K), arithmetic. -/
def execEma (c : Core) (gd : Guard) (d a : Reg) (k : BitVec 5) (s : State) : Host.Outcome State Fault Refusal :=
  s.coreshReg (.core c) (.ema c gd d a k) gd d 2
    (fun x => x.reg d + (x.reg a - x.reg d).sshiftRight k.toNat)

/-- ACT (R221): a pending decision of the running task. -/
def execAct (c : Core) (gd : Guard) (a : Reg) (actr : BitVec 15) (s : State) : Host.Outcome State Fault Refusal :=
  s.coresh (.core c) (.act c gd a actr) gd false
    (fun c0 t =>
      let x := t.thread (coreThread c.toNat)
      (t.decideOn x.task.toNat x.slice.toNat actr.toNat (x.reg a) c.toNat (c0 + 4)).advance (.core c) c0 4)
    (State.skip1 (.core c))

/-- Puts a timer into a delay list sorted by deadline (R331). -/
def insertTimer (m : TimerS) : List TimerS → List TimerS
  | [] => [m]
  | x :: t => if m.deadline.toNat < x.deadline.toNat then m :: x :: t else x :: insertTimer m t

/-- Arms a timer (R222): a pair of TASK and FLAG holds one, on the list of the task's home core; one that the list of a contained core
still holds is replaced (R332). -/
def State.armTimer (s : State) (t flag : Nat) (ticks : W32) : State :=
  let m : TimerS :=
    { task := BitVec.ofNat 12 t, flag := BitVec.ofNat 5 flag, deadline := s.tick.n + BitVec.ofNat 48 (max 1 ticks.toNat) }
  let s := s.forAll (fun u c =>
    if (u.coreAt c).timers.any (fun z => z.task == m.task && z.flag == m.flag) then
      u.updCore c (fun y => { y with timers := y.timers.filter (fun z => !(z.task == m.task && z.flag == m.flag)) })
    else u) ((List.range 4).filter (fun c => c != (s.task t).home.toNat))
  s.updCore (s.task t).home.toNat (fun y => { y with
    timers := insertTimer m (y.timers.filter (fun z => !(z.task == m.task && z.flag == m.flag))) })

/-- TIMER (R222): at the commit of the tick gA later, gA of 0 acting as 1. -/
def execTimer (c : Core) (gd : Guard) (t : Task) (flag : BitVec 5) (a : Reg) (s : State) : Host.Outcome State Fault Refusal :=
  s.coresh (.core c) (.timer c gd t flag a) gd false
    (fun c0 z => (z.armTimer t.toNat flag.toNat ((z.thread (coreThread c.toNat)).reg a)).advance (.core c) c0 4)
    (State.skip1 (.core c))

/-- FLOW (R222, R329): gA at the place of the run in the flow of which its task is a member. -/
def execFlow (c : Core) (gd : Guard) (f : Flow) (a : Reg) (s : State) : Host.Outcome State Fault Refusal :=
  s.coresh (.core c) (.flow c gd f a) gd false
    (fun c0 t =>
      let x := t.thread (coreThread c.toNat)
      let t := match x.place with
        | some p =>
          if (t.task x.task.toNat).member = some f then
            t.updFlow f.toNat (fun y => { y with vals := y.vals ++ [(p, x.reg a)] })
          else t
        | none => t
      t.advance (.core c) c0 3)
    (State.skip1 (.core c))

/-- TRACE (R222, R350): a custom record, not rolled back. -/
def execTrace (c : Core) (gd : Guard) (a : Reg) (s : State) : Host.Outcome State Fault Refusal :=
  s.coresh (.core c) (.trace c gd a) gd false
    (fun c0 t =>
      let x := t.thread (coreThread c.toNat)
      (t.tr c.toNat (c0 + 2) 0xC x.task.toNat x.slice.toNat 0 (x.reg a)).advance (.core c) c0 2)
    (State.skip1 (.core c))

end Sys2Proof.Machine
end

