-- ==== Sys2Proof/Machine/P16.lean ====
section
/-! DEFINITION. The P16 responder (15): what its endpoints carry and how it serves transfers (R479 to R485). -/
namespace Sys2Proof.Machine

open Sys2Proof

/-- What EP0 answers to a request (R132, R485): its data, or none for STALL (log entry 94). -/
def p16Control (q3 : W64) : Option (List Byte) :=
  let target := setupByte q3 1
  let flags := setupByte q3 2
  let arg := setupByte q3 3 * 65536 + setupByte q3 4 * 256 + setupByte q3 5
  let len := setupLength q3
  let ep := decide (target / 64 = 1 ∧ target % 64 ≤ 5)
  match setupByte q3 0 with
  | 0x41 => if flags = 0x80 ∧ arg = 0 ∧ len = 2 ∧ (target = 0 ∨ ep = true) then some [0, 0] else none
  | 0x42 => if flags = 0 ∧ arg = 0 ∧ len = 0 ∧ ep = true then some [] else none
  | 0x44 => if flags = 0 ∧ target = 0 ∧ arg < 2 ^ 19 ∧ len = 0 then some [] else none
  | 0x45 =>
    if flags = 0x80 ∧ target = 0 then
      if arg = 0x010000 then some (p16Ident.take len) else if arg = 0x020000 then some (p16Table.take len) else none
    else none
  | 0x46 => if flags = 0 ∧ target = 0 ∧ arg ≤ 1 ∧ len = 0 then some [] else none
  | _ => none

/-- Puts a log entry in a list by its SEQ, newest first (R483). -/
def insertLog (e : List Byte) : List (List Byte) → List (List Byte)
  | [] => [e]
  | x :: t => if leAt x 0 4 < leAt e 0 4 then e :: x :: t else x :: insertLog e t

/-- What an endpoint of the P16 device carries (R480 to R484), from the committed values. What no frame has brought yet is open:
free values (log entries 6, 94). -/
def State.p16Content (s : State) (ep : Nat) : List Byte × State :=
  let x := s.metPub.comAt s.e
  let whole (n : Nat) (b : List Byte) : List Byte × State :=
    if b.length = n then (b, s) else (s.freeBytes n, { s with freeCount := s.freeCount + n })
  match ep with
  | 1 => whole 128 x.ep1
  | 2 => whole 144 x.ep2
  | 3 => whole 64 x.ep3
  | 4 => (((x.log.map (·.2)).foldl (fun acc e => insertLog e acc) []).flatten, s)
  | 5 => whole 48 x.ep5
  | _ => ([], s)

/-- A P16 transfer in progress on context `i` is served (R485): an endpoint that the configuration has not activated answers STALL (R127,
R132). -/
def State.p16Serve (s : State) (sl q i : Nat) (e : Entry) : State :=
  if !s.domOn 10 then (s.settleWire i 1 oNoReply none).1
  else
    let answer : Option (List Byte) × State :=
      if e.handle % 16 = 0 then (p16Control e.q3, s)
      else if !(s.devXAt (e.handle / 16)).configured then (none, s)
      else
        let r := s.p16Content (e.handle % 16)
        (some r.1, r.2)
    match answer with
    | (none, s) => (s.settleWire i 1 oStall (some stStall)).1
    | (some b, s) =>
      let b := b.take e.length
      let s := (s.inData sl q e 0 16 b).updCtx i (Ctx.move b.length)
      (s.settleWire i 1 oDone (some stSuccess)).1

/-- The responder can serve an entry of queue `q` now (R485): eligible, or without a reply in an earlier tick; its context. -/
def State.p16Can (s : State) (sl q : Nat) (e : Entry) : Option (Nat × Entry × Nat) :=
  match s.ctxOfHandle e.handle with
  | some i =>
    let c := s.ctx i
    if decide (c.st = .active) &&
        (if s.inProgress i sl q e.pos then decide (c.lastSvc ≠ s.tick.n) else e.waits && c.queue == 0 && s.firstFor sl q e) then
      some (q, e, i)
    else none
  | none => none

/-- The entry that the responder serves next, in the order of R239 and R241: each queue of P16 once in a pass. -/
def State.p16Next (s : State) (sl : Nat) : Option (Nat × Entry × Nat) :=
  let ks := s.weftQueues 16 sl s.met.p16Last
  let look (l : List Nat) := firstSome (fun k => firstSome (s.p16Can sl k) (s.queue (qKey sl k)).weftOrder) l
  match look (restAfter s.met.p16Pass ks) with
  | some r => some r
  | none => look ks

/-- P16_TRANSFER (R485): the entry whose turn it is by R239 and R241; 64 in a tick. -/
def execP16Transfer (sl : Slice) (q : QNum) (pos : BitVec 17) (s : State) : Host.Outcome State Fault Refusal :=
  .next (match s.p16Next sl.toNat with
    | some (k, e, i) =>
      if k = q.toNat ∧ e.pos = pos ∧ s.working = true ∧ s.works sl.toNat = true ∧ s.met.served < 64 then
        let s := if s.inProgress i sl.toNat k pos then s else s.engage sl.toNat k i e .drawn
        (s.p16Serve sl.toNat k i e).updMet (fun x => { x with served := x.served + 1, p16Pass := some k })
      else s
    | none => s)

end Sys2Proof.Machine
end

