-- ==== Sys2Proof/Machine/RecordWriter.lean ====
section
/-! DEFINITION. The record writer (01 R13): after a commit, IN payload, completions, event records and the slice interrupts, in that
order. -/
namespace Sys2Proof.Machine

open Sys2Proof

/-- A run of bytes as write bursts that end at 512-byte boundaries (R297, R299). -/
def State.writeRun (sl : Nat) : Nat → State → W64 → List Byte → State
  | 0, s, _, _ => s
  | f + 1, s, a, bs =>
    if bs = [] then s
    else
      let n := burstLen a bs.length
      State.writeRun sl f (s.writeBurst sl a (bs.take n)) (a + BitVec.ofNat 64 n) (bs.drop n)

/-- A run of any length. -/
def State.writeBytes (s : State) (sl : Nat) (a : W64) (bs : List Byte) : State := State.writeRun sl (bs.length / 512 + 2) s a bs

/-- S0 runs on while its link is down, and its records that cannot be written are discarded (R365). -/
def State.dropUnreachable (s : State) : State :=
  if (s.link (s.comSlice 0).link.toNat).up then s
  else
    let own {α : Type} (f : α → Sys2Proof.Slice) (l : List α) : List α := l.filter (fun x => f x != 0)
    let ev := s.owedEv.filter (fun r => r.slice == 0)
    let s := s.forAll (fun t r => t.unOut r.src) ev
    { s with
      owedPay := own (·.slice) s.owedPay, owedWords := own (·.1) s.owedWords, owedCpl := own (·.slice) s.owedCpl
      owedRec := s.owedRec.filter (fun r => s.chanOwner r.1.toNat != 0), owedEv := own (·.slice) s.owedEv }

/-- Bytes of IN payload. -/
def Pay.size (p : Pay) : Nat := (p.runs.map (fun r => r.2.length)).sum

/-- IN payload (R13 item 1): what is written leaves the previous-tick IN half of its port (R299). -/
def State.flushPay (s : State) : State :=
  let go := s.owedPay.filter s.mayPay
  let s := { s with owedPay := s.owedPay.filter (fun p => !s.mayPay p) }
  let s := s.forAll (fun t p =>
    if p.port.toNat < 16 then t.updHalf p.port.toNat (fun h => { h with inPrev := h.inPrev - p.size }) else t) go
  s.forAll (fun t p => t.forAll (fun u r => u.writeBytes p.slice.toNat r.1 r.2) p.runs) go

/-- A completion may be written now: not before the IN payload of its transfer (R13). -/
def State.mayComplete (s : State) (r : Cpl) : Bool :=
  s.mayIssue r.slice.toNat && s.owedPay.all (fun p => !r.of p.place)

/-- What commands write, then the completion records over the entries (R13 item 2, R281, R289). -/
def State.flushCpl (s : State) : State :=
  let words := s.owedWords.filter (fun w => s.mayIssue w.1.toNat)
  let cpls := s.owedCpl.filter s.mayComplete
  let s := { s with
    owedWords := s.owedWords.filter (fun w => !s.mayIssue w.1.toNat)
    owedCpl := s.owedCpl.filter (fun r => !s.mayComplete r) }
  let s := s.forAll (fun t w => t.writeBytes w.1.toNat w.2.1 w.2.2) words
  s.forAll (fun t r => t.sendWords r.slice.toNat r.addr [r.c0, r.c1, r.c2, r.c3]) cpls

/-- STATUS of a channel record (R317). -/
def ChStatus.code : ChStatus → Nat
  | .done => 0 | .readError => 1 | .format => 2 | .chainError => 3

/-- The words D0 and D1 of a channel record (R317). -/
def ChRec.words (r : ChRec) (c : Nat) (phase : Bool) : List W64 :=
  [BitVec.ofNat 64 (r.tag.toNat * 2 ^ 48 + r.status.code * 2 ^ 40 + c * 2 ^ 34 + (if r.last then 2 ^ 33 else 0) +
    (if phase then 2 ^ 32 else 0) + r.bytes.toNat),
   BitVec.ofNat 64 (r.tick.toNat * 2 ^ 32 + r.desc.toNat)]

/-- One record goes to the completion queue of its channel (R316, R317, R319); CQ_PROD advances. -/
def State.writeChRec (s : State) (x : Chan × ChRec) : State :=
  let c := x.1.toNat
  let ch := s.chan c
  let n := 2 ^ ch.cqLog2
  let p := ch.prod.toNat
  let s := s.sendWords (s.chanOwner c) (ch.cqBase + BitVec.ofNat 64 (p % n * 16)) (x.2.words c (!ch.prod.getLsbD ch.cqLog2))
  let s := s.bothChan c (fun y => { y with prod := BitVec.ofNat 13 ((p + 1) % (2 * n)) })
  let s := if x.2.evt then s.chanEvent c 0 else s
  match x.2.status with
  | .format | .chainError => s.chanEvent c 3
  | _ => s

/-- A record of a descriptor that ended is written when its slice's records may be and its completion queue has room; else it stays owed
(R312, R316). -/
def State.flushRec (s : State) (x : Chan × ChRec) : State :=
  let c := x.1.toNat
  if s.mayIssue (s.chanOwner c) = true ∧ (s.comChan c).inRing < 2 ^ (s.comChan c).cqLog2 then s.writeChRec x
  else { s with owedRec := s.owedRec ++ [x] }

/-- The records of descriptors that ended, with the event records (R13 item 3, R314). -/
def State.flushRecs (s : State) : State := ({ s with owedRec := [] } : State).forAll State.flushRec s.owedRec

/-- Event records (R13 item 3, R401), in the order in which they were generated. -/
def State.flushEvents (s : State) : State :=
  let go := s.owedEv.filter (fun r => s.mayIssue r.slice.toNat)
  let s := { s with owedEv := s.owedEv.filter (fun r => !s.mayIssue r.slice.toNat) }
  s.forAll State.writeRecord go

/-- Nothing of a queue is owed: QCONS shows its committed consumer index (R275, R278). -/
def State.showCons (s : State) (k : Nat) : State :=
  let waits (sl : Sys2Proof.Slice) (q : QNum) : Bool := qKey sl.toNat q.toNat == k
  if (s.owedCpl ++ s.due.cpl).any (fun r => waits r.slice r.queue) || (s.owedPay ++ s.due.pay).any (fun p => waits p.slice p.queue) then s
  else { s with qcons := s.qcons.set k (s.comQueue k).cons }

/-- RECORD_WRITER_FLUSH (R9, R13): with PD8 ON (R408), what commits of ticks before the current one owe, in its selvage too; a slice's
interrupt follows its records. -/
def execRecordWriterFlush (s : State) : Host.Outcome State Fault Refusal :=
  .next (if s.domOn 8 then
      let s := s.dropUnreachable.flushPay.flushCpl.flushRecs.flushEvents
      let s := s.forAll State.showCons (s.queues.map (·.1))
      s.forAll (fun t k => if t.mayIssue k then t.sliceInterrupt k else t) (s.slices.map (·.1))
    else s)

end Sys2Proof.Machine
end

