-- ==== Sys2Proof/Machine/Registers.lean ====
section
/-! DEFINITION. The register map (16 R495 to R511): which register an access reaches, and what a read of it returns. -/
namespace Sys2Proof.Machine

open Sys2Proof

/-! ## Where registers lie -/

/-- A register of the indirect space (R507), by the table that lays it down. -/
inductive IndReg where
  /-- Word `k` of the port link registers (R103). -/
  | port (p k : Nat)
  | stage (k : Nat)
  | enumStat (p : Nat)
  | schedCfg (p : Nat)
  | seg (p k : Nat)
  | segWorst (p k : Nat)
  | segPeriod (p : Nat)
  | stwCore (c : Nat)
  /-- Word `k` of the port power registers (R439). -/
  | pwr (p k : Nat)
  | pwrBus
  | shedOrder (k : Nat)
  | relay
  | slcTable (k : Nat)
  | gleanStat | scrubStat | eccStat
  | sup (k : Nat)
  | pdCtl (d : Nat)
  | pdStat (d : Nat)
  | domEvent (d : Nat)
  | aonIdx
  | aonRec (r k : Nat)
  | met (k : Nat)
  | dtPend (k : Nat)
  | dtCount (n : Nat)
  | dtLast (n : Nat)
  | injCtl (n : Nat)
  | injTick (n : Nat)
  | injStat
  /-- Word `k` of the line probe registers (R529). -/
  | probe (p k : Nat)
  | surgeMains
  | wm (k : Nat)
  | pot (p : Nat)
deriving DecidableEq, Repr

/-- Word of an offset in a table of `n` words. -/
def wordIn (n off : Nat) (f : Nat → IndReg) : Option IndReg := if off / 4 < n then some (f (off / 4)) else none

/-- The schedule registers of a port (R260). -/
def schedReg (p off : Nat) : Option IndReg :=
  let k := off / 4
  if k = 0 then some (.schedCfg p)
  else if 4 ≤ k ∧ k < 12 then some (.seg p (k - 4))
  else if 12 ≤ k ∧ k < 20 then some (.segWorst p (k - 12))
  else if k = 20 then some (.segPeriod p)
  else none

/-- The supply and domain registers (R465). -/
def supReg (off : Nat) : Option IndReg :=
  let k := off / 4
  if k < 5 then some (.sup k)
  else if 0x41 ≤ k ∧ k ≤ 0x4C then some (.pdCtl (k - 0x40))
  else if 0x81 ≤ k ∧ k ≤ 0x8C then some (.pdStat (k - 0x80))
  else if 0xC1 ≤ k ∧ k ≤ 0xCC then some (.domEvent (k - 0xC0))
  else if k = 0x100 then some .aonIdx
  else none

/-- The detector registers (R523). -/
def detReg (off : Nat) : Option IndReg :=
  let k := off / 4
  if k < 4 then some (.dtPend k)
  else if 0x40 ≤ k ∧ k < 0x140 then some (if k % 2 = 0 then .dtCount ((k - 0x40) / 2) else .dtLast ((k - 0x40) / 2))
  else if 0x200 ≤ k ∧ k < 0x300 then some (if k % 2 = 0 then .injCtl ((k - 0x200) / 2) else .injTick ((k - 0x200) / 2))
  else if k = 0x300 then some .injStat
  else none

/-- The register at an indirect address (R507); none where it is unimplemented (log entry 95). -/
def indReg (a : BitVec 24) : Option IndReg :=
  let n := a.toNat
  let off := n % 0x10000
  let p := off / 0x100
  match n / 0x10000 with
  | 2 => if p < 16 then wordIn 5 (off % 0x100) (.port p) else none
  | 3 => if off / 4 < 3 then some (.stage (off / 4)) else if 4 ≤ off / 4 ∧ off / 4 < 20 then some (.enumStat (off / 4 - 4)) else none
  | 4 => if p < 16 then schedReg p (off % 0x100) else none
  | 5 => wordIn 4 off .stwCore
  | 6 =>
    if p < 16 then wordIn 7 (off % 0x100) (.pwr p)
    else match off / 4 with
      | 0x400 => some .pwrBus
      | 0x401 => some (.shedOrder 0)
      | 0x402 => some (.shedOrder 1)
      | 0x403 => some .relay
      | _ => none
  | 7 =>
    if off / 4 < 64 then some (.slcTable (off / 4))
    else match off / 4 with
      | 0x40 => some .gleanStat
      | 0x41 => some .scrubStat
      | 0x42 => some .eccStat
      | _ => none
  | 8 => supReg off
  | 9 => wordIn 5 off .met
  | 0xA => some (.aonRec (off / 16) (off / 4 % 4))
  | 0xB => detReg off
  | 0xC => if p < 16 then wordIn 10 (off % 0x100) (.probe p) else if off / 4 = 0x400 then some .surgeMains else none
  | 0xD => wordIn 5 off .wm
  | m => if 0x10 ≤ m ∧ m < 0x14 then some (.pot ((n - 0x100000) / 4)) else none

/-- The domain that a register lies in, where R507 marks its range. -/
def IndReg.domain : IndReg → Option Nat
  | .stage _ | .enumStat _ | .pot _ => some 7
  | .stwCore _ => some 11
  | .gleanStat | .scrubStat | .eccStat => some 9
  | .met _ | .probe _ _ | .surgeMains => some 10
  | _ => none

/-- The registers whose every readable field is guarded (R501). -/
def IndReg.guarded : IndReg → Bool
  | .port _ 0 | .slcTable _ | .gleanStat | .scrubStat | .eccStat | .pdCtl _ | .aonIdx | .aonRec _ _ | .injCtl _ | .injTick _
  | .injStat | .probe _ 0 | .wm 0 | .pot _ => true
  | _ => false

/-- A register of BAR0 (R495, R496, R509). -/
inductive BarReg where
  /-- GP_IDENT, GP_REV, GP_SERIAL_LO, GP_SERIAL_HI, GP_LINK. -/
  | ident (k : Nat)
  | indAddr
  | indData
  /-- LINK_ERR, LINK_ERR_ADDR, LINK_ERR_CNT, LINK_ERR_IND. -/
  | linkErr (k : Nat)
  /-- The tick and commit registers of R60, in order. -/
  | tick (k : Nat)
  | fbEntry (e k : Nat)
  | fbStat
  | fbAck
  | fbCfg
  | msix (k : Nat)
  | pba (k : Nat)
  /-- Registers of window `w`: SLICE_ID, SLICE_STAT, SLICE_EVENT. -/
  | slice (w k : Nat)
  | adminBase (w : Nat) (hi : Bool)
  | adminCfg (w : Nat)
  | queueStat (w : Nat)
  | stw (w k : Nat)
  /-- The event-queue registers of R413, in order. -/
  | eq (w k : Nat)
  | holdoff (w i : Nat)
  /-- RAW_CTL, RAW_BASE_LO, RAW_BASE_HI, RAW_STAT. -/
  | raw (w k : Nat)
  /-- Word `k` of the registers of channel `c` (R319). -/
  | chan (w c k : Nat)
  | qprod (w q : Nat)
  | qcons (w q : Nat)
deriving DecidableEq, Repr

/-- The register at an offset of the global page (R509). -/
def globalReg (off : Nat) : Option BarReg :=
  let k := off / 4
  if k < 5 then some (.ident k)
  else if k = 0x40 then some .indAddr
  else if k = 0x41 then some .indData
  else if 0x60 ≤ k ∧ k < 0x64 then some (.linkErr (k - 0x60))
  else if 0x80 ≤ k ∧ k < 0x8F then some (.tick (k - 0x80))
  else if 0x200 ≤ k ∧ k < 0x220 then some (.fbEntry ((k - 0x200) / 4) (k % 4))
  else if k = 0x220 then some .fbStat
  else if k = 0x221 then some .fbAck
  else if k = 0x222 then some .fbCfg
  else if 0x3000 ≤ k ∧ k < 0x3108 then some (.msix (k - 0x3000))
  else if 0x3400 ≤ k ∧ k < 0x3404 then some (.pba (k - 0x3400))
  else none

/-- The register at an offset of a window (R496). -/
def windowReg (w off : Nat) : Option BarReg :=
  let k := off / 4
  if k < 3 then some (.slice w k)
  else if k = 0x40 then some (.adminBase w false)
  else if k = 0x41 then some (.adminBase w true)
  else if k = 0x42 then some (.adminCfg w)
  else if k = 0x43 then some (.queueStat w)
  else if 0x80 ≤ k ∧ k < 0x82 then some (.stw w (k - 0x80))
  else if 0xC0 ≤ k ∧ k < 0xCA then some (.eq w (k - 0xC0))
  else if 0xD0 ≤ k ∧ k < 0xD8 then some (.holdoff w (k - 0xD0))
  else if 0x100 ≤ k ∧ k < 0x104 then some (.raw w (k - 0x100))
  else if 0x1000 ≤ k ∧ k < 0x1800 then
    let c := (k - 0x1000) / 32
    if k % 32 < 24 then some (.chan w c (k % 32)) else none
  else if 0x2000 ≤ k then some (if k % 2 = 0 then .qprod w ((k - 0x2000) / 2) else .qcons w ((k - 0x2000) / 2))
  else none

/-- The register at an offset of BAR0 (R495); none where it is unimplemented whatever slices are bound. -/
def barReg (off : BarOff) : Option BarReg :=
  let n := off.toNat
  if n < 0x10000 then globalReg n
  else if n < 0x110000 then windowReg (n / 0x10000 - 1) (n % 0x10000)
  else none

/-- The window that a register belongs to. -/
def BarReg.window : BarReg → Option Nat
  | .slice w _ | .adminBase w _ | .adminCfg w | .queueStat w | .stw w _ | .eq w _ | .holdoff w _ | .raw w _ | .chan w _ _
  | .qprod w _ | .qcons w _ => some w
  | _ => none

/-- The register that an access of a link reaches: a window that no slice holds is unimplemented (R362). -/
def State.reaches (s : State) (l : Nat) (off : BarOff) : Option BarReg :=
  match barReg off with
  | some r => match r.window with
    | some w => if (s.windowSlice l w).isSome then some r else none
    | none => some r
  | none => none

/-! ## What a read returns (R28, R500): committed values, or what acts at once -/

/-- A bit at a place. -/
def bitAt (b : Bool) (i : Nat) : Nat := if b then 2 ^ i else 0
/-- Sixteen bits above sixteen. -/
def word16 (hi lo : Nat) : W32 := BitVec.ofNat 32 (hi % 65536 * 65536 + lo % 65536)
/-- A count that saturates at 16 bits. -/
def sat16 (n : Nat) : Nat := min n 0xFFFF

/-- A half of a 64-bit word. -/
def wordHalf (w : W64) (hi : Bool) : W32 := if hi then BitVec.ofNat 32 (w.toNat / 2 ^ 32) else w.setWidth 32

/-- WAKE_CAUSE (R103). -/
def WakeCause.code : WakeCause → Nat
  | .none => 0 | .host => 1 | .device => 2 | .both => 3

/-- The port link registers (R103). -/
def PortL.reg (x : PortL) (k : Nat) : W32 :=
  match k with
  | 0 => BitVec.ofNat 32 (x.pwrWait.toNat * 2 ^ 16 + bitAt x.disable 5 + bitAt x.wakeEn 4 + bitAt x.cabEn 3)
  | 1 => BitVec.ofNat 32 (x.dbCount.toNat * 2 ^ 16 + x.shown.code * 2 ^ 12 + x.shownSpeed.code * 2 ^ 10 + x.shownCause.code * 2 ^ 8 +
      bitAt x.presB 7 + bitAt x.presA 6)
  | 2 => x.event.setWidth 32
  | 3 => word16 x.codeViol.toNat x.rxRelock.toNat
  | _ => x.wakeStamp

/-- The staging and cache statistics (R188). -/
def State.stageReg (s : State) (k : Nat) : W32 :=
  match k with
  | 0 => word16 s.stageLate.toNat s.stagePeak
  | 1 => word16 ((s.ctxs.map (·.1)).filter (fun i => (s.comCtx i).pin)).length s.grantedWays
  | _ => s.ctxLost

/-- The schedule registers of a port (R260): until the first change of the port's schedule takes effect, SEG and SEG_PERIOD show their
reset values (log entry 96). -/
def State.schedWord (s : State) (p : Nat) : IndReg → W32
  | .schedCfg _ =>
    let x := s.comSched p
    BitVec.ofNat 32 (x.treePoll.toNat * 2 ^ 24 + treeAllowAt x.wardenAllow (s.port p).shownSpeed)
  | .seg _ k =>
    if (s.comSched p).changed then
      match (s.segsIn p (s.comSched p)).find k with
      | some g => BitVec.ofNat 32 (2 ^ 31 + bitAt g.weaver 30 + g.slice.toNat * 2 ^ 24 + g.stop)
      | none => 0
    else 0
  | .segWorst _ k => match (s.comSched p).progs.find k with
    | some g => BitVec.ofNat 32 (g.loom * 2 ^ 16 + g.finish)
    | none => 0
  | _ =>
    if (s.comSched p).changed then
      BitVec.ofNat 32 ((List.range 8).foldl (fun n k => n + 2 ^ (4 * k) * (match (s.comSched p).progs.find k with
        | some g => g.period
        | none => 15)) 0)
    else 0

/-- The port power registers (R439). RETRIES of PWR_STAT stays at 15 when RETRY_MAX sets no limit (log entry 70). -/
def State.pwrReg (s : State) (p k : Nat) : W32 :=
  let x := s.comPSet p
  let f := s.fuse p
  match k with
  | 0 => BitVec.ofNat 32 (bitAt x.direct 31 + bitAt x.on 30 + x.profile.toNat * 2 ^ 27 + x.pwrMax * 2 ^ 20 + x.shedPrio * 2 ^ 16 +
      x.ilimSet * 2 ^ 8 + x.ilim / 10)
  | 1 => BitVec.ofNat 32 (x.rampT * 2 ^ 27 + x.faultT * 2 ^ 21 + x.retryMax * 2 ^ 17 + x.retryDelay * 2 ^ 9)
  | 2 => BitVec.ofNat 32 (s.pstate p * 2 ^ 28 + bitAt f.limiting 27 + bitAt f.pg 26 + f.cause.code * 2 ^ 22 + min f.retries 15 * 2 ^ 18)
  | 3 => f.event.setWidth 32
  | 4 => word16 f.vout.toNat f.iout.toNat
  | 5 => word16 f.model.toNat f.sensor.toNat
  | _ => word16 f.faults.toNat f.retryCnt.toNat

/-- The supply registers (R465). -/
def State.supWord (s : State) (k : Nat) : W32 :=
  let x := s.supply
  match k with
  | 0 => BitVec.ofNat 32 (x.st.code * 2 ^ 29 + bitAt x.dc 28 + bitAt x.inputOk 27 + bitAt x.bankReady 26 + bitAt x.bankFault 25)
  | 1 => word16 x.input.toNat x.bulk.toNat
  | 2 => word16 x.energy.toNat x.load.toNat
  | 3 => x.event.setWidth 32
  | _ => word16 x.losses.toNat x.rides.toNat

/-- REQ of PD_CTL. -/
def DomReq.code : DomReq → Nat
  | .on => 0 | .retention => 1 | .off => 2

/-- The metrology registers (R492). -/
def State.metWord (s : State) (k : Nat) : W32 :=
  let x := s.met
  let m := s.metPub.comAt s.e
  match k with
  | 0 => BitVec.ofNat 32 (bitAt m.present 31 + bitAt (decide (1024 ≤ m.log.length)) 30 + x.status.toNat)
  | 1 => x.event.setWidth 32
  | 2 => word16 x.setsLost.toNat x.crcErr.toNat
  | 3 => BitVec.ofNat 32 (leAt m.ep5 8 4)
  | _ => word16 (leAt m.ep5 14 2) (leAt m.ep5 12 2)

/-- The line probe registers (R529). -/
def ProbeS.reg (now : Nat) (x : ProbeS) (k : Nat) : W32 :=
  match k with
  | 0 => BitVec.ofNat 32 (x.interval.toNat * 2 ^ 16 + x.vf.toNat * 4 + bitAt x.irEn 1)
  | 1 => x.tdr
  | 2 => x.tdrTick
  | 3 => x.ir
  | 4 => x.irTick
  | 5 => x.surges
  | 6 => word16 (sat16 (x.recent now).length) x.peak.toNat
  | 7 => x.surgeTick
  | 8 => x.event.setWidth 32
  | _ => BitVec.ofNat 32 (x.ampl.toNat * 2 ^ 16 + x.eq.toNat * 2 ^ 8)

/-- The watchman registers (R538). -/
def State.wmWord (s : State) (k : Nat) : W32 :=
  let x := s.watch
  let left := match x.locked with
    | some t => (t.toNat - s.now + 7999) / 8000
    | none => 0
  match k with
  | 0 => BitVec.ofNat 32 (x.addr.toNat * 2 ^ 8 + x.baud.toNat)
  | 1 => BitVec.ofNat 32 (bitAt x.commissioned 31 + bitAt x.locked.isSome 30 + s.comWarden * 2 ^ 28 + left % 1024)
  | 2 => x.seq
  | 3 => word16 x.accepted.toNat x.failed.toNat
  | _ => x.event.setWidth 32

/-- STATE of a page (R370). -/
def PgState.code : PgState → Nat
  | .owned => 0 | .fill => 1 | .module => 2

/-- Pages in FILL for slices other than S0 (R390). -/
def State.fillOther (s : State) : Nat :=
  ((s.pot.map (·.1)).filter (fun p => (s.comPage p).st == .fill && (s.comPage p).sl != 0)).length

/-- What a read of an indirect register returns while its domain is up. -/
def State.indWord (s : State) : IndReg → W32
  | .port p k => (s.port p).reg k
  | .stage k => s.stageReg k
  | .enumStat p =>
    let x := s.enum p
    BitVec.ofNat 32 (x.step.code * 2 ^ 28 + x.result.code * 2 ^ 24 + x.lastId.toNat)
  | .schedCfg p => s.schedWord p (.schedCfg p)
  | .seg p k => s.schedWord p (.seg p k)
  | .segWorst p k => s.schedWord p (.segWorst p k)
  | .segPeriod p => s.schedWord p (.segPeriod p)
  | .stwCore c => BitVec.ofNat 32 (min 64 (s.coreAt c).queued * 2 ^ 25 + bitAt (s.coreContained.get false c) 24 + s.corePeak.get 0 c)
  | .pwr p k => s.pwrReg p k
  | .pwrBus => word16 s.supply.bus.toNat s.supply.total.toNat
  | .shedOrder k => BitVec.ofNat 32 ((List.range 8).foldl (fun n i =>
      n + 2 ^ (4 * i) * s.shedForce.getD (8 * k + i) 0) 0)
  | .relay => s.relay.setWidth 32
  | .slcTable k => (s.comSlice k).table
  | .gleanStat => word16 (sat16 (s.fillCount 0)) (sat16 s.fillOther)
  | .scrubStat => s.scrubPasses
  | .eccStat => s.eccCorrected
  | .sup k => s.supWord k
  | .pdCtl d => BitVec.ofNat 32 (bitAt (s.dom d).auto 2 + (s.dom d).req.code)
  | .pdStat d =>
    let x := s.dom d
    BitVec.ofNat 32 (x.shown.code * 2 ^ 29 + x.attempts.toNat * 2 ^ 27 + x.cause.toNat * 2 ^ 24 + x.refuse.toNat * 2 ^ 20 + x.wakes.toNat)
  | .domEvent d => (s.dom d).event.setWidth 32
  | .aonIdx => word16 s.boot.toNat s.aonNext.toNat
  | .aonRec r k => match s.aonLog.find r with
    | some x => wordHalf (if k < 2 then x.words.1 else x.words.2) (k % 2 == 1)
    | none => 0
  | .met k => s.metWord k
  | .dtPend k => (s.dtPend >>> (32 * k)).setWidth 32
  | .dtCount n =>
    let x := s.det n
    BitVec.ofNat 32 (x.unit.toNat * 2 ^ 24 + bitAt x.injected 23 + x.count.toNat)
  | .dtLast n => (s.det n).last
  | .injCtl n =>
    let x := s.det n
    BitVec.ofNat 32 (bitAt x.arm 31 + x.injCount.toNat * 2 ^ 16 + x.cycle.toNat)
  | .injTick n => (s.det n).injTick
  | .injStat => word16 s.injSkipped.toNat s.injMade.toNat
  | .probe p k => (s.probe p).reg s.now k
  | .surgeMains => word16 s.surgeMainsCnt.toNat s.surgeMainsPeak.toNat
  | .wm k => s.wmWord k
  | .pot p =>
    let x := s.comPage p
    BitVec.ofNat 32 (x.st.code * 2 ^ 14 + x.sl.toNat)

/-- The slice of a window of a link. -/
def State.windowOwner (s : State) (l w : Nat) : Nat := (s.windowSlice l w).getD 0

/-- The event-queue registers (R413). -/
def State.eqWord (s : State) (sl k : Nat) : W32 :=
  let q := s.eq sl
  match k with
  | 0 => wordHalf q.base false
  | 1 => wordHalf q.base true
  | 2 => BitVec.ofNat 32 (bitAt q.run 31 + q.log2.toNat)
  | 3 => q.prod.setWidth 32
  | 4 => q.cons.setWidth 32
  | 5 => BitVec.ofNat 32 (bitAt q.mask 0)
  | 6 => q.grpMask
  | 7 => BitVec.ofNat 32 (bitAt q.armed 2 + bitAt q.coalesced 1 + bitAt q.lost 0)
  | 8 => q.evtLost.comAt s.e
  | _ => q.coal

/-- STATE of a channel (R307). -/
def ChSt.code : ChSt → Nat
  | .idle => 0 | .running => 1 | .paused => 2 | .stopping => 3 | .stopped => 4 | .killed => 5

/-- The channel registers (R319), 0 for a channel that the slice does not hold. -/
def State.chanWord (s : State) (sl c k : Nat) : W32 :=
  let x := s.comChan c
  if s.chanOwner c ≠ sl then 0
  else if k = 0 then
    BitVec.ofNat 32 (x.role.code * 2 ^ 30 + x.share * 2 ^ 22 + x.cqLog2 * 2 ^ 18 + x.qshuf.toNat)
  else if k = 1 then
    BitVec.ofNat 32 (x.st.code * 2 ^ 29 + bitAt x.armed 28 + min 255 (x.owed.length +
      ((s.owedRec ++ s.due.recs).filter (fun r => r.1.toNat == c)).length))
  else if k = 2 then 0
  else if k = 3 then (s.chanXAt c).event.setWidth 32
  else if k < 12 then x.shadow.word (k - 4)
  else if k < 20 then (x.active.getD {}).word (k - 12)
  else if k = 20 then x.done
  else if k = 21 then x.prod.setWidth 32
  else if k = 22 then x.cons.setWidth 32
  else x.count

/-- QPROD and QCONS (R292), 0 for a queue that the slice does not hold. -/
def State.queueWord (s : State) (sl q : Nat) (cons : Bool) : W32 :=
  let x := s.comQueue (qKey sl q)
  if q ≠ 0 ∧ x.live = false then 0
  else if cons then BitVec.ofNat 32 (bitAt x.run 31 + bitAt x.own 30 + (s.qcons.get 0 (qKey sl q)).toNat)
  else (if x.own then x.fetch else x.prod).setWidth 32

/-- The tick and commit registers (R60). -/
def State.tickWord (s : State) (l k : Nat) : W32 :=
  let x := s.tick
  match k with
  | 0 => s.now32
  | 1 => x.hiLatch.setWidth 32
  | 2 => BitVec.ofNat 32 s.tickStatus
  | 3 => s.e
  | 4 => x.abandons
  | 5 => BitVec.ofNat 32 (x.lastConsec.toNat * 2 ^ 24 + x.lastNdet.toNat * 2 ^ 16 + x.lastFirst.toNat)
  | 6 => x.lastTick
  | 7 => (s.link l).commitStat.setWidth 32
  | 8 => if s.comWarden = l then x.ppsCtl else 0
  | 9 => x.ppsStamp
  | 10 => x.ppsCycle.setWidth 32
  | 11 => x.ppsPhase
  | 12 => x.ppsFreq
  | 13 => x.ppsReject
  | _ => x.journalEpoch

/-- The capabilities of the function of a host link, with what R512 says of each. -/
inductive PcieCap where
  | powerManagement (version : Nat) (d3hot pme noSoftReset : Bool)
  | msix (vectors table pba : Nat)
  | express (maxPayload lanes : Nat) (rates : List Nat) (extendedTag flr aspmL1 aspmL0s : Bool)
  | errorReporting (ecrcGenerate ecrcCheck headerLog : Bool)
  | serialNumber (n : W64)
  | pasid (width : Nat) (execute privileged : Bool)
  | secondary (rate : Nat)
deriving DecidableEq, Repr

/-- The configuration space of the function of a host link (R512): the fields of its header, and its capabilities by offset. -/
structure PcieFunction where
  vendor : Nat := 0x1F4E
  device : Nat := 0x4816
  classCode : Nat := 0x0C8000
  revision : Nat := 0x00
  subVendor : Nat := 0x1F4E
  subsystem : Nat := 0x0001
  /-- BAR0: 64-bit, non-prefetchable, and its size in bytes (R495). -/
  barSize : Nat := 0x200000
  interruptPin : Nat := 0
  caps : List (Nat × PcieCap) := [
    (0x040, .powerManagement 3 true true true), (0x050, .msix 66 0xC000 0xD000),
    (0x060, .express 512 4 [2, 5, 8] true false true false), (0x100, .errorReporting true true true),
    (0x140, .serialNumber Config.serial), (0x150, .pasid 20 false false), (0x160, .secondary 8)]

/-- The function that each host link presents (R512). -/
def pcieFunction : PcieFunction := {}

/-- The identity registers (R510). -/
def State.identWord (s : State) (l k : Nat) : W32 :=
  match k with
  | 0 => word16 pcieFunction.device pcieFunction.vendor
  | 1 => word16 0 (0x0100 + pcieFunction.revision)
  | 2 => wordHalf Config.serial false
  | 3 => wordHalf Config.serial true
  | _ => BitVec.ofNat 32 ((List.range 16).foldl (fun n w => n + bitAt (s.windowSlice l w).isSome (16 + w)) 0 +
      bitAt (s.link l).pasidEn 3 + bitAt (s.comWarden == l) 2 + l)

/-- The error registers of a link (R511). -/
def LinkS.errWord (x : LinkS) (k : Nat) : W32 :=
  match k with
  | 0 => x.err.setWidth 32
  | 1 => x.errAddr.setWidth 32
  | 2 => x.errCnt
  | _ => x.errInd.setWidth 32

/-- The bank's bits VALID (R414). -/
def LinkS.fbValid (x : LinkS) : Nat := (List.range 8).foldl (fun n e => n + bitAt (x.fbEntry.find e).isSome e) 0

/-- What a read of a register of BAR0 by a link returns; IND_DATA is read through the indirect pair. -/
def State.barWord (s : State) (l : Nat) : BarReg → W32
  | .ident k => s.identWord l k
  | .indAddr => (s.link l).indAddr.setWidth 32
  | .indData => 0
  | .linkErr k => (s.link l).errWord k
  | .tick k => s.tickWord l k
  | .fbEntry e k => match (s.link l).fbEntry.find e with
    | some r => wordHalf (if k < 2 then r.v0 false else r.payload) (k % 2 == 1)
    | none => 0
  | .fbStat =>
    let x := s.link l
    BitVec.ofNat 32 (x.fbSpilled.toNat * 2 ^ 16 + bitAt x.fbArmed 8 + x.fbValid)
  | .fbAck => 0
  | .fbCfg =>
    let x := s.link l
    BitVec.ofNat 32 (bitAt x.fbMask 31 + x.privEn.toNat)
  | .msix k => (s.link l).msixWord k
  | .pba k => ((s.link l).pba >>> (32 * k)).setWidth 32
  | .slice w k =>
    let sl := s.windowOwner l w
    let x := s.comSlice sl
    match k with
    | 0 => BitVec.ofNat 32 (x.link.toNat * 2 ^ 30 + sl * 2 ^ 24 + x.window.toNat * 2 ^ 20 + x.pasid.toNat)
    | 1 => BitVec.ofNat 32 (x.st.code * 2 ^ 29 + bitAt x.linkDown 28 + bitAt (s.sliceXAt sl).pasidHold 27 + sat16 (s.fillCount sl))
    | _ => (s.sliceXAt sl).event.setWidth 32
  | .adminBase w hi => wordHalf (s.comQueue (qKey (s.windowOwner l w) 0)).base hi
  | .adminCfg w =>
    let q := s.comQueue (qKey (s.windowOwner l w) 0)
    BitVec.ofNat 32 (bitAt q.run 31 + bitAt q.own 30 + q.interval.toNat * 2 ^ 16 + q.log2.toNat)
  | .queueStat w => (s.qstat.get 0 (s.windowOwner l w)).setWidth 32
  | .stw w k =>
    let sl := s.windowOwner l w
    if k = 0 then word16 (s.stwStat.get (0, 0) sl).1.toNat (s.stwStat.get (0, 0) sl).2.toNat else (s.stwEvent.get 0 sl).setWidth 32
  | .eq w k => s.eqWord (s.windowOwner l w) k
  | .holdoff w i =>
    let q := s.eq (s.windowOwner l w)
    BitVec.ofNat 32 ((List.range 4).foldl (fun n j => n + (q.holdoff.get 0 (4 * i + j)).toNat * 2 ^ (8 * j)) 0)
  | .raw w k =>
    let x := s.raw (s.windowOwner l w)
    match k with
    | 0 => BitVec.ofNat 32 (bitAt x.run 31 + x.chan.toNat * 2 ^ 24 + x.log2)
    | 1 => wordHalf x.base false
    | 2 => wordHalf x.base true
    | _ => BitVec.ofNat 32 (x.lost.toNat * 2 ^ 16 + bitAt x.refused 0)
  | .chan w c k => s.chanWord (s.windowOwner l w) c k
  | .qprod w q => s.queueWord (s.windowOwner l w) q false
  | .qcons w q => s.queueWord (s.windowOwner l w) q true

/-! ## Clear on read (R503 to R505, R518) -/

/-- The link to which the target of a shared source is bound, as committed (R504). -/
def State.servedBy (s : State) (g id l : Nat) : Bool := s.boundLink (s.sharedTarget (srcKey sharedSpace g id)) == some l

/-- What a read of an indirect register clears, when it comes from the link of the source's target. -/
def State.indClear (s : State) (l : Nat) : IndReg → State
  | .port p 2 => if s.servedBy 1 p l then s.updPort p (fun x => { x with event := 0 }) else s
  | .pwr p 3 => if s.servedBy 3 p l then s.updFuse p (fun x => { x with event := 0 }) else s
  | .sup 3 => if s.servedBy 4 0 l then { s with supply := { s.supply with event := 0 } } else s
  | .domEvent d => if s.servedBy 5 d l then s.updDom d (fun x => { x with event := 0 }) else s
  | .dtPend k =>
    let keep (i : Nat) : Bool := s.dtPend.getLsbD i && !(i / 32 == k && s.servedBy 6 i l)
    { s with dtPend := BitVec.ofNat 128 ((List.range 128).foldl (fun n i => n + bitAt (keep i) i) 0) }
  | .probe p 8 => if s.servedBy 7 p l then s.updProbe p (fun x => { x with event := 0 }) else s
  | .met 1 => if s.servedBy 8 0 l then { s with met := { s.met with event := 0 } } else s
  | .wm 4 => if s.servedBy 9 0 l then { s with watch := { s.watch with event := 0 } } else s
  | _ => s

/-- The registers of BAR0 that hold RC fields. -/
def BarReg.clears : BarReg → Bool
  | .linkErr 0 | .tick 7 | .slice _ 2 | .queueStat _ | .stw _ 1 | .eq _ 7 | .raw _ 3 | .chan _ _ 3 => true
  | _ => false

/-- What a read of a register of BAR0 clears. -/
def State.barClear (s : State) (l : Nat) : BarReg → State
  | .linkErr 0 => s.updLink l (fun x => { x with err := 0 })
  | .tick 7 => s.updLink l (fun x => { x with commitStat := 0 })
  | .slice w 2 => s.updSliceX (s.windowOwner l w) (fun x => { x with event := 0 })
  | .queueStat w => { s with qstat := s.qstat.set (s.windowOwner l w) 0 }
  | .stw w 1 => { s with stwEvent := s.stwEvent.set (s.windowOwner l w) 0 }
  | .eq w 7 => s.updEq (s.windowOwner l w) (fun q => { q with coalesced := false, lost := false })
  | .raw w 3 => s.updRaw (s.windowOwner l w) (fun x => { x with refused := false })
  | .chan w c 3 => if s.chanOwner c = s.windowOwner l w then s.updChanX c (fun x => { x with event := 0 }) else s
  | _ => s

end Sys2Proof.Machine
end

