-- ==== Sys2Proof/Machine/RegAccess.lean ====
section
/-! DEFINITION. Accesses of a host to BAR0 (16 R497 to R511): writes that act at once or are held for the commit, the indirect pair,
clear on read, and the errors of a link. -/
namespace Sys2Proof.Machine

open Sys2Proof

/-! ## The indirect pair (R501, R502, R506, R507) -/

/-- The register's domain does not answer (R507). -/
def State.domainDown (s : State) (r : IndReg) : Bool :=
  match r.domain with
  | some d => !s.domUp d
  | none => false

/-- IND_ADDR increases by 4 (R506). -/
def State.indStep (s : State) (l : Nat) : State := s.updLink l (fun x => { x with indAddr := x.indAddr + 4 })

/-- A write of PROBE_CTL (R529): fields out of range are not taken (log entry 55). -/
def ProbeS.ctl (x : ProbeS) (v : W32) : ProbeS :=
  let f := v.toNat / 4 % 2 ^ 14
  { x with interval := BitVec.ofNat 16 (v.toNat / 2 ^ 16), irEn := v.getLsbD 1
           vf := if 5000 ≤ f ∧ f ≤ 9999 then BitVec.ofNat 14 f else x.vf }

/-- A write of WM_CFG (R538): a station address out of range is not taken (log entry 55); a frame in reception keeps the address before. -/
def WatchS.cfg (x : WatchS) (v : W32) : WatchS :=
  let a := v.toNat / 2 ^ 8 % 256
  { x with baud := v.setWidth 3, station := if x.rx = [] then none else some x.hears, addr := if 1 ≤ a ∧ a ≤ 247 then BitVec.ofNat 8 a else x.addr }

/-- A write of an indirect register (R18, R501, R502): every writable field is guarded. -/
def State.indWrite (s : State) (l : Nat) (a : BitVec 24) (r : IndReg) (v : W32) : State :=
  if s.comWarden ≠ l then s
  else match r with
    | .port _ 0 => s.guardedWrite l a.toNat v
    | .pdCtl _ => s.guardedWrite l a.toNat v
    | .injCtl n => s.injCtlWrite l n v
    | .injTick n => s.updDet n (fun x => { x with injTick := v })
    | .probe p 0 => s.updProbe p (fun x => x.ctl v)
    | .wm 0 => s.updWatch (fun x => x.cfg v)
    | _ => s

/-- A write of the register that IND_ADDR names, without the increase; an unimplemented one is an Unsupported Request (R498, R507; log
entry 95). -/
def State.indDataWrite (s : State) (l : Nat) (v : W32) : State :=
  let a := (s.link l).indAddr
  match indReg a with
  | none => s.badAccess l 0x104 true (some a) 0
  | some r => if s.domainDown r then s.linkErr l 2 else s.indWrite l a r v

/-- A read of the register that IND_ADDR names, without the increase: the state after it and the value; none where it is unimplemented (R501,
R507; log entry 95). -/
def State.indDataRead (s : State) (l : Nat) : Option (State × W32) :=
  match indReg (s.link l).indAddr with
  | none => none
  | some r =>
    if s.domainDown r then some (s.linkErr l 2, 0)
    else some (s.indClear l r, if r.guarded && s.comWarden != l then 0 else s.indWord r)

/-! ## Accesses that are not accepted (R497, R498) -/

/-- The access reaches an implemented location: for IND_DATA, the register that IND_ADDR names (R507). -/
def State.implemented (s : State) (l : Nat) (off : BarOff) : Bool :=
  match s.reaches l off with
  | some .indData => (indReg (s.link l).indAddr).isSome
  | some _ => true
  | none => false

/-- The indirect address to capture of an access that covers IND_DATA (R498). -/
def State.captured (s : State) (l : Nat) (off : BarOff) (qword : Bool) : Option (BitVec 24) :=
  if off.toNat / 4 = 0x41 ∨ (qword = true ∧ off.toNat / 8 = 0x20) then some (s.link l).indAddr else none

/-- UNSUPPORTED_REQUEST (R497, R498, R506): an access of a size that is not accepted, or one of whose halves is unimplemented; for
any other access there is nothing to do. -/
def execUnsupportedRequest (a : BarAccess) (s : State) : Host.Outcome State Fault Refusal :=
  let l := a.link.toNat
  let bad := !s.implemented l a.off || (a.qword && !s.implemented l (a.off + 4))
  let ur (t : State) : State := if a.write then t else t.emit (.ur a.link)
  .next (if a.wellSized = false then ur (s.badAccess l a.off a.write (s.captured l a.off a.qword) 1)
    else if bad then
      let t := ur (s.badAccess l a.off a.write (s.captured l a.off a.qword) 0)
      if a.qword = false ∧ a.off.toNat / 4 = 0x41 then t.indStep l else t
    else s)

/-! ## Reads (R60, R497, R498, R503 to R506) -/

/-- A read of a DWORD of BAR0: the state after it and the value; none where it is unimplemented. TICK_LO latches TICK_HI (R60), and RC
fields clear (R503, R504). -/
def State.dwordRead (s : State) (l : Nat) (off : BarOff) : Option (State × W32) :=
  match s.reaches l off with
  | some .indData => s.indDataRead l
  | some (.tick 0) => some ({ s with tick := { s.tick with hiLatch := (s.tick.n >>> 32).setWidth 16 } }, s.now32)
  | some r => some (s.barClear l r, s.barWord l r)
  | none => none

/-- A read that draws Unsupported Request, with its bit of LINK_ERR (R497, R498). -/
def State.badRead (s : State) (l : Nat) (off : BarOff) (qword : Bool) (bit : Nat) : State :=
  (s.badAccess l off false (s.captured l off qword) bit).emit (.ur (BitVec.ofNat 2 l))

/-- A read of BAR0, a DWORD, or a QWORD as its two halves (R497, R506): where a half is unimplemented nothing is read and no bit clears. -/
def State.barRead (s : State) (l : Nat) (off : BarOff) (qword : Bool) : State :=
  let lk := BitVec.ofNat 2 l
  if off.toNat % (if qword then 8 else 4) ≠ 0 then s.badRead l off qword 1
  else if qword then
    if s.implemented l off && s.implemented l (off + 4) then
      match s.dwordRead l off with
      | some (t, a) =>
        match t.dwordRead l (off + 4) with
        | some (u, b) => (if off.toNat / 8 = 0x20 then u.indStep l else u).emit (.readCpl lk [a, b])
        | none => s
      | none => s
    else s.badRead l off true 0
  else
    let t := match s.dwordRead l off with
      | some (t, a) => t.emit (.readCpl lk [a])
      | none => s.badRead l off false 0
    if off.toNat / 4 = 0x41 then t.indStep l else t

/-! ## Writes of registers (R18, R498, R500) -/

/-- A write of PPS_CTL (R60, R501): from the warden link, at once; without PPS_EN the discipline is absent, and with it until the
first edge. PPS_FREQ keeps the correction last applied when PPS_EN is cleared (log entry 61). -/
def State.ppsCtlWrite (s : State) (l : Nat) (v : W32) : State :=
  if s.comWarden = l then
    let t := s.tick
    { s with tick := { t with
      ppsCtl := v &&& 0xFFFF0003
      pps := if v.getLsbD 0 then t.pps else .absent
      ppsRun := if v.getLsbD 0 then t.ppsRun else 0, ppsLast := if v.getLsbD 0 then t.ppsLast else none } }
  else s

/-- A write of the MSI-X table (R404, R509): a vector that is unmasked is sent when it is pending. -/
def State.msixWrite (s : State) (l k : Nat) (v : W32) : State :=
  (s.updLink l (fun x => { x with msixTable := x.msixTable.set k (if k % 4 = 3 then v &&& 1 else v) })).sendPending l

/-- A write of a register of BAR0 other than IND_DATA. -/
def State.barWrite (s : State) (l : Nat) (off : BarOff) (r : BarReg) (v : W32) : State :=
  let held (w : Nat) : State := s.windowWrite l w (off.toNat % 0x10000) v
  match r with
  | .indAddr => s.updLink l (fun x => { x with indAddr := (v &&& 0x00FFFFFC).setWidth 24 })
  | .tick 8 => s.ppsCtlWrite l v
  | .fbAck => s.fbAckWrite l v
  | .fbCfg => s.fbCfgWrite l v
  | .msix k => s.msixWrite l k v
  | .adminBase w _ => held w
  | .adminCfg w => held w
  | .eq w 0 => held w
  | .eq w 1 => held w
  | .eq w 2 => held w
  | .eq w 4 => held w
  | .eq w 5 => held w
  | .eq w 6 => s.grpMaskWrite l w v
  | .holdoff w _ => held w
  | .raw w 0 => held w
  | .raw w 1 => held w
  | .raw w 2 => held w
  | .chan w c k =>
    if k = 2 ∧ v.getLsbD 3 = true then s.killWrite l w c v
    else if k = 2 ∨ (4 ≤ k ∧ k < 12) ∨ k = 22 then s.chanWrite l w c (4 * k) v
    else s
  | .qprod w q => s.qprodWrite l w q v
  | .qcons w q => s.qconsWrite l w q
  | _ => s

/-- A write of a DWORD of BAR0 that reaches an implemented location (log entry 72). -/
def State.dwordWrite (s : State) (l : Nat) (off : BarOff) (v : W32) : State :=
  match s.reaches l off with
  | some .indData => s.indDataWrite l v
  | some r => s.barWrite l off r v
  | none => s

/-- REGISTER_WRITE (R18, R497, R498, R506): a DWORD, or a QWORD as its two halves; where a half is unimplemented nothing is written. A
QWORD write that covers the indirect pair writes IND_ADDR first, then one indirect register. -/
def execRegisterWrite (l : Link) (off : BarOff) (v : W32) (hi : Option W32) (s : State) : Host.Outcome State Fault Refusal :=
  let k := l.toNat
  .next (match hi with
    | none =>
      if off.toNat % 4 ≠ 0 then s.badAccess k off true (s.captured k off false) 1
      else if off.toNat / 4 = 0x41 then (s.indDataWrite k v).indStep k
      else if s.implemented k off then s.dwordWrite k off v else s.badAccess k off true none 0
    | some h =>
      let t := s.dwordWrite k off v
      if off.toNat % 8 ≠ 0 then s.badAccess k off true (s.captured k off true) 1
      else if (s.reaches k off).isSome && t.implemented k (off + 4) then
        let t := t.dwordWrite k (off + 4) h
        if off.toNat / 8 = 0x20 then t.indStep k else t
      else s.badAccess k off true (t.captured k off true) 0)

/-! ## The commands of an access -/

/-- IND_DATA_ACCESS (R506): a DWORD read or write of IND_DATA, and the increase whether it succeeded or not. -/
def execIndDataAccess (l : Link) (w : Option W32) (s : State) : Host.Outcome State Fault Refusal :=
  .next (match w with
    | some v => (s.indDataWrite l.toNat v).indStep l.toNat
    | none => s.barRead l.toNat 0x104 false)

/-- TICK_LO_READ (R60, R497): TICK_LO, with the bits that it latches into TICK_HI when the access is a QWORD. -/
def execTickLoRead (l : Link) (qword : Bool) (s : State) : Host.Outcome State Fault Refusal := .next (s.barRead l.toNat 0x200 qword)

/-- CLEAR_ON_READ (R497, R503 to R505): a read of BAR0; RC fields of what it reads clear. -/
def execClearOnRead (l : Link) (off : BarOff) (qword : Bool) (s : State) : Host.Outcome State Fault Refusal :=
  .next (s.barRead l.toNat off qword)

/-! ## Errors of a link (R511, R514) -/

/-- An error of a link is set in LINK_ERR and reported through AER. -/
def State.linkFault (s : State) (l : Link) (bit : Nat) : State := (s.linkErr l.toNat bit).emit (.aer l (BitVec.ofNat 8 bit))

/-- COMPLETION_TIMEOUT (R511, R514). -/
def execCompletionTimeout (l : Link) (s : State) : Host.Outcome State Fault Refusal := .next (s.linkFault l 5)
/-- ECRC_FAILURE (R511, R514): the TLP is discarded. -/
def execEcrcFailure (l : Link) (s : State) : Host.Outcome State Fault Refusal := .next (s.linkFault l 6)
/-- POISONED_WRITE (R511, R514): the write is discarded. -/
def execPoisonedWrite (l : Link) (s : State) : Host.Outcome State Fault Refusal := .next (s.linkFault l 3)

/-! ## Held writes at a commit (R18, R535) -/

/-- A held write of a window register takes effect for the slice whose window it came through. -/
def State.applyWindow (s : State) (sl : Nat) (r : BarReg) (v : W32) : State :=
  match r with
  | .adminBase _ hi => s.applyAdminBase sl hi v
  | .adminCfg _ => s.applyAdminCfg sl v
  | .eq _ 0 => s.applyEqBase sl false v
  | .eq _ 1 => s.applyEqBase sl true v
  | .eq _ 2 => s.applyEqCfg sl v
  | .eq _ 4 => s.applyEqCons sl (v.setWidth 17)
  | .eq _ 5 => s.applyEqCtl sl v
  | .holdoff _ i => s.applyHoldoff sl i v
  | .raw _ 0 => s.applyRawCtl sl v
  | .raw _ 1 => s.applyRawBase sl false v
  | .raw _ 2 => s.applyRawBase sl true v
  | .qprod _ q => s.applyQprod sl q v
  | .chan _ c k =>
    if s.chanOwner c ≠ sl then s
    else if k = 2 then s.applyChCtl c v
    else if k = 22 then s.updChan c (fun x => { x with cons := v.setWidth 13 })
    else s.applyShadow c (k - 4) v
  | _ => s

/-- A held write of a register of the indirect space: the watchman's own setting of a port or domain in the same commit stands (R535). -/
def State.applyInd (s : State) (r : IndReg) (v : W32) : State :=
  match r with
  | .port p 0 => if s.wmTakesPort p then s else s.applyLinkCtl p v
  | .pdCtl d => if s.wmTakesDom d then s else s.applyPdCtl d v
  | _ => s

/-- The writes that a queue, a channel or an event queue of a slice sees in a commit wake PD8 (R458; log entry 33). -/
def BarReg.wakesPd8 : BarReg → Bool
  | .qprod _ _ | .adminCfg _ | .adminBase _ _ | .chan _ _ _ | .eq _ _ | .holdoff _ _ => true
  | _ => false

/-- A held write at its commit (log entry 72). -/
def State.applyWrite (s : State) (w : HWrite) : State :=
  match w.tgt with
  | .bar off =>
    match barReg off, w.sl with
    | some r, some sl =>
      let s := s.applyWindow sl.toNat r w.val
      if r.wakesPd8 then s.wakeRet 8 4 (s.now * 12500 + 12033) else s
    | _, _ => s
  | .ind a =>
    match indReg a with
    | some r => s.applyInd r w.val
    | none => s

/-- The held writes of the links at a commit, link by link in order of arrival (R18, R35): then withheld writes fill the buffers (log
entry 72). -/
def State.commitWrites (s : State) : State :=
  let s := s.forAll (fun t l => t.forAll State.applyWrite (t.link l).buf) (List.range 4)
  { s with links := s.links.mapV (fun x => { x with buf := x.withheld.take 256, withheld := x.withheld.drop 256 }) }

end Sys2Proof.Machine
end

