-- ==== Sys2Proof/Machine/Snapshot.lean ====
section
/-! DEFINITION. What a tick has measured (02, 10, 13, 14): the registers that show it, the snapshot of a committed tick, and the
merging of the measurements of abandoned ones. -/
namespace Sys2Proof.Machine

open Sys2Proof

/-! ## Measurements -/

/-- The value measured of an item in the tick. -/
def measOf (meas : List Meas) (k : Nat) : Option W32 := (meas.find? (fun m => m.item.toNat == k)).map (·.value)

/-- The value measured of an item, else what was there. -/
def measElse {w : Nat} (meas : List Meas) (k : Nat) (f : W32 → BitVec w) (x : BitVec w) : BitVec w :=
  match measOf meas k with
  | some v => f v
  | none => x

/-- The power of a port in the window in µW: its voltage in mV times its current in mA. -/
def portUw (meas : List Meas) (p : Nat) : Option Nat :=
  match measOf meas (portItem p 0), measOf meas (portItem p 1) with
  | some v, some i => some (v.toNat * i.toNat)
  | _, _ => none

/-- The fuse of a port after a window (R426, R439): its measured registers, and the run of ticks above PWR_MAX. -/
def PortP.measure (meas : List Meas) (p pwrMax : Nat) (f : PortP) : PortP :=
  { f with
    vout := measElse meas (portItem p 0) (fun v => BitVec.ofNat 16 (v.toNat / 10)) f.vout
    iout := measElse meas (portItem p 1) (·.setWidth 16) f.iout
    sensor := measElse meas (portItem p 3) (·.setWidth 16) f.sensor
    overFor := match portUw meas p with
      | some w => if f.gate && decide (pwrMax * 1000000 < w) then f.overFor + 1 else 0
      | none => 0 }

/-- The port after a window (R86): the run of ticks with less than 2 mA while it is powered. -/
def PortL.measure (meas : List Meas) (p : Nat) (gate : Bool) (x : PortL) : PortL :=
  match measOf meas (portItem p 1) with
  | some i => { x with under := if gate && x.st.attached && decide (i.toNat < 2) then x.under + 1 else 0 }
  | none => x

/-- A window of measurements at a port that is listed, or measured (log entry 113). -/
def State.measurePort (meas : List Meas) (s : State) (p : Nat) : State :=
  if meas.any (fun m => m.item.toNat / 32 == (portItem p 0) / 32) then
    let w := (s.comPSet p).pwrMax
    let s := s.updFuse p (PortP.measure meas p w)
    s.updPort p (PortL.measure meas p (s.powered p))
  else s

/-- The supply after a window (R434, R444, R465): its measured registers, and the overload sequencer: above 415 W in two consecutive
ticks it sheds, until the total of a tick is 400 W or less (log entry 26). -/
def SupplyS.measure (meas : List Meas) (x : SupplyS) : SupplyS :=
  let x := { x with
    input := measElse meas 0 (·.setWidth 16) x.input, bulk := measElse meas 1 (·.setWidth 16) x.bulk
    bus := measElse meas 2 (fun v => BitVec.ofNat 16 (v.toNat / 10)) x.bus
    total := measElse meas 3 (·.setWidth 16) x.total, load := measElse meas 4 (·.setWidth 16) x.load
    energy := measElse meas 5 (·.setWidth 8) x.energy
    bankReady := match measOf meas 5 with
      | some v => x.bankReady && decide (60 ≤ v.toNat)
      | none => x.bankReady }
  match measOf meas 3 with
  | some v =>
    let run := if 4150 < v.toNat then x.overRun + 1 else 0
    { x with overRun := run, shedding := if v.toNat ≤ 4000 then false else x.shedding || decide (2 ≤ run) }
  | none => x

/-- What the tick has measured reaches the registers that show it: not rolled back (R14, R29). -/
def State.takeMeas (s : State) (meas : List Meas) : State :=
  if meas = [] then s
  else (s.forAll (State.measurePort meas) (List.range 16)).updSupply (SupplyS.measure meas)

/-! ## Items (R14, R336) -/

/-- The items that PD10 measures (R8, R456). -/
def byPd10 (k : Nat) : Bool :=
  k == 6 || k == 7 || decide (0x800 ≤ k) ||
  (decide (0x100 ≤ k ∧ k < 0x300) && [0x03, 0x07, 0x08, 0x09, 0x0A].contains ((k - 0x100) % 0x20))

/-- A physical item of port `p` that the module itself holds. -/
def State.portPhys (s : State) (p k : Nat) : Option W32 :=
  let y := s.probe p
  match k with
  | 0x04 => if s.domOn 12 then some ((s.fuse p).model.signExtend 32) else none
  | 0x05 => some (BitVec.ofNat 32 (s.comPSet p).ilim)
  | 0x06 => some (BitVec.ofNat 32 ((s.port p).shown.code + (s.port p).shownSpeed.code * 16))
  | 0x08 => some (BitVec.ofNat 32 (y.recent s.now).length)
  | 0x09 => if y.ir = 0 ∧ y.irTick = 0 then none else some y.ir
  | 0x0A => if y.tdr = 0 then none else some y.tdr
  | 0x07 | 0x10 | 0x11 => some (s.tickCounts.get 0 (portItem p k))
  | _ => none

/-- A physical item as measured in the tick; none without a measurement, and none of PD10's while it is not ON (R456). -/
def State.physItem (s : State) (meas : List Meas) (k : Nat) : Option W32 :=
  if byPd10 k && !s.domOn 10 then none
  else if 0x800 ≤ k then Tab.find s.metFresh.items k
  else if 0x100 ≤ k ∧ k < 0x300 then
    match s.portPhys ((k - 0x100) / 0x20) ((k - 0x100) % 0x20) with
    | some v => some v
    | none => measOf meas k
  else measOf meas k

/-- How the values that abandoned ticks left merge with that of the tick (R39). -/
inductive MergeKind where
  | sum | mean | peak | last
deriving DecidableEq, Repr

/-- The merging of an item. DESIGN CHOICE for what R39 does not name: an averaged power, as total port power and internal load, is averaged
as currents and voltages are, and any other item takes the later value (log entry 60). -/
def mergeKind (k : Nat) : MergeKind :=
  if k < 5 then .mean
  else if 0x100 ≤ k ∧ k < 0x300 then
    match (k - 0x100) % 0x20 with
    | 0x00 | 0x01 => .mean
    | 0x02 => .peak
    | 0x07 | 0x10 | 0x11 => .sum
    | _ => .last
  else if 0x800 ≤ k ∧ k < 0x820 ∧ k % 8 = 6 then .sum
  else .last

/-- One value of the values of an item over ticks. -/
def mergeVals : MergeKind → List W32 → Option W32
  | _, [] => none
  | .sum, vs => some (BitVec.ofNat 32 (vs.map (·.toNat)).sum)
  | .mean, vs => some (BitVec.ofNat 32 ((vs.map (·.toNat)).sum / vs.length))
  | .peak, vs => some (BitVec.ofNat 32 ((vs.map (·.toNat)).foldl max 0))
  | .last, vs => vs.getLast?

/-- The values of an item over the abandoned ticks and this one. -/
def State.latched (s : State) (meas : List Meas) (k : Nat) : List W32 := s.merging.get [] k ++ (s.physItem meas k).toList

/-- The outstanding tickets of the contexts beyond a bridge (R336). -/
def State.ticketsOf (s : State) (b : Nat) : Nat :=
  ((s.ctxs.map (·.1)).filter (fun i => (s.comCtx i).tktValid && s.bridgeOf i == some b)).length

/-- An item of a bridge slot in use (R336). -/
def State.bridgeVal (s : State) (b k : Nat) : Option W32 :=
  let x := s.comBridge b
  match k with
  | 2 => some (BitVec.ofNat 32 (s.ticketsOf b))
  | 3 => if x.latency = [] then none else some (BitVec.ofNat 32 (x.latency.sum / x.latency.length))
  | 6 => x.dev.map (fun d => BitVec.ofNat 32 (s.ep0 d.toNat).port.toNat)
  | _ => some (s.traffic.get 0 (bridgeItem b k))

/-- The items of committed traffic of a port (R336; log entry 91). -/
def trafficItem (k : Nat) : Bool := decide (0x0B ≤ k ∧ k < 0x10) || k == 0x12

/-- An item of the snapshot of a committed tick (R14, R39, R336). -/
def State.snapValue (s : State) (meas : List Meas) (k : Nat) : Option W32 :=
  if k = 8 then some (BitVec.ofNat 32 s.mergeTicks)
  else if k = 9 then some s.now32
  else if 0x100 ≤ k ∧ k < 0x300 ∧ (k - 0x100) % 0x20 = 0x0F then
    some (BitVec.ofNat 32 (s.shuttle ((k - 0x100) / 0x20)).used)
  else if 0x100 ≤ k ∧ k < 0x300 ∧ trafficItem ((k - 0x100) % 0x20) = true then some (s.traffic.get 0 k)
  else if 0x400 ≤ k ∧ k < 0x600 then s.bridgeVal ((k - 0x400) / 8) (k % 8)
  else mergeVals (mergeKind k) (s.latched meas k)

/-- The items that abandoned ticks hand on. -/
def physKeys : List Nat :=
  List.range 8 ++
  (List.range 16).flatMap (fun p => ((List.range 0x13).filter (fun k => !trafficItem k)).map (portItem p)) ++
  (List.range 32).map (0x800 + ·) ++ (List.range 5).map (0x840 + ·)

/-- The items of a snapshot, in ascending order: those of R336 but for bridge slots not in use. -/
def State.snapKeys (s : State) : List Nat :=
  List.range 10 ++ (List.range 16).flatMap (fun p => (List.range 0x13).map (portItem p)) ++
  ((s.bridges.map (·.1)).filter (fun b => b < 64 && (s.comBridge b).dev.isSome)).flatMap (fun b => (List.range 7).map (bridgeItem b)) ++
  (List.range 32).map (0x800 + ·) ++ (List.range 5).map (0x840 + ·)

/-- The snapshot latched in the selvage of a committed tick, which the graphs of the next tick read (R14, R39). -/
def State.latchSnapshot (s : State) (meas : List Meas) : State :=
  { s with
    snapshot := s.snapKeys.filterMap (fun k => (s.snapValue meas k).map (fun v => (k, v)))
    merging := [], mergeTicks := 0, traffic := [], tickCounts := [] }

/-- The measurements of an abandoned tick wait for the next committed one (R14, R39); its traffic is dropped. -/
def State.holdSnapshot (s : State) (meas : List Meas) : State :=
  { s with
    merging := physKeys.filterMap (fun k => match s.latched meas k with
      | [] => none
      | vs => some (k, vs))
    mergeTicks := s.mergeTicks + 1, traffic := [], tickCounts := [] }

end Sys2Proof.Machine
end

