-- ==== Sys2Proof/Machine/Selvage.lean ====
section
/-! DEFINITION. The selvage (02 R32 to R41): the decision of the commit logic, what a commit makes true, and what an abandon drops. -/
namespace Sys2Proof.Machine

open Sys2Proof

/-! ## The changes of a commit, pending until its epoch -/

/-- The watchman's settings of a port count as the owner's own in this commit (R535). -/
def State.watchOwns (s : State) : State :=
  s.forAll (fun t p => t.ownerSets (actPortOn p)) ((List.range 16).filter s.wmTakesPort)

/-- A port at a commit; a command committed on it wakes its front-end and loom domains (R458). -/
def State.commitPortCmd (s : State) (p : Nat) : State :=
  let asked := !(s.port p).hostCmds.isEmpty || !(s.port p).cmds.isEmpty
  let s := s.commitPort p
  let clk := s.now * 12500 + 12033
  if asked then (s.wakeRet (frontDom p) 3 clk).wakeRet (loomDom p) 3 clk else s

/-- A power fault, a loss or a containment that takes a port's devices in this commit (R75, R187). -/
def State.detachTaken (s : State) (p : Nat) : State :=
  if (s.port p).detachNow then (s.detachTree p []).updPort p (fun y => { y with detachNow := false }) else s

/-- What the rest of the commit did to a port is committed with it (R72, R75). -/
def State.settlePort (s : State) (p : Nat) : State :=
  let s := s.detachTaken p
  s.updPort p (PortL.show s.tick.n)

/-- A context that an uncorrectable error has struck is lost, unless a detach takes it in the same commit (R48, R187; log entries 40,
68). -/
def State.loseOne (s : State) (i : Nat) : State :=
  match (s.ctx i).st with
  | .free | .detached => s
  | _ => let t := s.loseCtx i; { t with ctxLost := satInc t.ctxLost }

/-- A device-table line lost (R184, R186): every endpoint of its eight devices, and their entries; an entry of the line that is FREE or in
QUARANTINE, whose device is not held, stays as it is (log entry 68). -/
def State.loseLine (s : State) (line : Nat) : State :=
  let ds := s.devices.filter (fun d => d / 8 == line && !(s.devXAt d).leaving)
  let s := s.forAll (fun t d => ((t.forAll State.loseOne (t.ctxsOf d)).updDev d (fun x => { x with st := .lost })).updDevX d (fun x =>
    { x with lostAt := some t.tick.n })) ds
  { s with ctxLost := satInc s.ctxLost }

/-- The losses that the commit takes (R48; log entry 40). -/
def State.commitLost (s : State) : State :=
  let l := s.tick.lost
  let s := s.forAll (fun t x => match x with
    | .none => t
    | .context i => t.loseOne i.toNat
    | .devLine d => t.loseLine d.toNat) l
  { s with tick := { s.tick with lost := [] } }

/-- Records of descriptors that ended in the tick are owed from its commit (R314). -/
def State.commitRecs (s : State) (c : Nat) : State :=
  let l := (s.chan c).owed
  if l = [] then s
  else
    let s := s.updChan c (fun x => { x with owed := [] })
    { s with due := { s.due with recs := s.due.recs ++ l.map (fun r => (BitVec.ofNat 6 c, r)) } }

/-- The speed last selected on a port (R244). -/
def State.keepSpeed (s : State) (p : Nat) : State :=
  let sp := (s.port p).speed
  if sp ≠ .none ∧ (s.schedAt p).lastSpeed ≠ sp then s.updSched p (fun x => { x with lastSpeed := sp }) else s

/-- The numbers under which a tick has a pending version (R30). -/
def pendingKeys {α : Type} (e : W32) (t : Tab (Ver α)) : List Nat :=
  (t.filter (fun v => match v.2.pend with
    | some (tag, _) => tag == tagOf e
    | none => false)).map (·.1)

/-- Everything that a commit changes before its epoch counts: the steward's decisions, the held host writes, the ports, slices, power,
supply and domains, metrology; then, the detaches of all these done (R187), the resets, the ticket timeouts and the losses; channels and
queues (log entry 39). -/
def State.commitChanges (s : State) : State :=
  let before := s.working'
  let s := (s.forAll State.endPolicy (List.range 4)).watchOwns.commitSteward.commitWrites
  let s := s.forAll State.commitPortCmd (s.ports.map (·.1))
  let s := s.commitActs
  let s := s.commitWatch
  let s := s.forAll State.commitPower ((List.range 16).filter (fun p => (s.power.find p).isSome || (s.pset.find p).isSome))
  let s := s.commitSupply.commitDomains.commitLinks.commitHolds
  let s := (s.settleWork before).commitMet
  let s := (s.forAll State.detachTaken (s.ports.map (·.1))).forAll State.commitResets (s.trees.map (·.1))
  let s := { s.forAll (fun t i => t.ticketTimeout i.toNat) s.timeouts with timeouts := [] }
  let s := s.commitLost
  let s := s.forAll State.commitChan (s.chans.map (·.1))
  let s := s.forAll State.destroyEnd (s.queues.map (·.1))
  let s := s.forAll State.destroyCommit (s.queues.map (·.1))
  let s := s.forAll State.modeSwitch (s.queues.map (·.1))
  let s := s.forAll State.commitRecs (s.chans.map (·.1))
  let s := s.forAll State.settlePort (s.ports.map (·.1))
  let s := s.forAll State.keepSpeed (s.ports.map (·.1))
  s.markDirty (pendingKeys s.e s.ctxs) (pendingKeys s.e s.devs)

/-! ## After the epoch -/

/-- Completion records of a tick are written in ascending queue number, then in ring order (R282). -/
def State.cplRank (s : State) (r : Cpl) : Nat :=
  let k := qKey r.slice.toNat r.queue.toNat
  k * 2 ^ 18 + (s.comQueue k).dist (s.comQueue k).cons r.pos

/-- Puts a record into a list in order, after those of its rank. -/
def insertCpl (rank : Cpl → Nat) (r : Cpl) : List Cpl → List Cpl
  | [] => [r]
  | x :: t => if rank r < rank x then r :: x :: t else x :: insertCpl rank r t

/-- The completions of a tick in order. -/
def sortCpl (rank : Cpl → Nat) (l : List Cpl) : List Cpl := l.foldl (fun acc r => insertCpl rank r acc) []

/-- What the tick owes the owners is due to the record writer in the next (R13), and a MALFORMED entry shows in QUEUE_STAT (R292). -/
def State.oweWork (s : State) (cpls : List Cpl) : State :=
  { s with
    due := { s.due with pay := s.due.pay ++ s.payPend, words := s.due.words ++ s.wordsPend, cpl := s.due.cpl ++ cpls }
    payPend := [], wordsPend := [], cplPend := []
    qstat := (cpls.filter (fun r => fld r.c0 31 24 == stMalformed)).foldl (fun t r => Tab.upd 0 t r.slice.toNat (fun x => setBit x 0)) s.qstat }

/-- Sources at a commit (R397 to R410): acknowledgements of the fast bank, occurrences, generation, hold-off timers and fast vectors. -/
def State.commitEvents (s : State) (frz : List Nat) : State :=
  let s := s.forAll State.applyFbAck (s.links.map (·.1))
  let s := { s.forAll State.takeOccurrence s.raised with raised := [] }
  let s := (s.generateAll frz).holdoffs
  s.forAll State.fastVector (s.links.map (·.1))

/-- The halves of the staging buffers rotate (R11). -/
def State.rotateHalves (s : State) : State :=
  { s with halves := s.halves.mapV (fun h => { outNext := 0, outCur := h.outNext, inPrev := h.inPrev + h.inCur, inCur := 0 }) }

/-- From the decision on, a report stops nothing of the tick (R34, R36). -/
def State.decided (s : State) : State := { s with tick := { s.tick with stopped := true } }

/-- The epoch registers of both copies count a committed tick (R30, R32); a report made while it is carried out belongs to the next tick
(R36). -/
def State.countEpoch (s : State) : State :=
  { s with
    committed := true
    tick := { s.tick with
      epochA := s.tick.epochA + 1, epochB := s.tick.epochB + 1, consec := 0, perDet := [], stopped := false
      late := s.tick.late ++ s.tick.reports, reports := [] } }

/-- A tick committed (R32): every pending version of it becomes committed by the epoch alone (R30). -/
def State.commitTick (s : State) (meas : List Meas) : State :=
  let frz := s.frozenNow
  let rank := s.cplRank
  let s := s.decided.commitChanges
  let cpls := sortCpl rank s.cplPend
  let s := (s.countEpoch.commitJournal).moveClaims
  ((s.commitEvents frz).rotateHalves.latchSnapshot meas).oweWork cpls

/-! ## An abandoned tick -/

/-- The detectors that reported, each once, in order of their first report (log entry 38). -/
def reporters (l : List Report) : List Nat := (l.map (·.det.toNat)).foldl (fun acc d => if acc.contains d then acc else acc ++ [d]) []

/-- The UNIT of a detector's last report in the tick (R519). -/
def lastUnit (l : List Report) (d : Nat) : Byte := ((l.filter (fun r => r.det.toNat == d)).getLast?.map (·.unit)).getD 0

/-- The runs of consecutive ticks that each detector has abandoned (R43): a detector that did not report begins anew. -/
def detRuns (old : Tab Nat) (ds : List Nat) : Tab Nat := ds.foldl (fun t d => Tab.set t d (old.get 0 d + 1)) []

/-- What an abandoned tick drops beside the pending versions (R28, R36): completions, payload, records and occurrences of the tick, and
the decisions and commands that only its commit would have carried out. -/
def State.dropPending (s : State) : State :=
  { s with
    cplPend := [], payPend := [], wordsPend := [], timeouts := [], decisions := [], flagSets := [], ownerSet := []
    raised := s.raised.filter (·.keep), halves := s.halves.mapV (fun h => { h with inCur := 0 }) }

/-- A queue that was polled in an abandoned tick is polled again in the next (R290). -/
def State.pollAgain (s : State) (ks : List Nat) : State :=
  { s with queues := ks.foldl (fun t k => Tab.set t k ((Tab.get (.of {}) t k).both (fun q => { q with again := true }))) s.queues }

/-- COMMIT_STAT bits in the registers of every link (R60, R505). -/
def State.commitStats (s : State) (bits : List Nat) : State :=
  s.forAll (fun t l => t.updLink l (fun x => { x with commitStat := bits.foldl setBit x.commitStat })) (List.range 4)

/-- The registers of an abandoned tick (R60), the runs of R43 and R44 (log entry 38). A detector of class None is never contained (R517). -/
def State.countAbandon (s : State) (split : Bool) : State :=
  let t := s.tick
  let ds := reporters t.reports
  let runs := detRuns t.perDet ds
  let due := ds.filter (fun d => runs.get 0 d == 8 && decide (detClass d (lastUnit t.reports d).toNat ≠ .none))
  let s := { s with
    committed := false
    tick := { t with
      abandons := t.abandons + 1, lastConsec := BitVec.ofNat 8 (min 255 (t.consec + 1)), lastNdet := BitVec.ofNat 8 ds.length
      lastFirst := BitVec.ofNat 7 (ds.headD 0), lastTick := s.now32, consec := t.consec + 1
      perDet := runs.filter (fun x => x.2 != 8), escalate := t.escalate ++ due.map (fun d => (d, lastUnit t.reports d))
      restartDue := t.restartDue || decide (64 ≤ t.consec + 1), reports := [] } }
  s.commitStats ([0] ++ (if ds.contains 1 then [1] else []) ++ (if split then [2] else []) ++ (if 2 ≤ ds.length then [3] else []))

/-- ABANDON_LAST (R60). -/
def State.abandonLast (s : State) : Nat :=
  s.tick.lastConsec.toNat * 2 ^ 24 + s.tick.lastNdet.toNat * 2 ^ 16 + s.tick.lastFirst.toNat

/-- A tick abandoned (R30, R36, R40): its pending versions are dropped, S0 hears of it, and its measurements wait (R39; log entries 4,
70). -/
def State.abandonTick (s : State) (split : Bool) (meas : List Meas) : State :=
  let polled := (s.queues.map (·.1)).filter (fun k => (s.queue k).polled = some s.tick.n)
  let e := s.e
  let s := s.dropPending.mapVer (Ver.drop e)
  let s := (s.forAll State.abandonChan (s.chans.map (·.1))).forAll State.abandonEntries (s.queues.map (·.1))
  let s := s.pollAgain polled
  let s := s.forAll State.abandonPort (s.ports.map (·.1))
  let s := s.countAbandon split
  let s := s.tr 0 12033 0xD 0 0 0 s.now32
  ((s.occur (srcKey sharedSpace 0 0) (BitVec.ofNat 64 (s.abandonLast * 2 ^ 32 + s.tick.lastTick.toNat)) true).moveClaims).holdSnapshot meas

/-! ## The decision -/

/-- The copies of the commit logic disagree (R33): DT000 reports (log entry 112). -/
def State.splitReport (s : State) (split : Bool) : State := if split then s.report 0 0 false else s

/-- The tick is to be committed (R33): no report belongs to it, and the copies agree. -/
def State.commits (s : State) (split : Bool) : Bool := !split && s.tick.reports.isEmpty

/-- A tick runs: after AON release (R464; log entry 12). -/
def State.ticking (s : State) : Bool := s.supply.release.isNone && decide (s.supply.st ≠ .start)

/-- The Field keep-alive (R64): in the selvage of a phase-7 tick, on every port that holds its line at Field speed and has sent no packet in
the frame. -/
def State.keepAlive (s : State) (p : Nat) : State :=
  let x := s.port p
  if decide (s.phase = 7) && decide (x.speed = .field) && decide (x.st = .recovery ∨ x.st = .active) && !x.sent && s.frontOn p then
    s.emit (.line (BitVec.ofNat 4 p) .keepAlive)
  else s

/-- SELVAGE (R32, R33, R36, R451): the decision at cycle 12,032, once in a tick; after POWER_DOWN nothing is committed or abandoned. -/
def execSelvage (split : Bool) (meas : List Meas) (s : State) : Host.Outcome State Fault Refusal :=
  .next (if s.ticking && !s.tick.selvage then
      let s := (s.takeMeas meas).forAll State.keepAlive (List.range 16)
      let s :=
        if s.isDown then s
        else if s.commits split then s.commitTick meas
        else (s.splitReport split).abandonTick split meas
      { s with tick := { s.tick with selvage := true } }
    else s)

end Sys2Proof.Machine
end

