-- ==== Sys2Proof/Machine/Wire.lean ====
section
/-! DEFINITION. The ends of wire sequences and POWER_NOTICE (04, 06). -/
namespace Sys2Proof.Machine

open Sys2Proof

/-- WIRE_SEQUENCE_END (R125): the reply to the shuttle's sequence in progress has been received, and acknowledged where it is a sheaf, at a
cycle. After an abandon a shuttle sends no handshake (R36). -/
def execWireSequenceEnd (p : Port) (reply : List RxPkt) (cyc : Cycle) (s : State) : Host.Outcome State Fault Refusal :=
  .next (if s.working then s.wireArrives p.toNat reply cyc.toNat else s)

/-- RESPONSE_TIMEOUT (R69, R125): no SD within the response timeout; the transaction is NO_REPLY. -/
def execResponseTimeout (p : Port) (cyc : Cycle) (s : State) : Host.Outcome State Fault Refusal :=
  .next (if s.working then s.wireSilent p.toNat cyc.toNat else s)

/-- POWER_NOTICE (R156, R232): the notice that is due goes out at a boundary between bus instructions. -/
def execPowerNotice (p : Port) (s : State) : Host.Outcome State Fault Refusal :=
  let k := p.toNat
  .next (if s.noticeDue k && (s.shuttle k).seqs.all (fun q => !q.started) then
      s.sendNotice k (max (max (s.shuttle k).ended (s.shuttle k).treeAt) (s.thread k).cycle)
    else s)

end Sys2Proof.Machine
end

