-- ==== Sys2Proof/Machine/Ticks.lean ====
section
/-! DEFINITION. The beginning of a tick (02 R24), the fold sweep (R31), the 1PPS discipline (R57 to R59), and the containment of R43. -/
namespace Sys2Proof.Machine

open Sys2Proof

/-! ## TICK_BEGIN -/

/-- The credit of a bridge grows by PACE_RATE / 64 in a tick, up to the larger of 1 and PACE_RATE / 8 (R345). -/
def Bridge.grow (b : Bridge) : Bridge := { b with credit := max b.credit (min (b.credit + b.pace) (max 64 (8 * b.pace))) }

/-- The shuttle of a port at cycle 0 (R231, R232): idle, its lead that of TREE_ALLOW; a POWER_NOTICE due stays due. -/
def State.shuttleAt0 (s : State) (p : Nat) : State :=
  s.updShuttle p (fun x => { lead := s.treeAllow p, notice := x.notice })

/-- The tick flag of a task that takes it (R323; log entry 108). -/
def State.tickFlag (s : State) (t : Nat) : State :=
  if (s.task t).live && (s.task t).ticksub then s.updTask t (fun x => { x with f := setBit x.f 31 }) else s

/-- The steward at cycle 0 (R252, R322, R323, R340): no runs begun, tick flags set, the built-in policies ready, every task of a graph
that runs evaluated. -/
def State.stewardAt0 (s : State) : State :=
  if s.domOn 11 then
    let s := s.forAll (fun t c => t.updCore c (fun x => { x with
      runs := [], used := 0, policies := [], run := none, done := [], polUsed := 0 })) (s.cores.map (·.1))
    let s := s.forAll State.policyReady (List.range 7)
    let s := s.forAll State.tickFlag (s.tasks.map (·.1))
    s.forAll (fun t k => if (t.graph (t.task k).graph.toNat).stopped then t else t.evalTask k 0) (s.tasks.map (·.1))
  else s

/-- The tick number increments (R24), and the reports of the selvage belong to the new tick (R34, R36). -/
def State.nextTick (s : State) : State :=
  { s with
    committed := false, threads := []
    tick := { s.tick with
      n := s.tick.n + 1, selvage := false, reports := s.tick.late, late := [], stopped := !s.tick.late.isEmpty } }

/-- What the last commit made due is the record writer's from the beginning of the tick (R13). -/
def State.takeDue (s : State) : State :=
  { s with
    owedPay := s.owedPay ++ s.due.pay, owedWords := s.owedWords ++ s.due.words, owedCpl := s.owedCpl ++ s.due.cpl
    owedRec := s.owedRec ++ s.due.recs, owedEv := s.owedEv ++ s.due.ev, due := {} }

/-- An eligible entry, neither bound nor drawn, waits again: it is eligible tick by tick (R238, R240). -/
def Entry.rest (e : Entry) : Entry := if e.st = .eligible then { e with st := .waiting } else e

/-- At cycle 0 no entry is eligible yet (R238). -/
def State.entriesAt0 (s : State) : State :=
  { s with queues := s.queues.mapV (Ver.both (fun q => { q with entries := q.entries.map Entry.rest })) }

/-- TICK_BEGIN (R24, R32): cycle 0 of the next tick: the strobe, the signalling committed in the tick before, the shuttles, the bridges'
credit and the steward. -/
def execTickBegin (s : State) : Host.Outcome State Fault Refusal :=
  .next (if s.tick.selvage then
      let s := s.nextTick.takeDue.downTick.metTick
      let s := s.forAll State.startDue (s.chans.map (·.1))
      let s := s.forAll State.beginPort (s.ports.map (·.1))
      let s := s.forAll State.shuttleAt0
        ((List.range 16).filter (fun p => (s.shuttles.find p).isSome || decide ((s.port p).speed ≠ .none)))
      let s := s.forAll (fun t b => if (t.bridge b).dev.isSome then t.updBridge b Bridge.grow else t) (s.bridges.map (·.1))
      let s := if s.domOn 10 then s.enumP16 else s
      s.gleanAt0.entriesAt0.sweepLeaving.stewardAt0
    else s)

/-- FOLD_SWEEP (R31): every versioned item is folded. -/
def execFoldSweep (s : State) : Host.Outcome State Fault Refusal :=
  let e := s.e
  .next (s.mapVer (Ver.fold e))

/-! ## The clock and 1PPS (R54 to R60) -/

/-- CLOCK_FALLBACK (R54, R454): in tick 0 of a cold start, the internal oscillator for the life of the clock. -/
def execClockFallback (tcxo pll : Bool) (s : State) : Host.Outcome State Fault Refusal :=
  .next (if s.supply.release.isNone && s.supply.restoring && decide (s.now = 0) && (tcxo || pll) && !s.tick.degraded then
      let s : State := { s with tick := { s.tick with degraded := true, tcxoFail := tcxo, pllFail := pll } }
      (s.logAon 0x02 0 (BitVec.ofNat 32 s.tickStatus)).occur (srcKey sharedSpace 0 2) (BitVec.ofNat 64 s.tickStatus) true
    else s)

/-- PPS_EN (R60). -/
def TickS.ppsEn (t : TickS) : Bool := t.ppsCtl.getLsbD 0

/-- PPS_EDGE (R60): which edge of the signal marks the second. -/
def TickS.ppsFalling (t : TickS) : Bool := t.ppsCtl.getLsbD 1

/-- CABLE_DELAY in ns (R60). -/
def TickS.cableDelay (t : TickS) : Int := ((t.ppsCtl >>> 16).setWidth 16 : W16).toInt

/-- The window of a valid edge in system clocks about 100,000,000 (R58). -/
def TickS.ppsWindow (t : TickS) : Nat := if t.degraded then 2500000 else 20000

/-- An edge at a clock is valid after the last valid one (R58); the first has none before it (log entry 35). -/
def TickS.ppsValid (t : TickS) (clk : Nat) : Bool :=
  match t.ppsLast with
  | some c => decide (c + 100000000 ≤ clk + t.ppsWindow ∧ clk ≤ c + 100000000 + t.ppsWindow)
  | none => true

/-- The phase error in ns of an edge at a cycle against the start of the tick nearest to it, less the cable's delay (R57, R60; log entry
37). -/
def TickS.ppsError (t : TickS) (cyc : Nat) : Int := (((cyc : Int) * 10 - t.cableDelay + 62500) % 125000) - 62500

/-- The frequency correction that the steering applies: within 1 ppm (R57); its law is not stated, so the value is free (log entry 61). -/
def State.steer (s : State) : W32 := BitVec.ofInt 32 ((s.free.toNat % 2001 : Nat) - 1000 : Int)

/-- PPS_STATE after a valid edge (R57 to R59): ACQUIRING, and LOCKED with the sixteenth edge in a row within 100 ns, never while
TICK_DEGRADED is set (log entry 36). -/
def TickS.ppsNext (t : TickS) (run : Nat) : Pps :=
  match t.pps with
  | .locked => .locked
  | _ => if 16 ≤ run ∧ t.degraded = false then .locked else .acquiring

/-- PPS_EDGE (R57 to R60): an edge of the polarity that marks the second: a valid one is stamped and steers the TCXO; another is counted
(log entry 35). -/
def execPpsEdge (cyc : Cycle) (falling : Bool) (s : State) : Host.Outcome State Fault Refusal :=
  let clk := s.clockAt cyc
  .next (if s.tick.ppsEn && s.tick.ppsFalling == falling then
      if s.tick.ppsValid clk then
        let err := s.tick.ppsError cyc.toNat
        let run := if -100 ≤ err ∧ err ≤ 100 then s.tick.ppsRun + 1 else 0
        let f := s.steer
        let s := if s.tick.degraded then s else s.useFree
        { s with tick := { s.tick with
          ppsStamp := s.now32, ppsCycle := cyc, ppsPhase := BitVec.ofInt 32 err, ppsLast := some clk, ppsRun := run
          pps := s.tick.ppsNext run, ppsFreq := if s.tick.degraded then s.tick.ppsFreq else f } }
      else { s with tick := { s.tick with ppsReject := satInc s.tick.ppsReject } }
    else s)

/-- PPS_HOLDOVER (R58): 1.5 s without a valid edge; the correction stays, and an edge begins again through ACQUIRING (log entry 35). -/
def execPpsHoldover (cyc : Cycle) (s : State) : Host.Outcome State Fault Refusal :=
  .next (match s.tick.ppsLast with
    | some c =>
      if s.tick.ppsEn && decide (c + 150000000 ≤ s.clockAt cyc) then
        { s with tick := { s.tick with pps := .holdover, ppsLast := none, ppsRun := 0 } }
      else s
    | none => s)

/-! ## Containment (R43, R334) -/

/-- A change of both versions of a task. -/
def State.bothTask (s : State) (t : Nat) (f : TaskS → TaskS) : State :=
  { s with tasks := s.tasks.set t ((s.tasks.get (.of {}) t).both f) }

/-- The share of a slice on a core that its tasks leave (R252, R334). -/
def State.unused (s : State) (sl c : Nat) : Nat := s.shareOf sl c - s.charged sl c

/-- The better of two cores by their unused share, the lower where they are equal. -/
def moreUnused (f : Nat → Nat) (a : Option Nat) (b : Nat) : Option Nat :=
  match a with
  | none => some b
  | some x => if f x < f b then some b else some x

/-- A change of both versions of a core's queues. -/
def State.bothCore (s : State) (c : Nat) (f : CoreS → CoreS) : State :=
  { s with cores := s.cores.set c ((s.cores.get (.of {}) c).both f) }

/-- What of a core's queues is not task `t`'s. -/
def CoreS.without (t : Task) (x : CoreS) : CoreS :=
  { x with ready := x.ready.filter (·.task != t), bitmap := x.bitmap.filter (· != t), held := x.held.filter (·.2 != t) }

/-- The entries of a task go with it to the new core: its ready entries to the end of the ready queue there, its back-pressure bit and
what it holds, and its spilled entries (log entry 116). -/
def State.moveEntries (s : State) (old new : Nat) (t : Task) : State :=
  let x := s.coreAt old
  let s := s.bothCore new (fun y => { y with
    ready := y.ready ++ x.ready.filter (·.task == t)
    bitmap := if x.bitmap.contains t then insertTask t y.bitmap else y.bitmap
    held := y.held ++ x.held.filter (·.2 == t) })
  let s := s.bothCore old (CoreS.without t)
  let g := (s.task t.toNat).graph.toNat
  { s with graphs := s.graphs.set g ((s.graphs.get (.of {}) g).both (fun y => { y with
      spill := y.spill.map (fun e => if e.2.task == t then (BitVec.ofNat 2 new, e.2) else e) })) }

/-- The places of a flow that a task's entries have taken, on a core and in the spill ring of its graph. -/
def placesOf (t : Task) (x : CoreS) (g : GraphS) : List W32 :=
  (x.ready ++ g.spill.map (·.2)).filterMap (fun e => if e.task == t then e.place else none)

/-- The places of a flow member's entries end, in each version those that it holds there (R330; log entry 93). -/
def State.endPlaces (s : State) (old : Nat) (t : Task) : State :=
  match (s.task t.toNat).member with
  | none => s
  | some f =>
    let g := (s.task t.toNat).graph.toNat
    let v := s.flows.get (.of {}) f.toNat
    let ends (ps : List W32) (y : FlowS) : FlowS := { y with ended := y.ended ++ ps }
    { s with flows := s.flows.set f.toNat {
        com := ends (placesOf t (s.comCore old) (s.comGraph g)) (v.comAt s.e)
        pend := some (tagOf s.e, ends (placesOf t (s.coreAt old) (s.graph g)) v.cur) } }

/-- The entries of a task that is stopped are dropped, and the places that they took end (log entries 93, 116). -/
def State.dropEntries (s : State) (old : Nat) (t : Task) : State :=
  let s := s.endPlaces old t
  let s := s.bothCore old (CoreS.without t)
  let g := (s.task t.toNat).graph.toNat
  { s with graphs := s.graphs.set g ((s.graphs.get (.of {}) g).both (fun y => { y with spill := y.spill.filter (·.2.task != t) })) }

/-- A task of a contained core moves to the core with the most unused share that can hold it, with its entries, or is stopped (R334);
its timers stay on the list of the contained core (R332). -/
def State.moveTask (old : Nat) (s : State) (t : Nat) : State :=
  let x := s.task t
  let sl := x.slice.toNat
  let fits := (List.range 4).filter (fun c =>
    c != old && !s.coreContained.get false c && decide (x.limit * x.worst ≤ s.unused sl c))
  match fits.foldl (moreUnused (s.unused sl)) none with
  | some c =>
    let s := s.moveEntries old c (BitVec.ofNat 12 t)
    (s.bothTask t (fun y => { y with home := BitVec.ofNat 2 c, last := BitVec.ofNat 2 c })).tr old 12033 0xE t sl c (BitVec.ofNat 32 old)
  | none =>
    let s := (s.dropEntries old (BitVec.ofNat 12 t)).bothTask t (fun y => { y with m := 0 })
    ({ s with stwStat := Tab.upd (0, 0) s.stwStat sl (fun v => (v.1, satInc v.2)) } : State).stwEventSet sl 1

/-- A steward core is contained (R43, R334): its tasks of slices leave it in ascending number. -/
def State.containCore (s : State) (c : Nat) : State :=
  let s := { s with coreContained := s.coreContained.set c true }
  s.forAll (State.moveTask c) ((s.tasks.map (·.1)).filter (fun t => (s.task t).live && (s.task t).home.toNat == c))

/-- The block of a containment class is contained (R43). -/
def State.contain (s : State) : DetClass → State
  | .none => s
  | .port p => s.containPort p
  | .loom k => (s.containPort (2 * k)).containPort (2 * k + 1)
  | .core c => s.containCore c
  | .chan c => s.killNow c
  | .domain d => s.quarantine d 3 (s.now * 12500 + 12033)
  | .module => { s with tick := { s.tick with restartDue := true } }

/-- COMMIT_ESCALATED (R43, R454, R519): after a detector's eighth consecutive abandon. -/
def execCommitEscalated (d : Detector) (s : State) : Host.Outcome State Fault Refusal :=
  let k := d.toNat
  .next (match s.tick.escalate.find? (fun x => x.1 == k) with
    | some (_, unit) =>
      let cls := detClass k unit.toNat
      let s : State := { s with tick := { s.tick with escalate := s.tick.escalate.filter (fun x => x.1 != k) } }
      let s := ((s.logAon 0x09 k (BitVec.ofNat 32 cls.code)).commitStats [4]).occur (srcKey sharedSpace 0 1)
        (BitVec.ofNat 64 (cls.code * 256 + k)) true
      s.contain cls
    | none => s)

end Sys2Proof.Machine
end

