-- ==== Sys2Proof/Machine/Restart.lean ====
section
/-! DEFINITION. Power applied, the restart without loss of power, the cold start and what a domain woken from OFF rebuilds
(02 R43, R44, R50, R53; 14 R461, R464). -/
namespace Sys2Proof.Machine

open Sys2Proof

/-! ## What outlives a loss of power, and what outlives a restart -/

/-- A deadline counted from the tick number that a cold start returns to 0. -/
def rebase (now : Nat) (d : BitVec 48) : BitVec 48 := BitVec.ofNat 48 (d.toNat - now)

/-- The watchman port at a cold start: what counts since cold start is 0; AON keeps the rest, its deadlines counted anew. -/
def WatchS.restart (now : Nat) (x : WatchS) : WatchS :=
  { x with
    accepted := 0, failed := 0, event := 0, locked := x.locked.map (rebase now), cycles := x.cycles.map (fun c => (c.1, rebase now c.2)) }

/-- The watchman port when power is applied: only its nonvolatile part is left (R532, R536, R538). -/
def WatchS.powered (x : WatchS) : WatchS :=
  { addr := x.addr, baud := x.baud, commissioned := x.commissioned, seq := x.seq, key := x.key }

/-- What every cold start rebuilds begins at its reset value; the nonvolatile parts and the model's own are kept (R50). -/
def State.coldBase (s : State) : State :=
  { State.reset with
    aonLog := s.aonLog, aonNext := s.aonNext, boot := s.boot, relay := s.relay, surgeMainsCnt := s.surgeMainsCnt
    durable := s.durable, watch := s.watch, supply := s.supply, out := s.out
    sliceX := [(0, { memKey := some s.freeCount, filling := true })], moduleKey := some (s.freeCount + 1)
    freeCount := s.freeCount + 2, pending := s.pending }

/-- POWER_APPLIED (R464): the internal rail feeds AON again, and the supply is in START; the counts of mains losses and rides are
nonvolatile (R465; log entries 27, 28). -/
def execPowerApplied (s : State) : Host.Outcome State Fault Refusal :=
  .next (if s.downDone || decide (s.supply.st = .start) then
      { s.coldBase with
        watch := s.watch.powered, supply := { st := .start, losses := s.supply.losses, rides := s.supply.rides } }
    else s)

/-- MODULE_RESTART (R43, R44, R464): every switched domain is turned off, COMMIT_STAT shows the restart (R60), and the cold start that
AON release begins has its cause (log entries 12, 13). -/
def execModuleRestart (s : State) : Host.Outcome State Fault Refusal :=
  .next (if s.tick.restartDue then
      let cause := if 64 ≤ s.tick.consec then 3 else 2
      let s := (s.forAll State.domOff ((List.range 12).map (· + 1))).commitStats [4]
      let s := s.updSupply (fun x => { x with release := some cause })
      { s with tick := { s.tick with restartDue := false } }
    else s)

/-- The supply at a cold start: its state, status and counts stay; SUP_EVENT is at its reset value, the overload sequencer begins anew,
and the journal is restored (log entry 131). -/
def SupplyS.coldStart (x : SupplyS) : SupplyS :=
  { x with
    release := none, restoring := true, overRun := 0, shedding := false, shedAt := none, back := false, downAt := none, downStep := 0
    lostAt := 0, event := 0 }

/-- The registers of a link at a cold start: its data link layer is down until its domain has trained it (R461), and of COMMIT_STAT only the
restart that began the cold start is left (R60; log entries 13, 16). -/
def LinkS.coldStart (keep : Bool) (x : LinkS) : LinkS := { up := false, commitStat := if keep then x.commitStat &&& 0x10 else 0 }

/-- COLD_START (R50, R454, R464): tick 0, epoch 0, everything at its reset value; the AON log takes the cold start with its cause, and
the bank's fault while it lasts (R444); PD9 and PD7 wake (log entries 12, 15, 27). -/
def execColdStart (s : State) : Host.Outcome State Fault Refusal :=
  .next (match s.supply.release with
    | some cause =>
      let t : State := { s.coldBase with
        boot := s.boot + 1, watch := s.watch.restart s.now, supply := s.supply.coldStart
        links := (List.range 4).map (fun l => (l, (s.link l).coldStart (cause != 1))) }
      let t := t.logAon 0x01 0 (BitVec.ofNat 32 cause)
      let t := if t.supply.bankFault then t.logAon 0x0B 0 (t.supply.energy.setWidth 32) else t
      t.wake 7 7 0
    | none => s)

/-! ## The journal's restore (R53, R280, R318, R356, R377, R403) -/

/-- A slice's journal key and image KEK are unwrapped under the device key (R374, R377). -/
def State.restoreWrapped (s : State) (k : Nat) : State :=
  let old := s.durable.keys.get (none, none) k
  s.updSliceX k (fun x => { x with
    journalKey := old.1.bind (keyUnwrap deviceKey), kekId := old.2.map (·.1)
    kek := (old.2.bind (fun y => keyUnwrap deviceKey y.2)).getD [] })

/-- Every slice that is not FREE holds a new memory key (R377); for one that is FROZEN the tick of the restore stands for that of its freeze
(R383; log entry 80). -/
def State.restoreKeys (s : State) (k : Nat) : State :=
  let m := s.freeCount
  let since := if (s.slice k).st = .frozen then some s.tick.n else none
  s.useFree.updSliceX k (fun x => { x with memKey := some m, filling := true, since := since })

/-- The committed items of the journal, with every table of queues stopped and empty (R53). -/
def State.restoreItems (s : State) : State :=
  let j := s.durable
  { s with
    slices := j.slices.mapV Ver.of, pot := j.pages.mapV (fun sl => Ver.of { st := .fill, sl := sl })
    attach := j.attach.mapV (fun x => Ver.of (some x)), plan := j.plan.mapV (fun x => Ver.of (some x))
    pins := j.pins.mapV (fun x => Ver.of (some x)), pset := j.power.mapV Ver.of
    bounds := j.bounds.mapV (fun x => Ver.of (some x)), actBounds := j.actBounds.mapV (fun x => Ver.of (some x))
    graphs := j.graphs.mapV Ver.of, tasks := j.tasks.mapV Ver.of, flows := j.flows.mapV Ver.of, sched := j.sched.mapV Ver.of
    queues := j.queues.mapV Ver.of, chans := j.chans.mapV Ver.of
    eqs := j.eqs.mapV (fun x => { base := x.1, log2 := x.2.1, holdoff := x.2.2 }), srcCfg := j.srcs.mapV Ver.of
    probes := j.probes.mapV (fun x => { interval := x.1, vf := x.2.1, irEn := x.2.2 })
    warden := .of j.warden, sliceX := [] }

/-- A domain takes its journaled PD_CTL, and wakes to it (R464): one that is to be in RETENTION wakes and then leaves (log entry 15). -/
def State.restoreDom (s : State) (d : Nat) : State :=
  let c := s.durable.domCtl.get (false, .on) d
  let s := s.updDom d (fun x => { x with auto := c.1, req := c.2, act := decide (c.2 = .retention) })
  if d = 7 ∨ d = 9 ∨ c.2 = .off then s else s.wake d 1 ((s.now + 1) * 12500)

/-- The restore of the journal is complete (R53, R464): the last durable state is committed, and every other domain wakes to its request (log entry 15). -/
def State.restoreJournal (s : State) : State :=
  let s := s.restoreItems
  let s := s.forAll State.restoreWrapped (s.durable.keys.map (·.1))
  let s := s.forAll State.restoreKeys ((s.durable.slices.filter (fun e => decide (e.2.st ≠ .free))).map (·.1))
  let s := s.updSupply (fun x => { x with restoring := false })
  s.forAll State.restoreDom [7, 9, 1, 2, 5, 6, 8, 10, 11, 12, 3, 4]

/-! ## What a domain rebuilds (R461) -/

/-- A change of both versions of every entry, for what is not rolled back. -/
def Tab.both {α : Type} (f : α → α) (t : Tab (Ver α)) : Tab (Ver α) := t.mapV (Ver.both f)

/-- The next tick whose number is a multiple of a period (log entry 17). -/
def nextMultiple (now p : Nat) : BitVec 48 := BitVec.ofNat 48 ((now / p + 1) * p)

/-- A change that replaces what segment `k` runs, at `t` or before (log entry 17). -/
def Change.covers (k : Nat) (t : BitVec 48) (c : BitVec 48 × Change) : Bool :=
  decide (c.1 ≤ t) && (match c.2 with
    | .install j _ => j == k
    | .remove j => j == k
    | .table _ _ _ => true)

/-- The programs in force run again, each from the next multiple of its period, but where an admitted change comes first (R461; log entry
17). -/
def SchedS.reload (now : Nat) (x : SchedS) : SchedS :=
  let again := (x.progs.filter (fun g => !x.changes.any (Change.covers g.1 (nextMultiple now (2 ^ g.2.period))))).map
    (fun g => (nextMultiple now (2 ^ g.2.period), Change.install g.1 g.2))
  { x with progs := [], changes := again ++ x.changes }

/-- The schedules of the ports of a loom domain (log entry 17). -/
def State.reloadPrograms (s : State) (d : Nat) : State :=
  { s with sched := s.sched.map (fun e => if (portsOfDom d).contains e.1 then (e.1, e.2.both (SchedS.reload s.now)) else e) }

/-- Queues and channels as at cold start (R280, R318): what was in transfer ends without a record (log entry 19). -/
def State.restoreQueues (s : State) : State :=
  { s with
    queues := Tab.both QueueS.journal s.queues, chans := Tab.both ChS.journal s.chans, chanX := []
    ctxs := Tab.both (fun c => if c.queue = 0 then c else Ctx.idle c) s.ctxs, qcons := [], qstat := [] }

/-- The graphs restart as at cold start (R348), each at its switch tick; the built-in policies begin anew (log entry 18). -/
def State.restartGraphs (s : State) : State :=
  let due := (s.graphs.filter (fun g => g.2.cur.live && !s.gchange.any (fun c => c.2 == .start (BitVec.ofNat 12 g.1)))).map
    (fun g => (s.switchAt (2 ^ g.2.cur.period), GChange.start (BitVec.ofNat 12 g.1)))
  { s with
    cores := [], tasks := Tab.both TaskS.journal s.tasks, flows := Tab.both FlowS.journal s.flows
    graphs := Tab.both (fun g => { g with stopped := g.live, spill := [] }) s.graphs
    gchanges := s.gchanges.both (· ++ due), policy := s.policy.both (fun _ => {}) }

/-- The thermal model of a port starts at the board temperature, which is measured outside the model (R430). -/
def State.startModel (s : State) (p : Nat) : State :=
  s.useFree.updFuse p (fun f => { f with model := s.free.setWidth 16, riseJc := 0, riseCb := 0 })

/-- What a domain rebuilds while it is RESTORING (R461; log entries 15, 16). -/
def State.rebuild (s : State) (d : Nat) : State :=
  match d with
  | 1 | 2 => s.forAll (fun t l => t.updLink l (fun x => { x with up := true })) (linksOfDom d)
  | 3 | 4 => s.reloadPrograms d
  | 7 | 9 => if s.supply.restoring && s.domOn 7 && s.domOn 9 then s.restoreJournal else s
  | 8 => s.restoreQueues
  | 11 => s.restartGraphs
  | 12 => s.forAll State.startModel (List.range 16)
  | _ => s

/-- DOMAIN_RESTORED (R461): the domain has rebuilt its state and becomes ON. -/
def execDomainRestored (d : Dom) (s : State) : Host.Outcome State Fault Refusal :=
  let k := domNum d
  .next (if (s.dom k).st = .restoring then (s.domTurnsOn k).rebuild k else s)

end Sys2Proof.Machine
end

