-- ==== Sys2Proof/Machine/Dispatch.lean ====
section
/-! DEFINITION. One arm per command: its meaning. -/
namespace Sys2Proof.Machine

open Sys2Proof

/-- The effect of a command on everything but the queue. -/
def exec (i : Instr) (s : State) : Host.Outcome State Fault Refusal :=
  match i with
  | .tickBegin => Sys2Proof.Machine.execTickBegin s
  | .overrunCheck => Sys2Proof.Machine.execOverrunCheck s
  | .segmentEndCheck p k => Sys2Proof.Machine.execSegmentEndCheck p k s
  | .detectorReport d unit injected lost cyc => Sys2Proof.Machine.execDetectorReport d unit injected lost cyc s
  | .selvage split meas => Sys2Proof.Machine.execSelvage split meas s
  | .commitEscalated d => Sys2Proof.Machine.execCommitEscalated d s
  | .moduleRestart => Sys2Proof.Machine.execModuleRestart s
  | .foldSweep => Sys2Proof.Machine.execFoldSweep s
  | .recordWriterFlush => Sys2Proof.Machine.execRecordWriterFlush s
  | .journalDurable => Sys2Proof.Machine.execJournalDurable s
  | .clockFallback tcxo pll => Sys2Proof.Machine.execClockFallback tcxo pll s
  | .ppsEdge cyc falling => Sys2Proof.Machine.execPpsEdge cyc falling s
  | .ppsHoldover cyc => Sys2Proof.Machine.execPpsHoldover cyc s
  | .tickLoRead l qword => Sys2Proof.Machine.execTickLoRead l qword s
  | .registerWrite l off v hi => Sys2Proof.Machine.execRegisterWrite l off v hi s
  | .debounceEnter p a b => Sys2Proof.Machine.execDebounceEnter p a b s
  | .presenceDeclared p => Sys2Proof.Machine.execPresenceDeclared p s
  | .invalidReturn p => Sys2Proof.Machine.execInvalidReturn p s
  | .pwrWaitEnd p => Sys2Proof.Machine.execPwrWaitEnd p s
  | .rstPhaseEnd p => Sys2Proof.Machine.execRstPhaseEnd p s
  | .chirpDRecognised p held => Sys2Proof.Machine.execChirpDRecognised p held s
  | .resetEnd p => Sys2Proof.Machine.execResetEnd p s
  | .recoveryEnd p => Sys2Proof.Machine.execRecoveryEnd p s
  | .detach p => Sys2Proof.Machine.execDetach p s
  | .linkReset l p v => Sys2Proof.Machine.execLinkReset l p v s
  | .linkSuspend l p v => Sys2Proof.Machine.execLinkSuspend l p v s
  | .linkResume l p v => Sys2Proof.Machine.execLinkResume l p v s
  | .linkDisable l p v => Sys2Proof.Machine.execLinkDisable l p v s
  | .linkEnable l p v => Sys2Proof.Machine.execLinkEnable l p v s
  | .suspendComplete p => Sys2Proof.Machine.execSuspendComplete p s
  | .rsmEnd p => Sys2Proof.Machine.execRsmEnd p s
  | .wkp p cyc => Sys2Proof.Machine.execWkp p cyc s
  | .surge p peak cyc => Sys2Proof.Machine.execSurge p peak cyc s
  | .rxRelock p => Sys2Proof.Machine.execRxRelock p s
  | .responseTimeout p cyc => Sys2Proof.Machine.execResponseTimeout p cyc s
  | .wireSequenceEnd p reply cyc => Sys2Proof.Machine.execWireSequenceEnd p reply cyc s
  | .powerNotice p => Sys2Proof.Machine.execPowerNotice p s
  | .treeService p reply cyc => Sys2Proof.Machine.execTreeService p reply cyc s
  | .hubPortResetDue p => Sys2Proof.Machine.execHubPortResetDue p s
  | .deferTimeout c => Sys2Proof.Machine.execDeferTimeout c s
  | .stagingList => Sys2Proof.Machine.execStagingList s
  | .contextFillDone c => Sys2Proof.Machine.execContextFillDone c s
  | .entryEligible sl q pos => Sys2Proof.Machine.execEntryEligible sl q pos s
  | .entryBind sl q pos => Sys2Proof.Machine.execEntryBind sl q pos s
  | .deviceRelease d => Sys2Proof.Machine.execDeviceRelease d s
  | .lostIdRelease d => Sys2Proof.Machine.execLostIdRelease d s
  | .programEntry p k => Sys2Proof.Machine.execProgramEntry p k s
  | .nop u gd => Sys2Proof.Machine.execNop u gd s
  | .endRun u gd => Sys2Proof.Machine.execEndRun u gd s
  | .add u gd d a b => Sys2Proof.Machine.execAdd u gd d a b s
  | .sub u gd d a b => Sys2Proof.Machine.execSub u gd d a b s
  | .and u gd d a b => Sys2Proof.Machine.execAnd u gd d a b s
  | .or u gd d a b => Sys2Proof.Machine.execOr u gd d a b s
  | .xor u gd d a b => Sys2Proof.Machine.execXor u gd d a b s
  | .shl u gd d a b => Sys2Proof.Machine.execShl u gd d a b s
  | .shr u gd d a b => Sys2Proof.Machine.execShr u gd d a b s
  | .sar u gd d a b => Sys2Proof.Machine.execSar u gd d a b s
  | .min u gd d a b => Sys2Proof.Machine.execMin u gd d a b s
  | .max u gd d a b => Sys2Proof.Machine.execMax u gd d a b s
  | .mul u gd d a b => Sys2Proof.Machine.execMul u gd d a b s
  | .addi u gd d a imm => Sys2Proof.Machine.execAddi u gd d a imm s
  | .andi u gd d a imm => Sys2Proof.Machine.execAndi u gd d a imm s
  | .ori u gd d a imm => Sys2Proof.Machine.execOri u gd d a imm s
  | .xori u gd d a imm => Sys2Proof.Machine.execXori u gd d a imm s
  | .shli u gd d a imm => Sys2Proof.Machine.execShli u gd d a imm s
  | .shri u gd d a imm => Sys2Proof.Machine.execShri u gd d a imm s
  | .movi u gd d imm => Sys2Proof.Machine.execMovi u gd d imm s
  | .movhi u gd d imm => Sys2Proof.Machine.execMovhi u gd d imm s
  | .cmp u gd pd cond a b => Sys2Proof.Machine.execCmp u gd pd cond a b s
  | .cmpi u gd pd cond a imm => Sys2Proof.Machine.execCmpi u gd pd cond a imm s
  | .plog u gd pd pa pb fn => Sys2Proof.Machine.execPlog u gd pd pa pb fn s
  | .rds u gd d sel => Sys2Proof.Machine.execRds u gd d sel s
  | .br u gd off => Sys2Proof.Machine.execBr u gd off s
  | .loop u gd d n len => Sys2Proof.Machine.execLoop u gd d n len s
  | .await u gd mode a cyc => Sys2Proof.Machine.execAwait u gd mode a cyc s
  | .raise u gd op => Sys2Proof.Machine.execRaise u gd op s
  | .selc p idx => Sys2Proof.Machine.execSelc p idx s
  | .selcr p gd off => Sys2Proof.Machine.execSelcr p gd off s
  | .ldc u gd d word h => Sys2Proof.Machine.execLdc u gd d word h s
  | .stc u gd a word h => Sys2Proof.Machine.execStc u gd a word h s
  | .poll p gd d cnt rty e => Sys2Proof.Machine.execPoll p gd d cnt rty e s
  | .take p gd d cnt rty e => Sys2Proof.Machine.execTake p gd d cnt rty e s
  | .give p gd d cnt rty e => Sys2Proof.Machine.execGive p gd d cnt rty e s
  | .setup p gd d cnt rty e => Sys2Proof.Machine.execSetup p gd d cnt rty e s
  | .ping p gd d cnt rty e => Sys2Proof.Machine.execPing p gd d cnt rty e s
  | .defer p gd d cnt rty e => Sys2Proof.Machine.execDefer p gd d cnt rty e s
  | .suspend p gd d cnt rty e => Sys2Proof.Machine.execSuspend p gd d cnt rty e s
  | .resume p gd d cnt rty e => Sys2Proof.Machine.execResume p gd d cnt rty e s
  | .probe p gd d val => Sys2Proof.Machine.execProbe p gd d val s
  | .weave p gd d val => Sys2Proof.Machine.execWeave p gd d val s
  | .snap c gd d item => Sys2Proof.Machine.execSnap c gd d item s
  | .bound c gd d a bnd => Sys2Proof.Machine.execBound c gd d a bnd s
  | .ema c gd d a k => Sys2Proof.Machine.execEma c gd d a k s
  | .act c gd a actr => Sys2Proof.Machine.execAct c gd a actr s
  | .timer c gd t flag a => Sys2Proof.Machine.execTimer c gd t flag a s
  | .flow c gd f a => Sys2Proof.Machine.execFlow c gd f a s
  | .trace c gd a => Sys2Proof.Machine.execTrace c gd a s
  | .taskDispatch c => Sys2Proof.Machine.execTaskDispatch c s
  | .flowRelease f cyc => Sys2Proof.Machine.execFlowRelease f cyc s
  | .timerFire t flag => Sys2Proof.Machine.execTimerFire t flag s
  | .portIsolation p => Sys2Proof.Machine.execPortIsolation p s
  | .pollBackoff p handle => Sys2Proof.Machine.execPollBackoff p handle s
  | .powerShedding => Sys2Proof.Machine.execPowerShedding s
  | .thermalDerating p => Sys2Proof.Machine.execThermalDerating p s
  | .contextPinning c => Sys2Proof.Machine.execContextPinning c s
  | .radioPacing b => Sys2Proof.Machine.execRadioPacing b s
  | .loadShedNotice sl f => Sys2Proof.Machine.execLoadShedNotice sl f s
  | .traceBlock k => Sys2Proof.Machine.execTraceBlock k s
  | .admissionComplete => Sys2Proof.Machine.execAdmissionComplete s
  | .switchTick p => Sys2Proof.Machine.execSwitchTick p s
  | .weaverGenerate p sl => Sys2Proof.Machine.execWeaverGenerate p sl s
  | .queuePoll sl q own => Sys2Proof.Machine.execQueuePoll sl q own s
  | .entryFetched sl q raw => Sys2Proof.Machine.execEntryFetched sl q raw s
  | .qprodWrite l w q v => Sys2Proof.Machine.execQprodWrite l w q v s
  | .adminCfgWrite l w v => Sys2Proof.Machine.execAdminCfgWrite l w v s
  | .nopEntry sl q pos => Sys2Proof.Machine.execNopEntry sl q pos s
  | .transfer sl q pos => Sys2Proof.Machine.execTransfer sl q pos s
  | .createQueue sl => Sys2Proof.Machine.execCreateQueue sl s
  | .destroyQueue sl => Sys2Proof.Machine.execDestroyQueue sl s
  | .queueMode sl => Sys2Proof.Machine.execQueueMode sl s
  | .queueModeSwitch sl q => Sys2Proof.Machine.execQueueModeSwitch sl q s
  | .queueSet sl => Sys2Proof.Machine.execQueueSet sl s
  | .admitWarp sl words => Sys2Proof.Machine.execAdmitWarp sl words s
  | .withdrawWarp sl => Sys2Proof.Machine.execWithdrawWarp sl s
  | .admitGraph sl image => Sys2Proof.Machine.execAdmitGraph sl image s
  | .withdrawGraph sl => Sys2Proof.Machine.execWithdrawGraph sl s
  | .registerPeriodic sl => Sys2Proof.Machine.execRegisterPeriodic sl s
  | .withdrawPeriodic sl => Sys2Proof.Machine.execWithdrawPeriodic sl s
  | .setWeftMin sl => Sys2Proof.Machine.execSetWeftMin sl s
  | .setPortSched sl segs => Sys2Proof.Machine.execSetPortSched sl segs s
  | .setTktTimeout sl => Sys2Proof.Machine.execSetTktTimeout sl s
  | .setAddrPlan sl => Sys2Proof.Machine.execSetAddrPlan sl s
  | .pin sl => Sys2Proof.Machine.execPin sl s
  | .unpin sl => Sys2Proof.Machine.execUnpin sl s
  | .readDevice sl => Sys2Proof.Machine.execReadDevice sl s
  | .resetSegment sl => Sys2Proof.Machine.execResetSegment sl s
  | .setChannel sl => Sys2Proof.Machine.execSetChannel sl s
  | .go l w c v => Sys2Proof.Machine.execGo l w c v s
  | .goChain l w c v => Sys2Proof.Machine.execGoChain l w c v s
  | .stop l w c v => Sys2Proof.Machine.execStop l w c v s
  | .kill l w c v => Sys2Proof.Machine.execKill l w c v s
  | .shadowWrite l w c k v => Sys2Proof.Machine.execShadowWrite l w c k v s
  | .cqConsWrite l w c v => Sys2Proof.Machine.execCqConsWrite l w c v s
  | .burstIssue c d cyc => Sys2Proof.Machine.execBurstIssue c d cyc s
  | .dmaReadCompletion c q pos data => Sys2Proof.Machine.execDmaReadCompletion c q pos data s
  | .chainFetch c d => Sys2Proof.Machine.execChainFetch c d s
  | .descriptorEnd c => Sys2Proof.Machine.execDescriptorEnd c s
  | .dmaReadError c q pos err => Sys2Proof.Machine.execDmaReadError c q pos err s
  | .setBound sl => Sys2Proof.Machine.execSetBound sl s
  | .setActBound sl => Sys2Proof.Machine.execSetActBound sl s
  | .graphCtl sl => Sys2Proof.Machine.execGraphCtl sl s
  | .setFlag sl => Sys2Proof.Machine.execSetFlag sl s
  | .readTask sl => Sys2Proof.Machine.execReadTask sl s
  | .readSnapshot sl => Sys2Proof.Machine.execReadSnapshot sl s
  | .traceExport sl => Sys2Proof.Machine.execTraceExport sl s
  | .readTraceStat sl => Sys2Proof.Machine.execReadTraceStat sl s
  | .defineSlice sl record entropy => Sys2Proof.Machine.execDefineSlice sl record entropy s
  | .resizeSlice sl record => Sys2Proof.Machine.execResizeSlice sl record s
  | .bindSlice sl => Sys2Proof.Machine.execBindSlice sl s
  | .unbindSlice sl => Sys2Proof.Machine.execUnbindSlice sl s
  | .freezeSlice sl => Sys2Proof.Machine.execFreezeSlice sl s
  | .thawSlice sl => Sys2Proof.Machine.execThawSlice sl s
  | .releaseSlice sl => Sys2Proof.Machine.execReleaseSlice sl s
  | .setAttach sl => Sys2Proof.Machine.execSetAttach sl s
  | .setImageKek sl data => Sys2Proof.Machine.execSetImageKek sl data s
  | .saveImage sl entropy => Sys2Proof.Machine.execSaveImage sl entropy s
  | .loadImage sl => Sys2Proof.Machine.execLoadImage sl s
  | .imageVerify => Sys2Proof.Machine.execImageVerify s
  | .restoreImage sl entropy => Sys2Proof.Machine.execRestoreImage sl entropy s
  | .readSlice sl => Sys2Proof.Machine.execReadSlice sl s
  | .linkDown l reset => Sys2Proof.Machine.execLinkDown l reset s
  | .linkUp l gts width => Sys2Proof.Machine.execLinkUp l gts width s
  | .pasidEnable l on => Sys2Proof.Machine.execPasidEnable l on s
  | .pageFill pg => Sys2Proof.Machine.execPageFill pg s
  | .eccScrub lines corrected => Sys2Proof.Machine.execEccScrub lines corrected s
  | .channelRelease c => Sys2Proof.Machine.execChannelRelease c s
  | .setSource sl => Sys2Proof.Machine.execSetSource sl s
  | .routeSource sl => Sys2Proof.Machine.execRouteSource sl s
  | .eqConsWrite l w v => Sys2Proof.Machine.execEqConsWrite l w v s
  | .eqCfgWrite l w v => Sys2Proof.Machine.execEqCfgWrite l w v s
  | .eqCtlWrite l w v => Sys2Proof.Machine.execEqCtlWrite l w v s
  | .grpMaskWrite l w v => Sys2Proof.Machine.execGrpMaskWrite l w v s
  | .fbAck l v => Sys2Proof.Machine.execFbAck l v s
  | .fbCfgWrite l v => Sys2Proof.Machine.execFbCfgWrite l v s
  | .d3hotEntry l pmeEn => Sys2Proof.Machine.execD3hotEntry l pmeEn s
  | .d0Return l => Sys2Proof.Machine.execD0Return l s
  | .setPortProfile sl => Sys2Proof.Machine.execSetPortProfile sl s
  | .setPortDirect sl => Sys2Proof.Machine.execSetPortDirect sl s
  | .portPower sl => Sys2Proof.Machine.execPortPower sl s
  | .portRearm sl => Sys2Proof.Machine.execPortRearm sl s
  | .passClear sl => Sys2Proof.Machine.execPassClear sl s
  | .gateRamp p => Sys2Proof.Machine.execGateRamp p s
  | .limit p amps vout vbus cyc => Sys2Proof.Machine.execLimit p amps vout vbus cyc s
  | .rampEnd p vout vbus cyc => Sys2Proof.Machine.execRampEnd p vout vbus cyc s
  | .powerGood p vout vbus cyc => Sys2Proof.Machine.execPowerGood p vout vbus cyc s
  | .pgTimeout p cyc => Sys2Proof.Machine.execPgTimeout p cyc s
  | .faultTimer p cyc => Sys2Proof.Machine.execFaultTimer p cyc s
  | .shortTrip p amps ns cyc => Sys2Proof.Machine.execShortTrip p amps ns cyc s
  | .overload p cyc => Sys2Proof.Machine.execOverload p cyc s
  | .thermal p sensor board amps vout vbus us cyc => Sys2Proof.Machine.execThermal p sensor board amps vout vbus us cyc s
  | .passFail p vout us cyc => Sys2Proof.Machine.execPassFail p vout us cyc s
  | .retry p => Sys2Proof.Machine.execRetry p s
  | .retryCountClear p => Sys2Proof.Machine.execRetryCountClear p s
  | .overloadShed cyc => Sys2Proof.Machine.execOverloadShed cyc s
  | .mainsShed bus cyc => Sys2Proof.Machine.execMainsShed bus cyc s
  | .mainsLost bulk => Sys2Proof.Machine.execMainsLost bulk s
  | .lastGasp => Sys2Proof.Machine.execLastGasp s
  | .mainsBack => Sys2Proof.Machine.execMainsBack s
  | .powerDown => Sys2Proof.Machine.execPowerDown s
  | .bankFault => Sys2Proof.Machine.execBankFault s
  | .coldStart => Sys2Proof.Machine.execColdStart s
  | .pdRequest l d v => Sys2Proof.Machine.execPdRequest l d v s
  | .pdReset l d v => Sys2Proof.Machine.execPdReset l d v s
  | .clearQ l d v => Sys2Proof.Machine.execClearQ l d v s
  | .domainWake d cause cyc => Sys2Proof.Machine.execDomainWake d cause cyc s
  | .domainPowerGood d cyc => Sys2Proof.Machine.execDomainPowerGood d cyc s
  | .wakeAttemptFail d clock cyc => Sys2Proof.Machine.execWakeAttemptFail d clock cyc s
  | .domainRestored d => Sys2Proof.Machine.execDomainRestored d s
  | .autoRetention d l1 => Sys2Proof.Machine.execAutoRetention d l1 s
  | .metroFrame bytes => Sys2Proof.Machine.execMetroFrame bytes s
  | .cartridgePresent => Sys2Proof.Machine.execCartridgePresent s
  | .cartridgeAbsent => Sys2Proof.Machine.execCartridgeAbsent s
  | .p16Transfer sl q pos => Sys2Proof.Machine.execP16Transfer sl q pos s
  | .rawCtlWrite l w v => Sys2Proof.Machine.execRawCtlWrite l w v s
  | .rawBlock sl => Sys2Proof.Machine.execRawBlock sl s
  | .indDataAccess l w => Sys2Proof.Machine.execIndDataAccess l w s
  | .unsupportedRequest a => Sys2Proof.Machine.execUnsupportedRequest a s
  | .clearOnRead l off qword => Sys2Proof.Machine.execClearOnRead l off qword s
  | .injCtlWrite l d v => Sys2Proof.Machine.execInjCtlWrite l d v s
  | .injection d => Sys2Proof.Machine.execInjection d s
  | .tdrProbe p slot res cyc => Sys2Proof.Machine.execTdrProbe p slot res cyc s
  | .irResult p kohm => Sys2Proof.Machine.execIrResult p kohm s
  | .surgeMains v => Sys2Proof.Machine.execSurgeMains v s
  | .watchmanRequest bytes => Sys2Proof.Machine.execWatchmanRequest bytes s
  | .lockoutEnd => Sys2Proof.Machine.execLockoutEnd s
  | .byteGapTimeout => Sys2Proof.Machine.execByteGapTimeout s
  | .getSeq => Sys2Proof.Machine.execGetSeq s
  | .readDigest => Sys2Proof.Machine.execReadDigest s
  | .powerCyclePort => Sys2Proof.Machine.execPowerCyclePort s
  | .powerCycleRestore p => Sys2Proof.Machine.execPowerCycleRestore p s
  | .resetDomain => Sys2Proof.Machine.execResetDomain s
  | .wardenLink => Sys2Proof.Machine.execWardenLink s
  | .readLog => Sys2Proof.Machine.execReadLog s
  | .commission => Sys2Proof.Machine.execCommission s
  | .rekey => Sys2Proof.Machine.execRekey s
  | .powerApplied => Sys2Proof.Machine.execPowerApplied s
  | .inputQualified ok dc => Sys2Proof.Machine.execInputQualified ok dc s
  | .bankReady => Sys2Proof.Machine.execBankReady s
  | .limiterRelease p amps vout vbus cyc => Sys2Proof.Machine.execLimiterRelease p amps vout vbus cyc s
  | .codeViolation p => Sys2Proof.Machine.execCodeViolation p s
  | .completionTimeout l => Sys2Proof.Machine.execCompletionTimeout l s
  | .ecrcFailure l => Sys2Proof.Machine.execEcrcFailure l s
  | .poisonedWrite l => Sys2Proof.Machine.execPoisonedWrite l s

end Sys2Proof.Machine
end

