-- ==== Sys2Proof/Safety.lean ====
section
/-! DEFINITION. What counts as a safe run: the module never stops with a fault or a refusal. -/
namespace Sys2Proof.Safety

/-- `k` steps of the module end in a next state. -/
def Runs (k : Nat) (s : Sys2Proof.Machine.State) : Prop := ∃ t, Sys2Proof.core.run k s = Host.Outcome.next t

/-- Command `c` completes at `s`, in a next state of which `P` holds. -/
def Does (c : Sys2Proof.Instr) (s : Sys2Proof.Machine.State) (P : Sys2Proof.Machine.State → Prop) : Prop :=
  ∃ t, Sys2Proof.Machine.exec c s = Host.Outcome.next t ∧ P t

/-! ## What a Coresh unit does, in the words of 06 -/

open Sys2Proof Sys2Proof.Machine

/-- The unit and the guard of a Coresh instruction (R193, R195); none for the other commands. SELC has no guard. -/
def unitGuard : Instr → Option (CUnit × Guard)
  | .nop u gd | .endRun u gd => some (u, gd)
  | .add u gd _ _ _ | .sub u gd _ _ _ | .and u gd _ _ _ | .or u gd _ _ _ | .xor u gd _ _ _ | .shl u gd _ _ _ => some (u, gd)
  | .shr u gd _ _ _ | .sar u gd _ _ _ | .min u gd _ _ _ | .max u gd _ _ _ | .mul u gd _ _ _ => some (u, gd)
  | .addi u gd _ _ _ | .andi u gd _ _ _ | .ori u gd _ _ _ | .xori u gd _ _ _ | .shli u gd _ _ _ | .shri u gd _ _ _ => some (u, gd)
  | .movi u gd _ _ | .movhi u gd _ _ => some (u, gd)
  | .cmp u gd _ _ _ _ | .cmpi u gd _ _ _ _ | .plog u gd _ _ _ _ | .rds u gd _ _ | .br u gd _ | .loop u gd _ _ _ => some (u, gd)
  | .await u gd _ _ _ | .raise u gd _ | .ldc u gd _ _ _ | .stc u gd _ _ _ => some (u, gd)
  | .selc p _ => some (.loom p, noGuard)
  | .selcr p gd _ => some (.loom p, gd)
  | .poll p gd _ _ _ _ | .take p gd _ _ _ _ | .give p gd _ _ _ _ | .setup p gd _ _ _ _ | .ping p gd _ _ _ _ => some (.loom p, gd)
  | .defer p gd _ _ _ _ | .suspend p gd _ _ _ _ | .resume p gd _ _ _ _ => some (.loom p, gd)
  | .probe p gd _ _ | .weave p gd _ _ => some (.loom p, gd)
  | .snap c gd _ _ | .bound c gd _ _ _ | .act c gd _ _ | .ema c gd _ _ _ | .timer c gd _ _ _ | .flow c gd _ _
  | .trace c gd _ => some (.core c, gd)
  | _ => none

/-- The unit is about to execute `i`, its guard holds, and no bus instruction in progress will write one of its registers
(R193, R226). -/
def Ready (s : State) (u : CUnit) (i : Instr) (gd : Guard) : Prop :=
  i.coreshWf = true ∧ s.atInstr u i = true ∧ (s.thread (unitKey u)).holds gd = true ∧
  s.regsPend (unitKey u) (coreshRegs i) = false

/-- The cycle at which `i` starts: its unit's, or that at which a bus instruction wrote one of its registers (R226). -/
def startOf (s : State) (u : CUnit) (i : Instr) : Nat := (s.thread (unitKey u)).readyAt ((coreshRegs i).map (·.toNat))

/-- The instructions that an instruction with a failed guard passes over beside itself: a LOOP its body (R193, R228). -/
def skipped : Instr → Nat
  | .loop _ _ _ _ len => len.toNat
  | _ => 0

/-- The cycles that an instruction takes when its guard fails (R193, R228). -/
def failedCost : Instr → Nat
  | .br _ _ _ => 2
  | _ => 1

/-- Special value 3 of a loom: its line mode (R197). -/
def speedCode : Speed → W32
  | .none => 0 | .field => 1 | .plant => 2 | .cabinet => 3

/-- Where it executes, `i` changes its unit by `f`, passes and takes `cost` cycles, and does nothing else. -/
def Changes (s : State) (u : CUnit) (gd : Guard) (i : Instr) (cost : Nat) (f : Thread → Thread) : Prop :=
  Ready s u i gd → exec i s = .next ((s.updThread (unitKey u) f).advance u (startOf s u i) cost)

/-- Where it executes, `i` writes `v` to gD and takes `cost` cycles. -/
def Computes (s : State) (u : CUnit) (gd : Guard) (i : Instr) (d : Reg) (v : W32) (cost : Nat) : Prop :=
  Changes s u gd i cost (fun x => x.setReg d v)

/-- No loop body is open and the instruction at `pc` belongs to the program. -/
def Inside (x : Thread) (pc : Nat) : Prop := x.loops = [] ∧ pc < x.code.length

/-- Only the thread of unit `u` may differ between two states, and it is `x` in the second. -/
def OnlyThread (s t : State) (u : CUnit) (x : Thread) : Prop :=
  t.thread (unitKey u) = x ∧ (∀ k, k ≠ unitKey u → t.thread k = s.thread k) ∧ { t with threads := s.threads } = s

/-- The cycle at which the bus instruction `i` of port `p` is issued at `cost` (R226): once the shuttle has begun the last one. -/
def issuedAt (s : State) (p : Port) (i : Instr) (cost : Nat) : Nat :=
  max (startOf s (.loom p) i) (s.shuttle p.toNat).lastStart + cost

/-- Port `p` is about to execute the bus instruction `i` on context `cx`, which is in the cache, its shuttle has nothing to do, and no
notice is due. -/
def OnIdleShuttle (s : State) (p : Port) (i : Instr) (gd : Guard) (cx : CtxIdx) : Prop :=
  Ready s (.loom p) i gd ∧ (s.shuttle p.toNat).seqs = [] ∧ s.noticeDue p.toNat = false ∧ (s.thread p.toNat).cx = some cx ∧
  s.resident cx.toNat = true ∧ Inside (s.thread p.toNat) ((s.thread p.toNat).pc + 1)

/-- The packet that something the module gives out is, and its port. -/
def packetOut : Out → Option (Port × List Byte)
  | .wire p b _ => some (p, b)
  | _ => none

/-- What the module gives out shows the packets `pks` on the line of port `p`, one after another, and nothing else. -/
def OnLine (s t : State) (p : Port) (pks : List (List Byte)) : Prop :=
  ∃ l : List Out, t.out = s.out ++ l ∧ l.map packetOut = pks.map (fun b => some (p, b))

/-- Of the ports only the shuttle side of port `p` may differ: whether its frame has had a packet, and the disparity of its line. -/
def OnlyLine (s t : State) (p : Port) : Prop :=
  (∃ sent rd, t.port p.toNat = { s.port p.toNat with sent := sent, rd := rd }) ∧ ∀ k, k ≠ p.toNat → t.port k = s.port k

/-- The cycle at which an idle shuttle starts what is issued to it at a cycle (R226, R231). -/
def startAt (s : State) (p : Port) (issued : Nat) : Nat :=
  max issued (max (s.shuttle p.toNat).lead (s.shuttle p.toNat).ended)

/-- The bus instruction `i` starts the wire sequence of attempt `q.form`: the port sends its packets, the thread goes on at the end of the
issue, and gD waits for the outcome. -/
def Sends (s : State) (p : Port) (i : Instr) (cx : CtxIdx) (cost : Nat) (q : WSeq) : Prop :=
  let t0 := startAt s p (issuedAt s p i cost)
  let pks := s.packetsOf cx.toNat q.form
  Does i s (fun t =>
    (t.shuttle p.toNat).seqs = [{ q with
      ctx := cx, first := (s.ctx cx.toNat).seq, started := true, attempts := 1, issued := issuedAt s p i cost, start := t0
      sentAt := s.sentBy p.toNat t0 pks }] ∧
    OnLine s t p pks ∧ OnlyLine s t p ∧
    t.thread p.toNat = { s.thread p.toNat with pc := (s.thread p.toNat).pc + 1, cycle := issuedAt s p i cost } ∧
    (∀ k, k ≠ p.toNat → t.thread k = s.thread k ∧ t.shuttle k = s.shuttle k) ∧
    { t with threads := s.threads, shuttles := s.shuttles, cache := s.cache, out := s.out, ports := s.ports } = s)

/-- The bus instruction `i` sends nothing and writes outcome `o` to gD with no attempt. -/
def EndsUnsent (s : State) (p : Port) (i : Instr) (d : Reg) (o : Nat) : Prop :=
  Does i s (fun t =>
    t.out = s.out ∧ (t.shuttle p.toNat).seqs = [] ∧ (t.thread p.toNat).reg d = (if d = 0 then 0 else BitVec.ofNat 32 o) ∧
    (t.thread p.toNat).pc = (s.thread p.toNat).pc + 1 ∧ (∀ r, r ≠ d → (t.thread p.toNat).reg r = (s.thread p.toNat).reg r) ∧
    (∀ k, k ≠ p.toNat → t.thread k = s.thread k ∧ t.shuttle k = s.shuttle k) ∧
    { t with threads := s.threads, shuttles := s.shuttles, cache := s.cache } = s)

/-! ## What an admin command does (08 R286, R289) -/

/-- The first command of the admin queue of slice `sl` that is not complete is `e`, of operation `op`, it has not begun, no command of the
queue completes in this tick, the slice's work runs and the tick goes on. -/
def AdminRuns (s : State) (sl : Slice) (op : Nat) (e : Entry) : Prop :=
  s.adminHead sl.toNat = some e ∧ e.op = op ∧ e.begun = false ∧ s.working = true ∧ s.works sl.toNat = true ∧
  ∀ r ∈ s.cplPend, ¬(r.slice = sl ∧ r.queue = 0)

/-- No queue but the admin queue of slice `sl` changes. -/
def OtherQueues (s t : State) (sl : Slice) : Prop := ∀ k, k ≠ qKey sl.toNat 0 → t.queue k = s.queue k

/-- `c` completes the admin command `e` of slice `sl` with a status, C2 and C3, its record pending for the commit, and `P` holds
after it. -/
def Completes (c : Instr) (s : State) (sl : Slice) (e : Entry) (status : Nat) (c2 c3 : W64) (P : State → Prop) : Prop :=
  Does c s (fun t =>
    (∃ r : Cpl, t.cplPend = s.cplPend ++ [r] ∧ r.slice = sl ∧ r.queue = 0 ∧ r.pos = e.pos ∧ r.c0 = cplC0 e status ∧
      r.c1 = BitVec.setWidth 64 s.workTick ∧ r.c2 = c2 ∧ r.c3 = c3 ∧ r.evt = true) ∧
    ((s.queue (qKey sl.toNat 0)).isOld e = false → ∀ x ∈ (t.queue (qKey sl.toNat 0)).entries, x.pos ≠ e.pos) ∧
    (∀ x ∈ (t.queue (qKey sl.toNat 0)).old, x.same e = false) ∧ P t)

/-- `c` completes the admin command `e` with a status and has no other effect. -/
def OnlyCompletes (c : Instr) (s : State) (sl : Slice) (e : Entry) (status : Nat) (c2 c3 : W64) : Prop :=
  Completes c s sl e status c2 c3 (fun t =>
    OtherQueues s t sl ∧ { t with queues := s.queues, cplPend := s.cplPend, raised := s.raised } = s)

/-- `c` hands the admin command `e` to the admission unit, with the words read for it, and it completes later. -/
def Submits (c : Instr) (s : State) (sl : Slice) (e : Entry) (words : List W64) : Prop :=
  Does c s (fun t =>
    t.admitting = s.admitting ++ [{ slice := sl, entry := { e with begun := true }, words := words }] ∧
    (∀ x ∈ (t.queue (qKey sl.toNat 0)).entries, x.pos = e.pos → x.begun = true) ∧ OtherQueues s t sl ∧
    { t with queues := s.queues, admission := s.admission } = s)

/-- The slice, the operation and whether only S0 may give it, of an admin command (R289). -/
def adminOp : Instr → Option (Slice × Nat × Bool)
  | .createQueue sl => some (sl, 0x10, false) | .destroyQueue sl => some (sl, 0x11, false)
  | .queueMode sl => some (sl, 0x12, false) | .queueSet sl => some (sl, 0x13, false)
  | .admitWarp sl _ => some (sl, 0x20, false) | .withdrawWarp sl => some (sl, 0x21, false)
  | .admitGraph sl _ => some (sl, 0x22, false) | .withdrawGraph sl => some (sl, 0x23, false)
  | .registerPeriodic sl => some (sl, 0x24, false) | .withdrawPeriodic sl => some (sl, 0x25, false)
  | .setWeftMin sl => some (sl, 0x26, false) | .setPortSched sl _ => some (sl, 0x27, true)
  | .setTktTimeout sl => some (sl, 0x30, false) | .setAddrPlan sl => some (sl, 0x31, false) | .pin sl => some (sl, 0x32, false)
  | .unpin sl => some (sl, 0x33, false) | .readDevice sl => some (sl, 0x34, false) | .resetSegment sl => some (sl, 0x35, false)
  | .setSource sl => some (sl, 0x40, false) | .routeSource sl => some (sl, 0x41, true) | .setChannel sl => some (sl, 0x50, false)
  | .setBound sl => some (sl, 0x60, false) | .setActBound sl => some (sl, 0x61, false) | .graphCtl sl => some (sl, 0x62, false)
  | .setFlag sl => some (sl, 0x63, false) | .readTask sl => some (sl, 0x64, false) | .readSnapshot sl => some (sl, 0x65, false)
  | .traceExport sl => some (sl, 0x66, false) | .readTraceStat sl => some (sl, 0x67, false)
  | .setPortProfile sl => some (sl, 0x70, false) | .setPortDirect sl => some (sl, 0x71, false)
  | .portPower sl => some (sl, 0x72, false) | .portRearm sl => some (sl, 0x73, false) | .passClear sl => some (sl, 0x74, false)
  | .defineSlice sl _ _ => some (sl, 0x80, true) | .resizeSlice sl _ => some (sl, 0x81, true) | .bindSlice sl => some (sl, 0x82, true)
  | .unbindSlice sl => some (sl, 0x83, true) | .freezeSlice sl => some (sl, 0x84, true) | .thawSlice sl => some (sl, 0x85, true)
  | .releaseSlice sl => some (sl, 0x86, true) | .setAttach sl => some (sl, 0x87, true)
  | .setImageKek sl _ => some (sl, 0x88, true) | .saveImage sl _ => some (sl, 0x89, true) | .loadImage sl => some (sl, 0x8A, true)
  | .restoreImage sl _ => some (sl, 0x8B, true) | .readSlice sl => some (sl, 0x8C, true)
  | _ => none

/-- The write `w` of `c` is held in the buffer of link `l` for the next commit, behind the writes already there, and nothing else
changes (R18, R34). -/
def HeldInBuffer (c : Instr) (s : State) (l : Link) (w : HWrite) : Prop :=
  s.supply.st ≠ .powerDown → (s.link l.toNat).buf.length < 256 → (s.link l.toNat).withheld = [] →
  Does c s (fun t =>
    t.link l.toNat = { s.link l.toNat with buf := (s.link l.toNat).buf ++ [w] } ∧
    (∀ k, k ≠ l.toNat → t.link k = s.link k) ∧ { t with links := s.links } = s)

/-! ## What the steward does (10 R334, R335) -/

/-- The run of built-in policy `k` is in progress on core `c`, in a tick that goes on with PD11 ON, and it has not looked at `key` yet
(R340). -/
def PolicyRuns (s : State) (k key c : Nat) : Prop :=
  s.working = true ∧ s.domOn 11 = true ∧ s.policyRuns k = some c ∧ (s.coreAt c).done.contains key = false

/-- `c` makes the decision of policy `task`, which runs on a core, for slice `sl` on actuator `a`, clamped to the actuator's bounds, and traces
it; of the versioned state only the policies' own history changes. -/
def Decides (c : Instr) (s : State) (core task sl a : Nat) (v : W32) : Prop :=
  (∀ d ∈ s.decisions, d.actr ≠ BitVec.ofNat 15 a) →
  Does c s (fun t =>
    t.decisions = s.decisions ++ [{
      actr := BitVec.ofNat 15 a, core := BitVec.ofNat 2 core, task := BitVec.ofNat 12 task, slice := BitVec.ofNat 6 sl
      val := clamp (s.actBoundOf sl a).1 (s.actBoundOf sl a).2 v }] ∧
    { t with
      decisions := s.decisions, trace := s.trace, streams := s.streams, stwEvent := s.stwEvent, policy := s.policy
      shedOrder := s.shedOrder, cores := s.cores } = s)

/-! ## What every step keeps of the tick and the commit logic (02 R32 to R36, R44) -/

/-- Both copies of the epoch agree; a commit belongs to a selvage, and to a tick without a report; a report stops the work of its tick;
reports wait for the next tick only in the selvage; 64 abandoned ticks in a row lead to the restart. -/
def TickInv (s : State) : Prop :=
  s.tick.epochA = s.tick.epochB ∧
  (s.committed = true → s.tick.selvage = true ∧ s.tick.reports = []) ∧
  (s.tick.reports ≠ [] → s.tick.stopped = true) ∧
  (s.tick.selvage = false → s.tick.late = []) ∧
  (64 ≤ s.tick.consec → s.tick.restartDue = true ∨ s.supply.release ≠ none)

end Sys2Proof.Safety
end

