-- ==== Sys2Proof/Certificates/Slice0/Obligations.lean ====
section
/-! DEFINITION. The statements for the provers: what the commands of the module do, from the numbered rules of the spec. `Does c s P`
says that command `c` completes at `s` in a next state of which `P` holds. -/

open Sys2Proof
open Sys2Proof.Machine
open Sys2Proof.Safety

/-! ## Ticks, commits, restarts and the 1PPS input (02) -/

/-- The module takes its commands one by one from the front of the queue, and idles when none waits (log entry 2). -/
def Obligations.StepTakesFrontCommand : Prop :=
  (∀ (c : Instr) (cs : List Instr) (s : State), step { s with pending := c :: cs } = exec c { s with pending := cs }) ∧
  (∀ s : State, s.pending = [] → step s = .next s)

/-- A versioned item (R28, R30): a write leaves the committed version, is seen by the module, becomes committed by the epoch alone and
is gone when it is dropped; folding changes neither version. -/
def Obligations.VersionedItemRules : Prop :=
  ∀ (α : Type) (v : Ver α) (e : W32) (x : α),
    (v.put e x).comAt e = v.comAt e ∧ (v.put e x).cur = x ∧ (v.put e x).comAt (e + 1) = x ∧
    ((v.put e x).drop e).cur = v.comAt e ∧ ((v.put e x).drop e).comAt e = v.comAt e ∧
    (v.fold e).comAt e = v.comAt e ∧ (v.fold e).cur = v.cur

/-- The tick number (R24): 48 bits, zero in the first tick after cold start, one more at cycle 0 of every later tick, whether the tick
before it was committed or abandoned; no decision of a selvage rolls it back. -/
def Obligations.TickNumberCounts : Prop :=
  (∀ (cause : Nat) (s : State), s.supply.release = some cause → s.supply.bankFault = false →
    Does .coldStart s (fun t => t.tick.n = 0 ∧ t.tick.selvage = false)) ∧
  (∀ s : State, Does .tickBegin s (fun t => t.tick.n = if s.tick.selvage then s.tick.n + (1 : BitVec 48) else s.tick.n)) ∧
  (∀ (s : State) (split : Bool) (meas : List Meas), Does (.selvage split meas) s (fun t => t.tick.n = s.tick.n))

/-- TICK_BEGIN after a selvage (R13, R24, R34, R36): the number rises by one whatever the decision was, the reports of the selvage belong to
the new tick and stop it at once, no thread has begun, and what the commit made due is the record writer's; settings, bounds, snapshot,
cache and journal stay, and so does a channel without a start due. -/
def Obligations.TickBeginStartsTick : Prop :=
  ∀ s : State,
    (s.tick.selvage = true → Does .tickBegin s (fun t =>
      (∃ l, t.tick = { s.tick with
        n := s.tick.n + 1, selvage := false, reports := s.tick.late ++ l, late := [], stopped := !(s.tick.late ++ l).isEmpty } ∧
        (s.domOn 11 = false ∨ s.tasks = [] → l = [])) ∧
      t.threads = [] ∧ t.committed = false ∧ t.slices = s.slices ∧ t.bounds = s.bounds ∧
      (∀ c, (s.chan c).starts = false → t.chan c = s.chan c) ∧ t.due = {} ∧
      t.owedPay = s.owedPay ++ s.due.pay ∧ t.owedWords = s.owedWords ++ s.due.words ∧ t.owedCpl = s.owedCpl ++ s.due.cpl ∧
      t.owedRec = s.owedRec ++ s.due.recs ∧ t.owedEv = s.owedEv ++ s.due.ev ∧
      t.snapshot = s.snapshot ∧ t.durable = s.durable ∧ t.jwait = s.jwait ∧ t.pset = s.pset ∧ t.power = s.power ∧
      t.cache = s.cache ∧ t.pending = s.pending)) ∧
    (s.tick.selvage = false → exec .tickBegin s = .next s)

/-- SELVAGE of a tick to which a report belongs (R28, R30, R33, R36, R60, R64): the tick is abandoned. The epoch stays, every versioned item
is again what it was when committed, its completions, payload and decisions are dropped, and the tick is counted; a detector of class None
is never escalated, and the Field keep-alive goes out all the same. In it log entry 4 is the model's choice. -/
def Obligations.SelvageAbandonsReportedTick : Prop :=
  ∀ (s : State) (meas : List Meas),
    s.ticking = true → s.tick.selvage = false → s.isDown = false → s.tick.reports ≠ [] →
    Does (.selvage false meas) s (fun t =>
      t.committed = false ∧ t.tick.selvage = true ∧ t.tick.epochA = s.tick.epochA ∧ t.tick.epochB = s.tick.epochB ∧
      t.tick.n = s.tick.n ∧ t.tick.abandons = s.tick.abandons + 1 ∧ t.tick.lastTick = s.now32 ∧
      t.tick.consec = s.tick.consec + 1 ∧ (63 ≤ s.tick.consec → t.tick.restartDue = true) ∧
      t.cplPend = [] ∧ t.payPend = [] ∧ t.wordsPend = [] ∧ t.decisions = [] ∧
      t.owedCpl = s.owedCpl ∧ t.owedEv = s.owedEv ∧ t.durable = s.durable ∧ t.snapshot = s.snapshot ∧
      (∀ x ∈ t.tick.escalate, x ∈ s.tick.escalate ∨ detClass x.1 x.2.toNat ≠ .none) ∧
      (∀ p : Port, s.phase = 7 → (s.port p.toNat).speed = .field → (s.port p.toNat).st = .active → (s.port p.toNat).sent = false →
        s.frontOn p.toNat = true → .line p .keepAlive ∈ t.out) ∧
      ∀ k, t.ctx k = s.comCtx k ∧ t.dev k = s.comDev k ∧ t.slice k = s.comSlice k ∧ t.attachAt k = s.comAttach k ∧
        t.planAt k = s.comPlan k ∧ t.schedAt k = s.comSched k ∧ t.task k = s.comTask k ∧ t.flowAt k = s.comFlow k ∧
        t.graph k = s.comGraph k ∧ t.boundAt k = s.comBound k ∧ t.actBoundAt k = s.comActBound k ∧
        t.bridge k = s.comBridge k ∧ t.psetAt k = s.comPSet k ∧ t.srcCfgAt k = s.comSrcCfg k ∧ t.pinAt k = s.comPin k)

/-- SELVAGE of a tick without a report (R30, R33): both copies of the epoch count it, the record writer is owed its completions, and
what was written to the shed order or the draw count in this tick is committed. -/
def Obligations.SelvageCommitsCleanTick : Prop :=
  ∀ (s : State) (meas : List Meas),
    s.ticking = true → s.tick.selvage = false → s.isDown = false → s.tick.reports = [] →
    Does (.selvage false meas) s (fun t =>
      t.committed = true ∧ t.tick.selvage = true ∧ t.tick.epochA = s.tick.epochA + 1 ∧ t.tick.epochB = s.tick.epochB + 1 ∧
      t.tick.n = s.tick.n ∧ t.tick.consec = 0 ∧ t.tick.perDet = [] ∧ t.tick.abandons = s.tick.abandons ∧
      t.cplPend = [] ∧ t.payPend = [] ∧ t.wordsPend = [] ∧ t.durable = s.durable ∧ t.shuttles = s.shuttles ∧
      (∀ x, s.shedOrder.pend = some (tagOf s.e, x) → t.shedOrder.comAt t.e = x) ∧
      (∀ x, s.drawn.pend = some (tagOf s.e, x) → t.drawn.comAt t.e = x))

/-- A detector report at a cycle (R33, R34, R36, R105, R518): recorded at once, signalled to the blocks within the tick, or left to the next
tick from the decision on. The first of a tick ends with the abort delimiter the packet that a shuttle is sending, and drives the lines of
ACTIVE Plant and Cabinet ports; nothing else but the registry, the AON log and the commit logic changes. In it log entry 112 is the model's
choice. -/
def Obligations.DetectorReportSignalsAbandon : Prop :=
  ∀ (d : Detector) (unit : Byte) (inj : Bool) (cyc : Cycle) (s : State),
    Does (.detectorReport d unit inj .none cyc) s (fun t =>
      let r : Report := { det := d, unit := detUnit d.toNat unit, injected := inj }
      (s.tick.selvage = false → t.tick = { s.tick with reports := s.tick.reports ++ [r], stopped := true }) ∧
      (s.tick.selvage = true → t.tick = { s.tick with late := s.tick.late ++ [r] }) ∧
      (s.tick.selvage = true ∨ s.tick.stopped = true → t.out = s.out ∧ t.shuttles = s.shuttles) ∧
      (s.tick.selvage = false → s.tick.stopped = false → ∃ l, t.out = s.out ++ l ∧ ∀ p : Port,
        (cyc.toNat < (s.shuttle p.toNat).txEnd →
          .abort p (abortSyms (s.port p.toNat).rd (s.port p.toNat).speed) ∈ l ∧ (t.shuttle p.toNat).txEnd = cyc.toNat) ∧
        ((s.shuttle p.toNat).txEnd ≤ cyc.toNat → t.shuttle p.toNat = s.shuttle p.toNat ∧ ∀ y, .abort p y ∉ l) ∧
        (.line p .activity ∈ l ↔ s.portActive p.toNat = true ∧ (s.port p.toNat).speed ≠ .field)) ∧
      t.det d.toNat = { s.det d.toNat with
        unit := r.unit, injected := inj, count := satInc (s.det d.toNat).count, last := s.now32 } ∧
      (∀ k, k ≠ d.toNat → t.det k = s.det k) ∧ t.dtPend.getLsbD d.toNat = true ∧
      t.aonLog.find s.aonNext.toNat = some { boot := s.boot, tick := s.tick.n, code := 0x20, unit := d.setWidth 8
                                             value := BitVec.ofNat 32 (r.unit.toNat * 2 ^ 24 + (if inj then 1 else 0)) } ∧
      t.aonNext = s.aonNext + 1 ∧
      { t with
        tick := s.tick, aonLog := s.aonLog, aonNext := s.aonNext, dets := s.dets, dtPend := s.dtPend, out := s.out
        shuttles := s.shuttles } = s)

/-- The overrun detector (R42, R233): DT001 reports the lowest port that is busy at cycle 12,000, and at its END a segment that still
runs; where everything has ended there is no report and nothing changes. In it log entry 112 is the model's choice. -/
def Obligations.OverrunChecksReportBusyPort : Prop :=
  (∀ (p : Port) (s : State), s.working = true → (s.thread p.toNat).running = true →
    (∀ q, q < p.toNat → s.portBusy q 12000 = false) →
    Does .overrunCheck s (fun t =>
      t.tick = { s.tick with reports := s.tick.reports ++ [{ det := 1, unit := p.setWidth 8, injected := false }], stopped := true } ∧
      { t with
        tick := s.tick, aonLog := s.aonLog, aonNext := s.aonNext, dets := s.dets, dtPend := s.dtPend, out := s.out
        shuttles := s.shuttles } = s)) ∧
  (∀ s : State, s.working = true → s.threads = [] → s.shuttles = [] → exec .overrunCheck s = .next s) ∧
  (∀ (p : Port) (k : BitVec 3) (e : Nat) (s : State), s.working = true → endOf (s.segsOf p.toNat) k.toNat = some e →
    (s.thread p.toNat).seg = k → (s.thread p.toNat).running = true →
    Does (.segmentEndCheck p k) s (fun t =>
      t.tick = { s.tick with reports := s.tick.reports ++ [{ det := 1, unit := p.setWidth 8, injected := false }], stopped := true } ∧
      { t with
        tick := s.tick, aonLog := s.aonLog, aonNext := s.aonNext, dets := s.dets, dtPend := s.dtPend, out := s.out
        shuttles := s.shuttles } = s))

/-- Containment and restarts (R43, R44, R50, R464): the class module restarts the module, 64 abandons in a row do, and a cold start
returns tick number and epoch to 0, logs its cause and keeps what is nonvolatile. In it log entries 7, 12, 13 and 15 are the model's
choice. -/
def Obligations.EscalationAndRestart : Prop :=
  (∀ (d : Detector) (u : Byte) (s : State), s.tick.escalate = [(d.toNat, u)] → detClass d.toNat u.toNat = .module →
    Does (.commitEscalated d) s (fun t =>
      t.tick = { s.tick with escalate := [], restartDue := true } ∧
      t.aonLog.find s.aonNext.toNat =
        some { boot := s.boot, tick := s.tick.n, code := 0x09, unit := d.setWidth 8, value := 6 } ∧
      (∀ l, l < 4 → (t.link l).commitStat.getLsbD 4 = true) ∧ t.ports = s.ports ∧ t.chans = s.chans ∧ t.doms = s.doms)) ∧
  (∀ s : State, s.tick.restartDue = true → 64 ≤ s.tick.consec →
    Does .moduleRestart s (fun t =>
      t.supply.release = some 3 ∧ t.tick = { s.tick with restartDue := false } ∧ (∀ d, 1 ≤ d → d ≤ 12 → (t.dom d).st = .off) ∧
      (∀ l, l < 4 → (t.link l).commitStat.getLsbD 4 = true) ∧ t.durable = s.durable ∧ t.aonLog = s.aonLog)) ∧
  (∀ (cause : Nat) (s : State), s.supply.release = some cause → s.supply.bankFault = false →
    Does .coldStart s (fun t =>
      t.tick = {} ∧ t.boot = s.boot + 1 ∧ t.durable = s.durable ∧ t.relay = s.relay ∧ t.supply.restoring = true ∧
      t.supply.release = none ∧ (t.dom 7).st = .waking ∧ (t.dom 9).st = .waking ∧ (t.dom 3).st = .off ∧
      t.ports = [] ∧ t.queues = [] ∧ t.threads = [] ∧
      t.aonLog.find s.aonNext.toNat =
        some { boot := s.boot + 1, tick := 0, code := 0x01, unit := 0, value := BitVec.ofNat 32 cause } ∧
      (∀ l, l < 4 → (t.link l).commitStat = if cause = 1 then 0 else (s.link l).commitStat &&& 0x10) ∧
      t.aonNext = s.aonNext + 1)) ∧
  (∀ s : State, s.supply.st = .start →
    Does .powerApplied s (fun t =>
      t.supply.st = .start ∧ t.supply.losses = s.supply.losses ∧ t.durable = s.durable ∧ t.relay = s.relay ∧ t.aonLog = s.aonLog ∧
      t.ports = [] ∧ t.doms = [] ∧ t.boot = s.boot))

/-- FOLD_SWEEP (R31): no version of anything changes, and no pending slot of an earlier epoch stays. The journal (R52): the oldest change
that waits becomes the durable state, and JOURNAL_EPOCH is EPOCH when nothing waits any more. In it log entries 4 and 14 are the model's
choice. -/
def Obligations.FoldingAndJournal : Prop :=
  (∀ s : State, Does .foldSweep s (fun t =>
     t.tick = s.tick ∧ t.ports = s.ports ∧ t.out = s.out ∧
     (∀ k, t.comCtx k = s.comCtx k ∧ t.ctx k = s.ctx k ∧ t.comQueue k = s.comQueue k ∧ t.queue k = s.queue k ∧
       t.comSlice k = s.comSlice k ∧ t.slice k = s.slice k ∧ t.comTask k = s.comTask k ∧ t.task k = s.task k) ∧
     (∀ k v, t.ctxs.find k = some v → ∀ p, v.pend = some p → p.1 = tagOf s.e))) ∧
  (∀ (s : State) (e : W32) (j : Journal) (rest : List (W32 × Journal)), s.jwait = (e, j) :: rest → s.domOn 9 = true →
     Does .journalDurable s (fun t =>
       t.durable = j ∧ t.jwait = rest ∧ (rest = [] → t.tick.journalEpoch = s.tick.epochA) ∧
       (∀ x y, rest = x :: y → t.tick.journalEpoch = x.1 - 1) ∧
       { t with tick := s.tick, durable := s.durable, jwait := s.jwait } = s ∧
       { t.tick with journalEpoch := s.tick.journalEpoch } = s.tick))

/-- The clock and 1PPS (R54, R57, R58, R60): the fallback is kept for the clock's life and logged, a valid edge is stamped, an invalid one
counted, one of the other polarity is none, and 1.5 s without an edge is HOLDOVER with the correction kept. In it log entries 35, 36 and 61 are the model's choice. -/
def Obligations.ClockAndPps : Prop :=
  (∀ (tcxo pll : Bool) (s : State), s.supply.release = none → s.supply.restoring = true → s.tick.n = 0 → (tcxo || pll) = true →
    s.tick.degraded = false →
    Does (.clockFallback tcxo pll) s (fun t =>
      t.tick = { s.tick with degraded := true, tcxoFail := tcxo, pllFail := pll } ∧ t.aonNext = s.aonNext + 1 ∧
      { t with tick := s.tick, aonLog := s.aonLog, aonNext := s.aonNext, raised := s.raised } = s)) ∧
  (∀ (cyc : Cycle) (s : State), s.tick.ppsCtl.getLsbD 0 = true → s.tick.ppsLast = none →
    Does (.ppsEdge cyc (s.tick.ppsCtl.getLsbD 1)) s (fun t =>
      t.tick.ppsStamp = s.now32 ∧ t.tick.ppsCycle = cyc ∧ t.tick.ppsLast = some (s.now * 12500 + cyc.toNat) ∧
      t.tick.ppsReject = s.tick.ppsReject ∧ t.tick.n = s.tick.n ∧ (s.tick.degraded = true → t.tick.ppsFreq = s.tick.ppsFreq) ∧
      { t with tick := s.tick, freeCount := s.freeCount } = s)) ∧
  (∀ (cyc : Cycle) (s : State) (c : Nat), s.tick.ppsCtl.getLsbD 0 = true → s.tick.ppsLast = some c → s.tick.degraded = false →
    s.now * 12500 + cyc.toNat + 20000 < c + 100000000 →
    Does (.ppsEdge cyc (s.tick.ppsCtl.getLsbD 1)) s (fun t => t = { s with tick := { s.tick with ppsReject := satInc s.tick.ppsReject } })) ∧
  (∀ (cyc : Cycle) (falling : Bool) (s : State), falling ≠ s.tick.ppsCtl.getLsbD 1 → exec (.ppsEdge cyc falling) s = .next s) ∧
  (∀ (cyc : Cycle) (s : State) (c : Nat), s.tick.ppsCtl.getLsbD 0 = true → s.tick.ppsLast = some c →
    c + 150000000 ≤ s.now * 12500 + cyc.toNat →
    Does (.ppsHoldover cyc) s (fun t =>
      t.tick.pps = .holdover ∧ t.tick.ppsFreq = s.tick.ppsFreq ∧ t.tick.n = s.tick.n ∧ { t with tick := s.tick } = s))

/-! ## Root ports (03) -/

/-- Presence (R77 to R79): a sample that is not absent takes a DETACHED port to DEBOUNCE, an absent one takes it back; 800 matching
samples declare a Plant attach, which leads to POWERING where PORT_ON is 1; 800 absent samples end INVALID. -/
def Obligations.PresenceMovesPort : Prop :=
  (∀ (p : Port) (s : State), (s.port p.toNat).st = .detached →
    Does (.debounceEnter p .low .high) s (fun t =>
      (t.port p.toNat).st = .debounce ∧ (t.port p.toNat).dbCount = 1 ∧ (t.port p.toNat).decode = .plant ∧
      (t.port p.toNat).since = s.tick.n ∧ (t.port p.toNat).event = (s.port p.toNat).event ∧
      (∀ q, q ≠ p.toNat → t.port q = s.port q) ∧ { t with ports := s.ports } = s)) ∧
  (∀ (p : Port) (s : State), (s.port p.toNat).st = .debounce →
    Does (.debounceEnter p .low .low) s (fun t =>
      (t.port p.toNat).st = .detached ∧ (t.port p.toNat).dbCount = 0 ∧ (∀ q, q ≠ p.toNat → t.port q = s.port q) ∧
      { t with ports := s.ports } = s)) ∧
  (∀ (p : Port) (s : State), (s.port p.toNat).st = .debounce → (s.port p.toNat).dbCount = 800 →
    (s.port p.toNat).decode = .plant → s.supply.st = .normal → (s.comPSet p.toNat).on = true →
    Does (.presenceDeclared p) s (fun t =>
      (t.port p.toNat).st = .powering ∧ (t.port p.toNat).declared = .plant ∧ (t.port p.toNat).speed = .plant ∧
      (t.port p.toNat).event = setBit (s.port p.toNat).event 0 ∧ (∀ q, q ≠ p.toNat → t.port q = s.port q) ∧
      { t with ports := s.ports, doms := s.doms } = s)) ∧
  (∀ (p : Port) (s : State), (s.port p.toNat).st = .debounce → (s.port p.toNat).dbCount = 800 →
    (s.port p.toNat).decode = .invalid →
    Does (.presenceDeclared p) s (fun t =>
      (t.port p.toNat).st = .invalid ∧ (t.port p.toNat).event = setBit (s.port p.toNat).event 2 ∧
      (∀ q, q ≠ p.toNat → t.port q = s.port q) ∧ { t with ports := s.ports } = s)) ∧
  (∀ (p : Port) (s : State), (s.port p.toNat).st = .invalid → 800 ≤ (s.port p.toNat).absent → s.relay.getLsbD p.toNat = false →
    Does (.invalidReturn p) s (fun t =>
      (t.port p.toNat).st = .detached ∧ (t.port p.toNat).speed = .none ∧ (∀ q, q ≠ p.toNat → t.port q = s.port q) ∧
      { t with ports := s.ports } = s))

/-- A reset (R80, R82, R83): after PWR_WAIT the port drives RST, at r + 16 it leaves the line idle, a CHIRP-D of a Plant attach is
answered when CAB_EN is 1 and selects Cabinet, at r + 80 line activity begins, and 16 ticks later the port is ACTIVE. -/
def Obligations.ResetTakesPortToActive : Prop :=
  (∀ (p : Port) (s : State), (s.port p.toNat).st = .powerWait → s.portDue p.toNat (max 16 (s.port p.toNat).pwrWait.toNat) = true →
    s.frontOn p.toNat = true →
    Does (.pwrWaitEnd p) s (fun t =>
      (t.port p.toNat).st = .resetting ∧ (t.port p.toNat).since = s.tick.n ∧ (t.port p.toNat).chirp = .none ∧
      (t.port p.toNat).speed = (s.port p.toNat).declared.speed ∧ t.out = s.out ++ [.line p .rst] ∧
      (∀ q, q ≠ p.toNat → t.port q = s.port q) ∧ { t with ports := s.ports, out := s.out } = s)) ∧
  (∀ (p : Port) (s : State), (s.port p.toNat).st = .resetting → (s.port p.toNat).rstDone = false → s.portDue p.toNat 16 = true →
    Does (.rstPhaseEnd p) s (fun t =>
      (t.port p.toNat) = { s.port p.toNat with rstDone := true } ∧ t.out = s.out ++ [.line p .idle] ∧
      (∀ q, q ≠ p.toNat → t.port q = s.port q) ∧ { t with ports := s.ports, out := s.out } = s)) ∧
  (∀ (p : Port) (s : State), (s.port p.toNat).st = .resetting → (s.port p.toNat).rstDone = true →
    (s.port p.toNat).chirp = .none → (s.port p.toNat).declared = .plant → (s.port p.toNat).cabEn = true →
    s.now < (s.port p.toNat).since.toNat + 32 →
    Does (.chirpDRecognised p true) s (fun t =>
      (t.port p.toNat).speed = .cabinet ∧ (t.port p.toNat).event = setBit (s.port p.toNat).event 4 ∧
      (t.port p.toNat).st = .resetting ∧ t.out = s.out ++ [.line p .chirpH] ∧
      (∀ q, q ≠ p.toNat → t.port q = s.port q) ∧ { t with ports := s.ports, out := s.out } = s)) ∧
  (∀ (p : Port) (s : State), (s.port p.toNat).st = .resetting → s.portDue p.toNat 80 = true →
    Does (.resetEnd p) s (fun t =>
      (t.port p.toNat) = { s.port p.toNat with st := .recovery, since := s.tick.n } ∧ t.out = s.out ++ [.line p .activity] ∧
      (∀ q, q ≠ p.toNat → t.port q = s.port q) ∧ { t with ports := s.ports, out := s.out } = s)) ∧
  (∀ (p : Port) (s : State), (s.port p.toNat).st = .recovery → s.portDue p.toNat 16 = true →
    Does (.recoveryEnd p) s (fun t =>
      (t.port p.toNat) = { s.port p.toNat with
        st := .active, since := s.tick.n
        event := setBit (s.port p.toNat).event (if (s.port p.toNat).afterReset then 3 else 7) } ∧
      (∀ q, q ≠ p.toNat → t.port q = s.port q) ∧ { t with ports := s.ports } = s))

/-- Suspend, resume and wake (R90, R92, R94 to R96): idle makes a SUSPENDING port SUSPENDED, RSM ends in RECOVERY, and WKP on a
SUSPENDED port is stamped and recorded, and ignored with WAKE_EN 0. -/
def Obligations.SuspendResumeWake : Prop :=
  (∀ (p : Port) (s : State), (s.port p.toNat).st = .suspending → s.portDue p.toNat 27 = true →
    Does (.suspendComplete p) s (fun t =>
      (t.port p.toNat) = { s.port p.toNat with
        st := .suspended, since := s.tick.n, event := setBit (s.port p.toNat).event 6 } ∧
      (∀ q, q ≠ p.toNat → t.port q = s.port q) ∧ { t with ports := s.ports } = s)) ∧
  (∀ (p : Port) (s : State), (s.port p.toNat).st = .resuming → (s.port p.toNat).accepted = none → s.portDue p.toNat 80 = true →
    Does (.rsmEnd p) s (fun t =>
      (t.port p.toNat) = { s.port p.toNat with st := .recovery, since := s.tick.n } ∧ t.out = s.out ++ [.line p .activity] ∧
      (∀ q, q ≠ p.toNat → t.port q = s.port q) ∧ { t with ports := s.ports, out := s.out } = s)) ∧
  (∀ (p : Port) (cyc : Cycle) (s : State), (s.port p.toNat).st = .suspended →
    Does (.wkp p cyc) s (fun t =>
      (t.port p.toNat).wakeStamp = s.now32 ∧ (t.port p.toNat).event.getLsbD 8 = true ∧
      ((s.port p.toNat).wakeEn = true → (t.port p.toNat).wkp = true) ∧
      ((s.port p.toNat).wakeEn = false →
        (t.port p.toNat).event.getLsbD 9 = true ∧ (t.port p.toNat).wkp = (s.port p.toNat).wkp) ∧
      (t.port p.toNat).st = .suspended ∧ (∀ q, q ≠ p.toNat → t.port q = s.port q) ∧
      { t with ports := s.ports, doms := s.doms } = s))

/-- What the line of a port shows at any time (R8, R72, R86, R87, R98, R99, R103, R528): presence lost or undercurrent is recorded at once, and
the commit switches the gate off and returns the port to DETACHED; a surge blanks the receiver of a front end that is on, and the line probe
counts it while its domain is on; lock regained and code violations are counted. -/
def Obligations.LineEventsAreCounted : Prop :=
  (∀ (p : Port) (s : State), (s.port p.toNat).st = .active → (s.port p.toNat).gone = false →
    ((32 ≤ (s.port p.toNat).absent ∧ (s.port p.toNat).declared = .plant) ∨ 160 ≤ (s.port p.toNat).under) →
    Does (.detach p) s (fun t =>
      (t.port p.toNat) = { s.port p.toNat with gone := true, event := setBit (s.port p.toNat).event 1 } ∧
      (∀ q, q ≠ p.toNat → t.port q = s.port q) ∧ { t with ports := s.ports } = s)) ∧
  (∀ (p : Nat) (s : State), s.relay.getLsbD p = false →
    ((s.commitGone p).port p).st = .detached ∧ ((s.commitGone p).port p).speed = .none ∧
    ((s.commitGone p).port p).detachNow = true ∧ ((s.commitGone p).port p).gone = false ∧
    ((s.commitGone p).fuse p).gate = false ∧ ((s.commitGone p).fuse p).pg = false ∧
    ((s.commitGone p).fuse p).cause = (s.fuse p).cause ∧
    (∀ q, q ≠ p → (s.commitGone p).port q = s.port q ∧ (s.commitGone p).fuse q = s.fuse q) ∧
    { s.commitGone p with ports := s.ports, power := s.power } = s) ∧
  (∀ (p : Port) (v : W16) (cyc : Cycle) (s : State), 200 < v.toNat → s.frontOn p.toNat = true →
    Does (.surge p v cyc) s (fun t =>
      (t.port p.toNat) = { s.port p.toNat with
        event := setBit (s.port p.toNat).event 10, blanks := (s.port p.toNat).blanks ++ [s.clockAt cyc]
        relock := (s.port p.toNat).relock || decide ((s.port p.toNat).speed = .plant ∨ (s.port p.toNat).speed = .cabinet) } ∧
      (s.domOn 10 = true → (t.probe p.toNat).surges = satInc (s.probe p.toNat).surges ∧
        (t.probe p.toNat).peak = (if 4000 < v.toNat then 4000 else v) ∧ (t.probe p.toNat).surgeTick = s.now32 ∧
        t.tickCounts.get 0 (0x100 + p.toNat * 0x20 + 7) = s.tickCounts.get 0 (0x100 + p.toNat * 0x20 + 7) + 1) ∧
      (s.domOn 10 = false → t.probes = s.probes ∧ t.tickCounts = s.tickCounts) ∧
      (∀ q, q ≠ p.toNat → t.port q = s.port q ∧ t.probe q = s.probe q) ∧
      { t with ports := s.ports, probes := s.probes, tickCounts := s.tickCounts } = s)) ∧
  (∀ (p : Port) (s : State), (s.port p.toNat).relock = true → (s.port p.toNat).speed = .cabinet →
    Does (.rxRelock p) s (fun t =>
      (t.port p.toNat) = { s.port p.toNat with relock := false, rxRelock := satInc (s.port p.toNat).rxRelock } ∧
      t.tickCounts.get 0 (0x100 + p.toNat * 0x20 + 0x11) = s.tickCounts.get 0 (0x100 + p.toNat * 0x20 + 0x11) + 1 ∧
      (∀ q, q ≠ p.toNat → t.port q = s.port q) ∧ { t with ports := s.ports, tickCounts := s.tickCounts } = s)) ∧
  (∀ (p : Port) (s : State),
    Does (.codeViolation p) s (fun t =>
      (t.port p.toNat) = { s.port p.toNat with
        codeViol := satInc (s.port p.toNat).codeViol, event := setBit (s.port p.toNat).event 11 } ∧
      t.tickCounts.get 0 (0x100 + p.toNat * 0x20 + 0x10) = s.tickCounts.get 0 (0x100 + p.toNat * 0x20 + 0x10) + 1 ∧
      (∀ q, q ≠ p.toNat → t.port q = s.port q) ∧ { t with ports := s.ports, tickCounts := s.tickCounts } = s))

/-- LINK_CTL (R18, R35, R103, R501): a write from the warden link that commands a reset, suspend, resume, disable or enable is held in the
buffer of its link for the next commit, behind the writes already there, with its place among the port's commands (R75); from any other link
it is ignored. In it log entry 72 is the
model's choice. -/
def Obligations.LinkCtlWriteIsHeld : Prop :=
  (∀ (c : Instr) (l : Link) (p : Port) (v : W32) (s : State),
    ((c = .linkReset l p v ∧ v.getLsbD 0 = true) ∨ (c = .linkSuspend l p v ∧ v.getLsbD 1 = true) ∨
      (c = .linkResume l p v ∧ v.getLsbD 2 = true) ∨ (c = .linkDisable l p v ∧ v.getLsbD 5 = true) ∨
      (c = .linkEnable l p v ∧ v.getLsbD 5 = false)) →
    s.comWarden = l.toNat → s.supply.st ≠ .powerDown → (s.link l.toNat).buf.length < 256 → (s.link l.toNat).withheld = [] →
    Does c s (fun t =>
      (t.link l.toNat) = { s.link l.toNat with
        buf := (s.link l.toNat).buf ++
          [{ tgt := .ind (BitVec.ofNat 24 (0x20000 + p.toNat * 0x100)), val := v, sl := none, warden := true }] } ∧
      t.port p.toNat = { s.port p.toNat with hostAt := (s.port p.toNat).cmds.length } ∧
      (∀ k, k ≠ p.toNat → t.port k = s.port k) ∧ (∀ k, k ≠ l.toNat → t.link k = s.link k) ∧
      { t with links := s.links, ports := s.ports } = s)) ∧
  (∀ (l : Link) (p : Port) (v : W32) (s : State), s.comWarden ≠ l.toNat →
    exec (.linkReset l p v) s = .next s ∧ exec (.linkSuspend l p v) s = .next s ∧ exec (.linkResume l p v) s = .next s ∧
    exec (.linkDisable l p v) s = .next s ∧ exec (.linkEnable l p v) s = .next s)

/-! ## The wire (04) and its shuttle (06, 07) -/

/-- WIRE_SEQUENCE_END (R69, R122 to R125, R127, R205, R208, R213, R283): what a reply that begins in time does to the context, to the
transfer in progress and to gD, for NAK, STALL, the ACK of a PING, a short packet that ends an IN transfer, and the end of a probe
slot; one that does not is not taken. In it log entries 47, 49 and 126 are the model's choice. RESPONSE_TIMEOUT (R69, R125, R206,
R208) and POWER_NOTICE (R156): with retries left the next attempt goes out at module turnaround and nothing else changes, not before
the response timeout has passed; after the last the outcome is NO_REPLY and ERR_RUN counts it; and the notice that is due goes out
between bus instructions, its tick the one in which the loss was detected. In it log entry 126 is the model's choice. -/
def Obligations.WireSequencesAndNotices : Prop :=
  (∀ (s : State) (p : Port) (cyc : Cycle) (q : WSeq) (xs : List RxPkt) (qn : Nat) (e : Entry),
     let i := q.ctx.toNat
     let c := s.ctx i
     let gets (t : State) (v : Nat) : Prop := (t.thread p.toNat).reg q.d = (if q.d = 0 then 0 else BitVec.ofNat 32 v)
     let replies (r : Reply) : Prop :=
       q.form ≠ .slot ∧ s.inTime p.toNat q.sentAt cyc.toNat xs = true ∧ s.replyOf p.toNat (q.form.sheaf c.mps.toNat) xs = r
     s.working = true → (s.shuttle p.toNat).seqs = [q] → q.started = true → q.weft = false →
     ((∀ us, q.kind ≠ .probe us) → replies .nak → s.transferOf i = some (qn, e) → (s.queue (qKey c.slice.toNat qn)).nakLimit = 0 →
       Does (.wireSequenceEnd p xs cyc) s (fun t =>
         t.ctx i = { c with nakRun := satInc c.nakRun, lastSvc := s.tick.n } ∧ (∀ k, k ≠ i → t.ctx k = s.ctx k) ∧
         gets t (q.attempts % 8 * 16 + 2) ∧ (t.shuttle p.toNat).seqs = [] ∧
         { t with ctxs := s.ctxs, queues := s.queues, threads := s.threads, shuttles := s.shuttles, traffic := s.traffic
                  policy := s.policy, probes := s.probes } = s)) ∧
     ((∀ us, q.kind ≠ .probe us) → replies .stall → q.kind ≠ .poll → s.transferOf i = some (qn, e) → c.ep ≠ 0 →
       Does (.wireSequenceEnd p xs cyc) s (fun t =>
         (t.ctx i).st = .halted ∧ gets t (128 + q.attempts % 8 * 16 + 3) ∧ (t.shuttle p.toNat).seqs = [] ∧ t.out = s.out ∧
         ∃ r, t.cplPend = s.cplPend ++ [r] ∧ r.slice = c.slice ∧ r.queue = c.queue ∧ r.pos = e.pos ∧ r.c0 = cplC0 e 0x01)) ∧
     (∀ next, q.kind = .ping → q.form = .ping → replies (.ack next) → s.transferOf i = none →
       Does (.wireSequenceEnd p xs cyc) s (fun t =>
         t.ctx i = { c with nakRun := 0, errRun := 0, lastSvc := s.tick.n } ∧ (∀ k, k ≠ i → t.ctx k = s.ctx k) ∧
         gets t (q.attempts % 8 * 16) ∧ (t.shuttle p.toNat).seqs = [] ∧
         { t with ctxs := s.ctxs, threads := s.threads, shuttles := s.shuttles, traffic := s.traffic, policy := s.policy
                  probes := s.probes } = s)) ∧
     (∀ pk : Pkt, q.kind = .take → q.form = .inSheaf 1 → replies (.sheaf [pk] false false) → s.transferOf i = some (qn, e) → s.ctxOfHandle e.handle = some i →
       c.typ ≠ 0 → c.deferred = false → pk.seq = c.seq → pk.data ≠ [] →
       pk.data.length ≤ c.remain.toNat → pk.data.length < c.mps.toNat →
       e.qshuf = 0 → c.port.toNat < 16 →
       Does (.wireSequenceEnd p xs cyc) s (fun t =>
         (t.ctx i).seq = c.seq + 1 ∧ (t.ctx i).queue = 0 ∧ gets t (128 + q.attempts % 8 * 16) ∧
         OnLine s t p [ackPacket (c.seq + 1)] ∧
         (∃ y, t.payPend = s.payPend ++ [y] ∧ y.slice = c.slice ∧ y.queue = c.queue ∧ y.pos = e.pos ∧
           y.runs = fragRuns e.frags c.moved.toNat pk.data) ∧
         ∃ r, t.cplPend = s.cplPend ++ [r] ∧ r.slice = c.slice ∧ r.queue = c.queue ∧ r.pos = e.pos ∧ r.c0 = cplC0 e 0x00)) ∧
     (∀ us, q.kind = .probe us → q.form = .slot → q.start + us * 100 ≤ cyc.toNat →
       Does (.wireSequenceEnd p xs cyc) s (fun t =>
         gets t 0 ∧ (t.shuttle p.toNat).seqs = [] ∧ { t with threads := s.threads, shuttles := s.shuttles } = s)) ∧
     (q.form ≠ .slot → s.inTime p.toNat q.sentAt cyc.toNat xs = false → exec (.wireSequenceEnd p xs cyc) s = .next s)) ∧
  (∀ (s : State) (p : Port) (cyc : Cycle) (q : WSeq),
     let i := q.ctx.toNat
     let c := s.ctx i
     let silent : Prop :=
       s.working = true ∧ (s.shuttle p.toNat).seqs = [q] ∧ q.started = true ∧ (∀ us, q.kind ≠ .probe us) ∧ q.form ≠ .slot ∧
       q.sentAt + toOf (s.port p.toNat).speed / 100 ≤ cyc.toNat ∧ cyc.toNat ≤ 12000
     (∀ a, silent → q.attempts ≤ q.retries → s.planWire q.kind i q.cnt = some a →
       Does (.responseTimeout p cyc) s (fun t =>
         (t.shuttle p.toNat).seqs = [{ q with
           form := a, first := c.seq, attempts := q.attempts + 1
           sentAt := s.sentBy p.toNat (cyc.toNat + 25) (s.packetsOf i a) }] ∧
         OnLine s t p (s.packetsOf i a) ∧ OnlyLine s t p ∧
         { t with shuttles := s.shuttles, out := s.out, ports := s.ports, traffic := s.traffic } = s)) ∧
     (s.working = true → (s.shuttle p.toNat).seqs = [q] → cyc.toNat < q.sentAt + toOf (s.port p.toNat).speed / 100 →
       exec (.responseTimeout p cyc) s = .next s) ∧
     (∀ qn e, silent → q.weft = false → q.retries < q.attempts → s.transferOf i = some (qn, e) →
       (satInc c.errRun).toNat < (s.queue (qKey c.slice.toNat qn)).errLimit.toNat →
       Does (.responseTimeout p cyc) s (fun t =>
         t.ctx i = { c with errRun := satInc c.errRun, lastSvc := s.tick.n } ∧ (∀ k, k ≠ i → t.ctx k = s.ctx k) ∧
         (t.thread p.toNat).reg q.d = (if q.d = 0 then 0 else BitVec.ofNat 32 (q.attempts % 8 * 16 + 6)) ∧
         (t.shuttle p.toNat).seqs = [] ∧
         { t with ctxs := s.ctxs, queues := s.queues, threads := s.threads, shuttles := s.shuttles, traffic := s.traffic
                  policy := s.policy } = s)) ∧
     (∀ n, (s.shuttle p.toNat).notice = some n → s.noticeDue p.toNat = true → (s.shuttle p.toNat).seqs = [] →
       Does (.powerNotice p) s (fun t =>
         OnLine s t p [powerNotice n] ∧ OnlyLine s t p ∧ (t.shuttle p.toNat).notice = none ∧
         (∀ k, k ≠ p.toNat → t.shuttle k = s.shuttle k) ∧ { t with out := s.out, shuttles := s.shuttles, ports := s.ports } = s)))

/-! ## Contexts, enumeration and the tree (05, 07) -/

/-- Staging (R174, R176, R179, R181, R182): the list of the next tick holds the contexts that programs, fetched entries and ticket
records call for; what of it is staged is resident and claimed for the next tick, and no version of a context changes; the end of a
fill makes its context resident. In it log entries 112 and 122 are the model's choice. Eligibility and binding (R12, R238, R239,
R283): two ticks after its fetch an entry whose payload is in and whose context is claimed becomes eligible, one without a device
completes NO_DEVICE, and an eligible entry of a warp-named endpoint whose context is claimed becomes the transfer in progress; where
SB_OFF stands is the model's free value. -/
def Obligations.StagingAndTransfers : Prop :=
  ((∀ s : State, s.domOn 7 = true → s.domOn 9 = true → s.tick.selvage = false → (∀ x ∈ s.staging, x.done = true ∨ x.warp = true) →
     Does .stagingList s (fun t =>
       (∀ i : CtxIdx, (∃ x ∈ t.staging, x.ctx = i) ↔
         ∃ j ∈ s.warpFor (s.now + 1) ++ s.weftFor ++ s.collectFor, BitVec.ofNat 23 j = i) ∧
       (∀ x ∈ t.staging, x.done = true → ∃ k y, t.wayOf (x.ctx.toNat % 1024) (x.ctx.toNat / 1024) false = some k ∧
         t.cache.find k = some y ∧ y.claimNext = true ∧ y.filling = false) ∧
       t.stagedNow ≤ 3000 ∧ t.stageLate = s.stageLate ∧
       (∀ k, t.ctx k = s.ctx k ∧ t.comCtx k = s.comCtx k ∧ t.dev k = s.dev k ∧ t.comDev k = s.comDev k) ∧
       { t with
         staging := s.staging, cache := s.cache, stagedNow := s.stagedNow, stagePeak := s.stagePeak, ctxs := s.ctxs, devs := s.devs
         tick := s.tick, aonLog := s.aonLog, aonNext := s.aonNext, dets := s.dets, dtPend := s.dtPend, out := s.out
         shuttles := s.shuttles } = s)) ∧
   (∀ (i : CtxIdx) (k : Nat) (y : CWay) (s : State), s.domOn 7 = true → s.domOn 9 = true → s.tick.selvage = false →
     s.wayOf (i.toNat % 1024) (i.toNat / 1024) false = some k → s.cache.find k = some y → y.filling = true →
     Does (.contextFillDone i) s (fun t =>
       t.resident i.toNat = true ∧ t.cache.find k = some { y with filling := false } ∧
       (∀ j, j ≠ k → t.cache.find j = s.cache.find j) ∧ (∀ x ∈ t.staging, x.ctx = i → x.done = true) ∧
       t.stagedNow = s.stagedNow + 1 ∧
       { t with staging := s.staging, cache := s.cache, stagedNow := s.stagedNow, stagePeak := s.stagePeak } = s)) ∧
   (∀ (i : CtxIdx) (s : State), s.resident i.toNat = true → exec (.contextFillDone i) s = .next s)) ∧
  (∀ (s : State) (sl : Slice) (q : QNum) (pos : BitVec 17) (e d : Entry) (i : Nat),
     let k := qKey sl.toNat q.toNat
     (s.queue k).entryAt pos = some e → s.working = true → s.works sl.toNat = true →
     ((s.comQueue k).entryAt pos = some d → q ≠ 0 → e.op = 1 → e.st = .waiting → d.staged = true → e.tick.toNat + 2 ≤ s.now →
       s.ctxOfHandle e.handle = some i → (s.ctx i).port = (s.queue k).port → s.claimed i = true →
       s.warpNames (s.queue k).port.toNat i = true →
       Does (.entryEligible sl q pos) s (fun t =>
         t.queue k = { s.queue k with
           entries := (s.queue k).entries.map (fun x => if x.pos = pos then { x with st := .eligible } else x) } ∧
         (∀ j, j ≠ k → t.queue j = s.queue j) ∧ (∀ j, t.comQueue j = s.comQueue j) ∧ { t with queues := s.queues } = s)) ∧
     ((s.comQueue k).entryAt pos = some d → q ≠ 0 → e.op = 1 → e.st = .waiting → d.staged = true → e.tick.toNat + 2 ≤ s.now →
       s.ctxOfHandle e.handle = none → (s.queue k).old = [] →
       Does (.entryEligible sl q pos) s (fun t =>
         (t.queue k).entryAt pos = none ∧ (∀ j, j ≠ k → t.queue j = s.queue j) ∧
         (∃ r, t.cplPend = s.cplPend ++ [r] ∧ r.slice = sl ∧ r.queue = q ∧ r.pos = pos ∧ r.c0 = cplC0 e 0x08) ∧
         { t with queues := s.queues, cplPend := s.cplPend, raised := s.raised } = s)) ∧
     (e.st = .eligible → s.ctxOfHandle e.handle = some i → s.claimed i = true → s.ownBusy (s.queue k).port.toNat i = false → s.warpNames (s.queue k).port.toNat i = true → (s.ctx i).queue = 0 →
       (s.comCtx i).queue = 0 → s.firstFor sl.toNat q.toNat e = true → e.pos = pos →
       Does (.entryBind sl q pos) s (fun t =>
         t.ctx i = { s.ctx i with
           queue := q, entry := BitVec.ofNat 16 ((s.queue k).slot pos), remain := BitVec.ofNat 32 e.length, moved := 0
           sbOff := (Config.freeValue s.freeCount).setWidth 16 } ∧
         (∀ j, j ≠ i → t.ctx j = s.ctx j) ∧ (∀ j, j ≠ k → t.queue j = s.queue j) ∧
         (∀ x ∈ (t.queue k).entries, x.pos = pos → x.st = .bound ∧ x.stage = .setup ∧ x.stageDone = 0 ∧ x.record = none) ∧
         { t with ctxs := s.ctxs, queues := s.queues, drawn := s.drawn, freeCount := s.freeCount } = s)))

/-- The ends of identifiers and tickets (R153, R167, R185, R186): a device that left is released once no work of it is left, its
identifier quarantined, its contexts FREE and its polls over, a LOST one after 8,000 ticks; and the deadline of a ticket is noted
for the commit. PROGRAM_ENTRY and tree service (R130, R132, R143, R150, R153, R192, R231, R234, R237): a program begins with cleared
registers at its first instruction; the poll of a hub that returns NAK falls due again TREE_POLL ticks on; the record of a ticket
that is not outstanding is discarded and counted; the setup stage of an enumeration's request is answered by its next stage; and a
hub port whose wait is over joins the service list with its PORT_SET RESET. In it log entries 86, 87 and 126 are the model's choice. -/
def Obligations.IdentifiersTicketsAndPrograms : Prop :=
  (∀ (s : State) (d : DevId) (i : CtxIdx),
     let released (t : State) : Prop :=
       t.dev d.toNat = { st := .quarantine, base := BitVec.setWidth 23 s.tick.n } ∧ t.devXAt d.toNat = {} ∧
       (∀ k ∈ s.ctxsOf d.toNat, t.ctx k = {}) ∧ (∀ k, k ∉ s.ctxsOf d.toNat → t.ctx k = s.ctx k) ∧
       (∀ k, k ≠ d.toNat → t.dev k = s.dev k) ∧ (∀ x ∈ (t.tree (s.ep0 d.toNat).port.toNat).polls, x.dev ≠ d) ∧
       (∀ k, k ≠ (s.ep0 d.toNat).port.toNat → t.tree k = s.tree k) ∧
       { t with ctxs := s.ctxs, devs := s.devs, devX := s.devX, bridges := s.bridges, trees := s.trees } = s
     (s.working = true → (s.comDevX d.toNat).leaving = true → s.noWork d.toNat = true → s.noCompletion d.toNat = true →
       Does (.deviceRelease d) s released) ∧
     ((s.comDevX d.toNat).leaving = false → exec (.deviceRelease d) s = .next s) ∧
     (∀ n, s.working = true → (s.devXAt d.toNat).lostAt = some n → (s.dev d.toNat).st = .lost → n.toNat + 8000 ≤ s.now →
       Does (.lostIdRelease d) s released) ∧
     (∀ n, (s.devXAt d.toNat).lostAt = some n → s.now < n.toNat + 8000 → exec (.lostIdRelease d) s = .next s) ∧
     (s.working = true → (s.ctx i.toNat).tktValid = true → (s.ctx i.toNat).tktDeadline.toNat ≤ s.now →
       s.works (s.ctx i.toNat).slice.toNat = true → i ∉ s.timeouts →
       Does (.deferTimeout i) s (fun t => t.timeouts = s.timeouts ++ [i] ∧ { t with timeouts := s.timeouts } = s)) ∧
     (s.now < (s.ctx i.toNat).tktDeadline.toNat → exec (.deferTimeout i) s = .next s)) ∧
  (∀ (s : State) (p : Port) (k : BitVec 3) (g : Prog) (q : Poll) (r : TicketRec) (i : Nat) (h : HubReset) (xs : List RxPkt) (cyc : Cycle),
     let c := s.ctx (s.pollCtx q)
     let sent (pks : List (List Byte)) : Nat := s.sentBy p.toNat (s.shuttle p.toNat).treeAt pks
     let serves (x : TreeItem) : Prop :=
       s.treeRuns p.toNat = true ∧ s.noticeDue p.toNat = false ∧ (s.treeItems p.toNat).head? = some x ∧ s.treeFits p.toNat x = true ∧
       xs ≠ [] ∧ s.inTime p.toNat (sent (attemptPackets (s.itemCtx p.toNat x) x.req x.form)) cyc.toNat xs = true
     let replies (x : TreeItem) (a : Reply) : Prop :=
       s.replyOf p.toNat (x.form.sheaf (s.itemSizes p.toNat x).2.2) xs = a
     let onlyTree (t : State) : Prop :=
       OnlyLine s t p ∧ (∀ j, j ≠ p.toNat → t.shuttle j = s.shuttle j) ∧
       { t with trees := s.trees, enums := s.enums, ctxs := s.ctxs, out := s.out, ports := s.ports, shuttles := s.shuttles
                traffic := s.traffic, probes := s.probes } = s
     ((s.schedAt p.toNat).progs.find k.toNat = some g → g.code ≠ [] → s.working = true → s.domOn (if p.toNat < 8 then 3 else 4) = true →
       s.works g.slice.toNat = true → (s.thread p.toNat).running = false → (s.thread p.toNat).cycle ≤ s.entryOf p.toNat k.toNat →
       Does (.programEntry p k) s (fun t =>
         OnlyThread s t (.loom p) { running := true, code := g.code, cycle := s.entryOf p.toNat k.toNat, slice := g.slice
                                    period := g.period, seg := k, pc := 0, g := [], p := 0, cx := none, loops := [] })) ∧
     ((s.enum p.toNat).step = .idle → (s.enum p.toNat).waiting = [] → serves (.poll q) →
       (replies (.poll q) .nak →
         Does (.treeService p xs cyc) s (fun t =>
           (t.tree p.toNat).polls = (s.tree p.toNat).polls.map (fun x => if x.dev = q.dev ∧ x.ep = q.ep then
             { x with due := s.tick.n + BitVec.ofNat 48 (s.schedAt p.toNat).treePoll.toNat, carried := false } else x) ∧
           (t.tree p.toNat).service = (s.tree p.toNat).service ∧ OnLine s t p [token ptIn c c.seq 0] ∧
           t.ctx (s.pollCtx q) = { c with nakRun := satInc c.nakRun, lastSvc := s.tick.n } ∧
           (∀ j, j ≠ p.toNat → t.tree j = s.tree j) ∧ t.enums = s.enums ∧ onlyTree t)) ∧
       (∀ pk, replies (.poll q) (.sheaf [pk] false false) → q.ep = 2 → pk.seq = c.seq → pk.data.length = 8 → recordOf pk.data = r →
         s.ctxOfHandle (handleOf r.dev.toNat r.ep.toNat) = some i → i ≠ s.pollCtx q →
         ((s.ctx i).tktValid = false ∨ (s.ctx i).ticket ≠ r.ticket) →
         Does (.treeService p xs cyc) s (fun t =>
           t.ctx i = { s.ctx i with late := satInc (s.ctx i).late } ∧ t.cplPend = s.cplPend ∧ t.queues = s.queues ∧
           OnLine s t p [token ptIn c c.seq 0, ackPacket (c.seq + 1)] ∧ t.enums = s.enums ∧ onlyTree t))) ∧
     (∀ x next, (s.enum p.toNat).step ≠ .idle → s.stageCost p.toNat ≤ s.leadRoom p.toNat → x.stage = .setup → serves (.enumerate x) →
       replies (.enumerate x) (.ack next) →
       Does (.treeService p xs cyc) s (fun t =>
         t.enum p.toNat = { s.enum p.toNat with x := some { x with stage := if x.len = 0 then .status else .data } } ∧
         (∀ j, j ≠ p.toNat → t.enum j = s.enum j) ∧
         OnLine s t p [token ptSetup (s.enumCtx p.toNat) (s.enumCtx p.toNat).tag 0, dataPacket 0 true x.req] ∧
         t.trees = s.trees ∧ onlyTree t)) ∧
     (s.treeRuns p.toNat = false → exec (.treeService p xs cyc) s = .next s) ∧
     ((s.tree p.toNat).resets.find? (fun x => decide (x.due.toNat ≤ s.now)) = some h → s.working = true →
       Does (.hubPortResetDue p) s (fun t =>
         (∀ x ∈ (t.tree p.toNat).resets, x ≠ h) ∧
         ({ hub := h.hub, port := h.port, todo := [.reset] } : HubSvc) ∈ (t.tree p.toNat).service ∧
         (∀ v ∈ (s.tree p.toNat).service, v ∈ (t.tree p.toNat).service) ∧
         (∀ j, j ≠ p.toNat → t.tree j = s.tree j) ∧ { t with trees := s.trees } = s)) ∧
     (∀ v : HubSvc, (svcReq v .reset).bytes = [0x52, 0x80 + BitVec.setWidth 8 v.port, 0x20, 0, 0, 2, 0, 0]))

/-! ## Admin commands (08 R286, R289) -/

/-- Every admin command takes its turn (R286, R289, R357, R380): it does nothing unless it is the command at the head of its slice's admin
queue, the slice's work runs and the tick goes on; and one that only S0 may give completes NOT_PERMITTED for any other slice, with no
other effect. In it log entry 82 is the model's choice. -/
def Obligations.AdminCommandsTakeTurns : Prop :=
  ∀ (c : Instr) (sl : Slice) (op : Nat) (s0 : Bool), adminOp c = some (sl, op, s0) →
    (∀ s : State, (∀ e, ¬AdminRuns s sl op e) → exec c s = .next s) ∧
    (∀ (s : State) (e : Entry), s0 = true → sl ≠ 0 → AdminRuns s sl op e → OnlyCompletes c s sl e 0x11 0 0)

/-- The commands on endpoints and devices (R164, R165, R177, R289): ticket timeout, pins and their limit, address plan, the reading of a
device, the reset of a segment at a root port, and the statuses of a handle without a device and of another slice's. In it log entries 43
and 44 are the model's choice. -/
def Obligations.EndpointCommands : Prop :=
  ∀ (s : State) (sl : Slice) (e : Entry) (i : Nat),
    let h := e.handle
    let mine : Prop := s.ctxOfHandle h = some i ∧ (s.dev (h / 16)).slice = sl
    let only (t : State) : Prop := OtherQueues s t sl ∧ (∀ k, k ≠ i → t.ctx k = s.ctx k)
    (AdminRuns s sl 0x30 e → mine → Completes (.setTktTimeout sl) s sl e 0 0 0 (fun t =>
      t.ctx i = { s.ctx i with tktTimeout := BitVec.ofNat 32 (e.q1.toNat / 2 ^ 32) } ∧ only t ∧
      { t with ctxs := s.ctxs, queues := s.queues, cplPend := s.cplPend, raised := s.raised } = s)) ∧
    (AdminRuns s sl 0x32 e → mine → s.pinAt h = none → s.pinFull sl.toNat i = false → Completes (.pin sl) s sl e 0 0 0 (fun t =>
      t.ctx i = { s.ctx i with pin := true } ∧ t.pinAt h = some sl ∧ (∀ k, k ≠ h → t.pinAt k = s.pinAt k) ∧ only t ∧
      { t with ctxs := s.ctxs, pins := s.pins, policy := s.policy, queues := s.queues, cplPend := s.cplPend
               raised := s.raised } = s)) ∧
    (AdminRuns s sl 0x32 e → mine → (s.ctx i).pin = false → s.pinFull sl.toNat i = true →
      OnlyCompletes (.pin sl) s sl e 0x14 0 0) ∧
    (AdminRuns s sl 0x33 e → mine → Completes (.unpin sl) s sl e 0 0 0 (fun t =>
      t.ctx i = { s.ctx i with pin := false } ∧ t.pinAt h = none ∧ (∀ k, k ≠ h → t.pinAt k = s.pinAt k) ∧ only t ∧
      { t with ctxs := s.ctxs, pins := s.pins, policy := s.policy, queues := s.queues, cplPend := s.cplPend
               raised := s.raised } = s)) ∧
    (∀ c op, ((c = .setTktTimeout sl ∧ op = 0x30) ∨ (c = .pin sl ∧ op = 0x32) ∨ (c = .unpin sl ∧ op = 0x33)) →
      AdminRuns s sl op e →
      (s.ctxOfHandle h = none → OnlyCompletes c s sl e 0x08 0 0) ∧
      (s.ctxOfHandle h = some i → (s.dev (h / 16)).slice ≠ sl → OnlyCompletes c s sl e 0x11 0 0)) ∧
    (∀ p n, fld e.q1 63 59 = p → fld e.q1 58 56 = n → p ≤ 16 → n ≤ 5 →
      s.routeOwner p (hopsOf n (fld e.q1 55 31)) = sl.toNat → AdminRuns s sl 0x31 e →
      Completes (.setAddrPlan sl) s sl e 0 0 0 (fun t =>
        t.planAt (planKey sl.toNat (routeKey p (hopsOf n (fld e.q1 55 31)))) = (if e.q1.getLsbD 30 then none else some (BitVec.setWidth 19 e.q1)) ∧
        (∀ k, k ≠ planKey sl.toNat (routeKey p (hopsOf n (fld e.q1 55 31))) → t.planAt k = s.planAt k) ∧ OtherQueues s t sl ∧
        { t with plan := s.plan, queues := s.queues, cplPend := s.cplPend, raised := s.raised } = s)) ∧
    (AdminRuns s sl 0x34 e → s.ctxOfHandle (h / 16 * 16) = some i → (s.dev (h / 16)).slice = sl →
      Completes (.readDevice sl) s sl e 0 0 0 (fun t =>
        t.wordsPend = s.wordsPend ++ [(sl, e.q2, wordBytes ((s.comDev (h / 16)).word ::
          ((List.range ((s.comDev (h / 16)).nep.toNat + 1)).map (fun k =>
            (s.comCtx ((s.comDev (h / 16)).base.toNat + k)).words)).flatten))] ∧ OtherQueues s t sl ∧
        { t with wordsPend := s.wordsPend, queues := s.queues, cplPend := s.cplPend, raised := s.raised } = s)) ∧
    (AdminRuns s sl 0x35 e → s.ctxOfHandle (h / 16 * 16) = some i → (s.routeOfDev (h / 16)).hops = [] →
      s.routeOwner (s.routeOfDev (h / 16)).port.toNat [] = sl.toNat →
      Completes (.resetSegment sl) s sl e 0 0 0 (fun t =>
        (t.port (s.routeOfDev (h / 16)).port.toNat).cmds =
          (s.port (s.routeOfDev (h / 16)).port.toNat).cmds ++ [(sl.toNat, .reset)] ∧
        (∀ k, k ≠ (s.routeOfDev (h / 16)).port.toNat → t.port k = s.port k) ∧ OtherQueues s t sl ∧
        { t with ports := s.ports, queues := s.queues, cplPend := s.cplPend, raised := s.raised } = s))

/-! ## Coresh (06) -/

/-- The hard-wired registers and the passing of an instruction (R189, R192, R193, R198): g0 reads 0 and keeps nothing, p0 holds and
keeps its value; an instruction that passes goes to the next, back to the body of the innermost open loop, or ends the run. -/
def Obligations.RegistersAndPassing : Prop :=
  (∀ (x : Thread) (r q : Reg) (v : W32) (i j : Pred) (b : Bool),
     x.reg 0 = 0 ∧ x.setReg 0 v = x ∧ (r ≠ 0 → (x.setReg r v).reg r = v) ∧ (q ≠ r → (x.setReg r v).reg q = x.reg q) ∧
     x.pred 0 = true ∧ x.setPred 0 b = x ∧ (i ≠ 0 → (x.setPred i b).pred i = b) ∧ (j ≠ i → (x.setPred i b).pred j = x.pred j) ∧
     (x.setReg r v).pred j = x.pred j ∧ (x.setPred i b).reg r = x.reg r) ∧
  (∀ (s : State) (u : CUnit) (pc cyc : Nat) (l : LoopS) (r : List LoopS),
     (Inside (s.thread (unitKey u)) pc → OnlyThread s (s.goOn u pc cyc) u { s.thread (unitKey u) with pc := pc, cycle := cyc }) ∧
     ((s.thread (unitKey u)).loops = l :: r → pc ≠ l.last + 1 → pc < (s.thread (unitKey u)).code.length →
       OnlyThread s (s.goOn u pc cyc) u { s.thread (unitKey u) with pc := pc, cycle := cyc }) ∧
     ((s.thread (unitKey u)).loops = l :: r → pc = l.last + 1 → l.i + 1 < l.n → l.first < (s.thread (unitKey u)).code.length →
       OnlyThread s (s.goOn u pc cyc) u { (s.thread (unitKey u)).setReg l.ctr (BitVec.ofNat 32 (l.i + 1)) with
         pc := l.first, cycle := cyc + 1, loops := { l with i := l.i + 1 } :: r }) ∧
     ((s.thread (unitKey u)).loops = [l] → pc = l.last + 1 → l.n ≤ l.i + 1 → pc < (s.thread (unitKey u)).code.length →
       OnlyThread s (s.goOn u pc cyc) u { s.thread (unitKey u) with pc := pc, cycle := cyc + 1, loops := [] }) ∧
     (u.isLoom = true → (s.thread (unitKey u)).loops = [] → (s.thread (unitKey u)).code.length ≤ pc →
       OnlyThread s (s.goOn u pc cyc) u { s.thread (unitKey u) with pc := pc, cycle := cyc, running := false }))

/-- The word of an instruction and its guard (R193): OP in bits [31:26] selects the instruction, N is bit [25] and P bits [24:23]; it
executes when pP XOR N is 1, so under guard 0b000 always and under 0b100 never; where it does not execute it costs 1 cycle and has no
effect, but BR 2 cycles, and after a LOOP execution continues after its body. BR costs 2 cycles where its guard holds as well. In it log
entry 71 is the model's choice. -/
def Obligations.GuardOfAnInstruction : Prop :=
  (∀ (u : CUnit) (w w' : W32) (i i' : Instr), decodeCoresh u w = some i → decodeCoresh u w' = some i' →
    unitGuard i = some (u, { neg := w.getLsbD 25, pr := w.extractLsb' 23 2 }) ∧
    (w.extractLsb' 26 6 = w'.extractLsb' 26 6 ↔ i.ctorIdx = i'.ctorIdx)) ∧
  (∀ (x : Thread) (n : Bool) (p : Pred), x.holds { neg := n, pr := p } = (x.pred p != n) ∧
    x.holds { neg := false, pr := 0 } = true ∧ x.holds { neg := true, pr := 0 } = false) ∧
  (∀ (i : Instr) (u : CUnit) (gd : Guard) (s : State), unitGuard i = some (u, gd) → i.coreshWf = true → s.atInstr u i = true →
    (s.thread (unitKey u)).holds gd = false →
    exec i s = .next (s.goOn u ((s.thread (unitKey u)).pc + 1 + skipped i) ((s.thread (unitKey u)).cycle + failedCost i))) ∧
  (∀ (u : CUnit) (gd : Guard) (off : W16) (s : State), Ready s u (.br u gd off) gd →
    Inside (s.thread (unitKey u)) ((s.thread (unitKey u)).pc + 1 + off.toNat) → Does (.br u gd off) s (fun t =>
      OnlyThread s t u { s.thread (unitKey u) with
        pc := (s.thread (unitKey u)).pc + 1 + off.toNat, cycle := (s.thread (unitKey u)).cycle + 2 }))

/-- What keeps a Coresh instruction from its effect (R193, R226, R228): one that no unit runs stops the model by name; elsewhere, or while
a bus instruction is to write one of its registers, nothing happens; with a failed guard it takes 1 cycle, BR 2, and LOOP goes on after
its body. In it log entry 71 is the model's choice. -/
def Obligations.CoreshNotExecuted : Prop :=
  ∀ (i : Instr) (u : CUnit) (gd : Guard) (s : State), unitGuard i = some (u, gd) →
    (i.coreshWf = false → exec i s = .fault .notAdmitted) ∧
    (i.coreshWf = true → s.atInstr u i = false → exec i s = .next s) ∧
    (i.coreshWf = true → s.atInstr u i = true → (s.thread (unitKey u)).holds gd = true →
      s.regsPend (unitKey u) (coreshRegs i) = true → exec i s = .next s) ∧
    (i.coreshWf = true → s.atInstr u i = true → (s.thread (unitKey u)).holds gd = false →
      exec i s = .next (s.goOn u ((s.thread (unitKey u)).pc + 1 + skipped i) ((s.thread (unitKey u)).cycle + failedCost i)))

/-- The registers of a unit (R190), NOP and the instructions of three registers (R195): g0 reads 0, p0 reads 1, and writes to them are
ignored; arithmetic is modulo 2^32, a shift takes bits [4:0] of its amount, MUL takes 3 cycles and the others 1. In it log entry 71 is the
model's choice. -/
def Obligations.RegisterArithmetic : Prop :=
  (∀ (x : Thread) (v : W32) (b : Bool), x.reg 0 = 0 ∧ x.setReg 0 v = x ∧ x.pred 0 = true ∧ x.setPred 0 b = x) ∧
  (∀ (s : State) (u : CUnit) (gd : Guard) (d a b : Reg),
     let x := (s.thread (unitKey u)).reg a
     let y := (s.thread (unitKey u)).reg b
     Changes s u gd (.nop u gd) 1 id ∧
     Computes s u gd (.add u gd d a b) d (BitVec.ofNat 32 (x.toNat + y.toNat)) 1 ∧
     Computes s u gd (.sub u gd d a b) d (BitVec.ofInt 32 (x.toInt - y.toInt)) 1 ∧
     Computes s u gd (.and u gd d a b) d (x &&& y) 1 ∧
     Computes s u gd (.or u gd d a b) d (x ||| y) 1 ∧
     Computes s u gd (.xor u gd d a b) d (x ^^^ y) 1 ∧
     Computes s u gd (.shl u gd d a b) d (BitVec.ofNat 32 (x.toNat * 2 ^ (y.toNat % 32))) 1 ∧
     Computes s u gd (.shr u gd d a b) d (BitVec.ofNat 32 (x.toNat / 2 ^ (y.toNat % 32))) 1 ∧
     Computes s u gd (.sar u gd d a b) d (BitVec.ofInt 32 (x.toInt / 2 ^ (y.toNat % 32))) 1 ∧
     Computes s u gd (.min u gd d a b) d (BitVec.ofInt 32 (min x.toInt y.toInt)) 1 ∧
     Computes s u gd (.max u gd d a b) d (BitVec.ofInt 32 (max x.toInt y.toInt)) 1 ∧
     Computes s u gd (.mul u gd d a b) d (BitVec.ofNat 32 (x.toNat * y.toNat)) 3)

/-- The instructions with an immediate (R195): IMM15 is sign-extended by ADDI and zero-extended by the others, shifts by an immediate are
below 32, MOVI zero-extends IMM16, and MOVHI keeps the low half of gD. CMP, CMPI and PLOG (R196): the six conditions, the immediate
sign-extended, and the four functions of two predicates. In it log entry 71 is the model's choice. -/
def Obligations.ImmediatesAndPredicates : Prop :=
  (∀ (s : State) (u : CUnit) (gd : Guard) (d a : Reg) (imm : BitVec 15) (w : W16),
     let x := (s.thread (unitKey u)).reg a
     Computes s u gd (.addi u gd d a imm) d (BitVec.ofInt 32 (x.toInt + imm.toInt)) 1 ∧
     Computes s u gd (.andi u gd d a imm) d (x &&& BitVec.ofNat 32 imm.toNat) 1 ∧
     Computes s u gd (.ori u gd d a imm) d (x ||| BitVec.ofNat 32 imm.toNat) 1 ∧
     Computes s u gd (.xori u gd d a imm) d (x ^^^ BitVec.ofNat 32 imm.toNat) 1 ∧
     Computes s u gd (.shli u gd d a imm) d (BitVec.ofNat 32 (x.toNat * 2 ^ imm.toNat)) 1 ∧
     Computes s u gd (.shri u gd d a imm) d (BitVec.ofNat 32 (x.toNat / 2 ^ imm.toNat)) 1 ∧
     Computes s u gd (.movi u gd d w) d (BitVec.ofNat 32 w.toNat) 1 ∧
     Computes s u gd (.movhi u gd d w) d
       (BitVec.ofNat 32 (w.toNat * 65536 + ((s.thread (unitKey u)).reg d).toNat % 65536)) 1) ∧
  (∀ (s : State) (u : CUnit) (gd : Guard) (pd pa pb : Pred) (a b : Reg) (imm : BitVec 14),
     let th := s.thread (unitKey u)
     let x := th.reg a
     let y := th.reg b
     let sets (i : Instr) (v : Bool) : Prop := Changes s u gd i 1 (fun z => z.setPred pd v)
     sets (.cmp u gd pd 0 a b) (decide (x = y)) ∧ sets (.cmp u gd pd 1 a b) (decide (x ≠ y)) ∧
     sets (.cmp u gd pd 2 a b) (decide (x.toInt < y.toInt)) ∧ sets (.cmp u gd pd 3 a b) (decide (x.toInt ≥ y.toInt)) ∧
     sets (.cmp u gd pd 4 a b) (decide (x.toNat < y.toNat)) ∧ sets (.cmp u gd pd 5 a b) (decide (x.toNat ≥ y.toNat)) ∧
     sets (.cmpi u gd pd 0 a imm) (decide (x.toInt = imm.toInt)) ∧ sets (.cmpi u gd pd 1 a imm) (decide (x.toInt ≠ imm.toInt)) ∧
     sets (.cmpi u gd pd 2 a imm) (decide (x.toInt < imm.toInt)) ∧ sets (.cmpi u gd pd 3 a imm) (decide (x.toInt ≥ imm.toInt)) ∧
     sets (.cmpi u gd pd 4 a imm) (decide (x.toNat < (BitVec.ofInt 32 imm.toInt).toNat)) ∧
     sets (.cmpi u gd pd 5 a imm) (decide (x.toNat ≥ (BitVec.ofInt 32 imm.toInt).toNat)) ∧
     sets (.plog u gd pd pa pb 0) (th.pred pa && th.pred pb) ∧ sets (.plog u gd pd pa pb 1) (th.pred pa || th.pred pb) ∧
     sets (.plog u gd pd pa pb 2) (th.pred pa != th.pred pb) ∧ sets (.plog u gd pd pa pb 3) (th.pred pa && !th.pred pb) ∧
     sets (.plog u gd pd 0 pb 3) (!th.pred pb) ∧
     (∀ c : BitVec 3, c.toNat < 6 → Changes s u gd (.cmp u gd 0 c a b) 1 id ∧ Changes s u gd (.cmpi u gd 0 c a imm) 1 id) ∧
     (∀ fn, Changes s u gd (.plog u gd 0 pa pb fn) 1 id) ∧
     (∀ c : BitVec 3, 6 ≤ c.toNat → (∀ w, decodeCoresh u w ≠ some (.cmp u gd pd c a b) ∧ decodeCoresh u w ≠ some (.cmpi u gd pd c a imm)) ∧
       exec (.cmp u gd pd c a b) s = .fault .notAdmitted ∧ exec (.cmpi u gd pd c a imm) s = .fault .notAdmitted))

/-- RDS (R197): the special values of looms and steward cores. The operators of a steward core on its registers (R203, R219, R220): SNAP,
BOUND with a pair of the slice as committed, EMA, and state words of the running task by LDC and STC. In it log entry 71 is the model's
choice. -/
def Obligations.SpecialAndStewardValues : Prop :=
  (∀ (s : State) (u : CUnit) (p : Port) (c : Core) (gd : Guard) (d : Reg),
     let th := s.thread (unitKey u)
     Computes s u gd (.rds u gd d 0) d (BitVec.ofNat 32 (s.tick.n.toNat % 2 ^ th.period)) 1 ∧
     Computes s u gd (.rds u gd d 1) d (BitVec.ofNat 32 s.tick.n.toNat) 1 ∧
     Computes s u gd (.rds u gd d 2) d (BitVec.ofNat 32 (startOf s u (.rds u gd d 2))) 1 ∧
     Computes s (.loom p) gd (.rds (.loom p) gd d 3) d (speedCode (s.port p.toNat).speed) 1 ∧
     Computes s u gd (.rds u gd d 4) d (BitVec.ofNat 32 th.slice.toNat) 1 ∧
     Computes s (.loom p) gd (.rds (.loom p) gd d 5) d (BitVec.ofNat 32 p.toNat) 1 ∧
     Computes s (.core c) gd (.rds (.core c) gd d 6) d (s.thread (16 + c.toNat)).flags 1 ∧
     Computes s (.core c) gd (.rds (.core c) gd d 7) d (BitVec.ofNat 32 c.toNat) 1 ∧
     (∀ sel : BitVec 4, 8 ≤ sel.toNat → ∀ w, decodeCoresh u w ≠ some (.rds u gd d sel)) ∧
     (∀ (sel : BitVec 4) (w : W32), (sel = 6 ∨ sel = 7 → decodeCoresh (.loom p) w ≠ some (.rds (.loom p) gd d sel)) ∧
       (sel = 3 ∨ sel = 5 → decodeCoresh (.core c) w ≠ some (.rds (.core c) gd d sel)))) ∧
  (∀ (s : State) (c : Core) (gd : Guard) (d a : Reg) (item : W16) (b : BitVec 11) (k : BitVec 5) (w : BitVec 4) (lo hi : W32),
     let u := CUnit.core c
     let x := s.thread (16 + c.toNat)
     Computes s u gd (.snap c gd d item) d (s.snapshot.get 0x80000000 item.toNat) 2 ∧
     (s.boundOf x.slice.toNat b.toNat = (lo, hi) → lo.toInt ≤ hi.toInt →
       Computes s u gd (.bound c gd d a b) d (BitVec.ofInt 32 (min hi.toInt (max lo.toInt (x.reg a).toInt))) 3) ∧
     Computes s u gd (.ema c gd d a k) d (BitVec.ofInt 32 ((x.reg d).toInt + (x.reg a - x.reg d).toInt / 2 ^ k.toNat)) 2 ∧
     Computes s u gd (.ldc u gd d w false) d ((s.task x.task.toNat).words.get 0 w.toNat) 2 ∧
     (Ready s u (.stc u gd a w false) gd → Inside x (x.pc + 1) → Does (.stc u gd a w false) s (fun t =>
       (t.task x.task.toNat).words.get 0 w.toNat = x.reg a ∧
       (∀ j, j ≠ w.toNat → (t.task x.task.toNat).words.get 0 j = (s.task x.task.toNat).words.get 0 j) ∧
       (∀ j, j ≠ x.task.toNat → t.task j = s.task j) ∧ (∀ j, t.comTask j = s.comTask j) ∧
       { t with tasks := s.tasks, threads := s.threads } = s)))

/-- END, BR, LOOP and AWAIT of a loom (R192, R198 to R200): the program ends, goes on after 1 + OFF instructions, begins its body with
iteration 0 in gD, waits for a cycle, or goes on at once when its shuttle is idle and waits while it is not. Flags, masks and the end of a
task run (R192, R200, R218, R322 to R326): RAISE sets a flag and makes its task ready in the same tick when its condition holds, END keeps
the mask of the task, and AWAIT replaces mask and condition. In it log entry 71 is the model's choice. -/
def Obligations.LoomAndTaskControl : Prop :=
  (∀ (s : State) (p : Port) (gd : Guard) (d a : Reg) (n : Byte) (len : BitVec 11) (off : W16) (cyc : BitVec 14),
     let u := CUnit.loom p
     let x := s.thread p.toNat
     (Ready s u (.endRun u gd) gd → Does (.endRun u gd) s (fun t =>
       OnlyThread s t u { x with cycle := x.cycle + 1, running := false, loops := [] })) ∧
     (Ready s u (.br u gd off) gd → Inside x (x.pc + 1 + off.toNat) → Does (.br u gd off) s (fun t =>
       OnlyThread s t u { x with pc := x.pc + 1 + off.toNat, cycle := x.cycle + 2 })) ∧
     (∀ l, Ready s u (.br u gd off) gd → x.loops = [l] → x.pc + 1 + off.toNat = l.last + 1 → l.last + 1 < x.code.length →
       Does (.br u gd off) s (fun t =>
         OnlyThread s t u { x with pc := l.last + 1, cycle := x.cycle + 2, loops := [] })) ∧
     (Ready s u (.loop u gd d n len) gd → 0 < len.toNat → x.pc + 1 < x.code.length → Does (.loop u gd d n len) s (fun t =>
       OnlyThread s t u { x.setReg d 0 with
         pc := x.pc + 1, cycle := startOf s u (.loop u gd d n len) + 2
         loops := { first := x.pc + 1, last := x.pc + len.toNat, ctr := d, i := 0, n := n.toNat } :: x.loops })) ∧
     (Ready s u (.await u gd 0 a cyc) gd → Inside x (x.pc + 1) → Does (.await u gd 0 a cyc) s (fun t =>
       OnlyThread s t u { x with pc := x.pc + 1, cycle := max (startOf s u (.await u gd 0 a cyc) + 2) cyc.toNat })) ∧
     (Ready s u (.await u gd 1 a cyc) gd → (s.shuttle p.toNat).seqs = [] → Inside x (x.pc + 1) →
       Does (.await u gd 1 a cyc) s (fun t => OnlyThread s t u { x with
         pc := x.pc + 1, cycle := max (startOf s u (.await u gd 1 a cyc) + 2) (s.shuttle p.toNat).ended })) ∧
     (Ready s u (.await u gd 1 a cyc) gd → (s.shuttle p.toNat).seqs ≠ [] → exec (.await u gd 1 a cyc) s = .next s)) ∧
  (∀ (s : State) (c : Core) (gd : Guard) (a : Reg) (mode : BitVec 2) (cyc : BitVec 14) (tk : Task) (fl : BitVec 5),
     let u := CUnit.core c
     let x := s.thread (16 + c.toNat)
     (Ready s u (.raise u gd (.flag tk fl)) gd → Inside x (x.pc + 1) → (s.task tk.toNat).live = true →
       ({ s.task tk.toNat with f := setBit (s.task tk.toNat).f fl.toNat } : TaskS).ready = false →
       Does (.raise u gd (.flag tk fl)) s (fun t =>
         t.task tk.toNat = { s.task tk.toNat with f := setBit (s.task tk.toNat).f fl.toNat } ∧
         (∀ k, k ≠ tk.toNat → t.task k = s.task k) ∧ { t with tasks := s.tasks, threads := s.threads } = s)) ∧
     (Ready s u (.raise u gd (.flag tk fl)) gd → Inside x (x.pc + 1) → (s.task tk.toNat).live = true →
       ({ s.task tk.toNat with f := setBit (s.task tk.toNat).f fl.toNat } : TaskS).ready = true →
       s.taskRuns tk.toNat = false → s.hasEntry tk.toNat = false → (s.task tk.toNat).member = none →
       (s.graph (s.task tk.toNat).graph.toNat).spillMode = false →
       (s.coreAt (s.task tk.toNat).last.toNat).ready.length + (s.coreAt (s.task tk.toNat).last.toNat).policies.length < 64 →
       Does (.raise u gd (.flag tk fl)) s (fun t =>
         (t.coreAt (s.task tk.toNat).last.toNat).ready =
           (s.coreAt (s.task tk.toNat).last.toNat).ready ++
             [{ task := tk, flags := 0, place := none, since := s.now * 12500 + (startOf s u (.raise u gd (.flag tk fl)) + 2) }] ∧
         (∀ k, k ≠ (s.task tk.toNat).last.toNat → t.coreAt k = s.coreAt k) ∧ (∀ k, k ≠ tk.toNat → t.task k = s.task k) ∧
         t.task tk.toNat = { s.task tk.toNat with f := setBit (s.task tk.toNat).f fl.toNat } ∧
         { t with tasks := s.tasks, cores := s.cores, threads := s.threads, trace := s.trace, streams := s.streams
                  stwEvent := s.stwEvent } = s)) ∧
     (Ready s u (.endRun u gd) gd → (s.task x.task.toNat).ready = false → (s.task x.task.toNat).member = none →
       Does (.endRun u gd) s (fun t =>
         (t.thread (16 + c.toNat)).running = false ∧ (∀ k, t.task k = s.task k) ∧ (∀ k, k ≠ 16 + c.toNat → t.thread k = s.thread k) ∧
         { t with threads := s.threads, cores := s.cores, corePeak := s.corePeak, trace := s.trace, streams := s.streams
                  stwEvent := s.stwEvent } = s)) ∧
     (Ready s u (.await u gd mode a cyc) gd → (s.task x.task.toNat).member = none →
       ({ s.task x.task.toNat with m := x.reg a, all := mode == 3 } : TaskS).ready = false →
       Does (.await u gd mode a cyc) s (fun t =>
         (t.thread (16 + c.toNat)).running = false ∧
         t.task x.task.toNat = { s.task x.task.toNat with m := x.reg a, all := mode == 3 } ∧
         (∀ k, k ≠ x.task.toNat → t.task k = s.task k) ∧ (∀ k, k ≠ 16 + c.toNat → t.thread k = s.thread k) ∧
         { t with threads := s.threads, cores := s.cores, corePeak := s.corePeak, tasks := s.tasks, trace := s.trace
                  streams := s.streams, stwEvent := s.stwEvent } = s)))

/-- The context pointer and contexts on a loom (R163, R201, R202, R218): SELC and SELCR, LDC of half a word of the context at cx as the
tick has it, STC into SCRATCH and TKT_TIMEOUT alone, none of it in a context that is FREE, and RAISE of an event record. In it log entry
71 is the model's choice. -/
def Obligations.ContextInstructions : Prop :=
  ∀ (s : State) (p : Port) (gd : Guard) (i : CtxIdx) (off : W16) (d a : Reg) (w : BitVec 4) (code : Byte),
    let u := CUnit.loom p
    let x := s.thread p.toNat
    Changes s u noGuard (.selc p i) 2 (fun z => { z with cx := some i }) ∧
    (x.cx = some i → Changes s u gd (.selcr p gd off) 2 (fun z => { z with cx := some (i + BitVec.signExtend 23 off) })) ∧
    (x.cx = some i → s.ctxPend p.toNat i.toNat = true → Ready s u (.ldc u gd d w false) gd →
      exec (.ldc u gd d w false) s = .next s) ∧
    (x.cx = some i → s.ctxPend p.toNat i.toNat = false → x.ready = [] → (s.ctx i.toNat).st ≠ .free →
      Computes s u gd (.ldc u gd d w false) d (BitVec.ofNat 32 ((s.ctx i.toNat).word w.toNat).toNat) 2 ∧
      Computes s u gd (.ldc u gd d w true) d (BitVec.ofNat 32 (((s.ctx i.toNat).word w.toNat).toNat / 2 ^ 32)) 2) ∧
    (x.cx = some i → s.ctxPend p.toNat i.toNat = false → x.ready = [] → (s.ctx i.toNat).st = .free →
      Computes s u gd (.ldc u gd d w false) d 0 2) ∧
    (x.cx = some i → (s.ctx i.toNat).st ≠ .free → Inside x (x.pc + 1) →
      (Ready s u (.stc u gd a 2 true) gd → Does (.stc u gd a 2 true) s (fun t =>
        t.ctx i.toNat = { s.ctx i.toNat with tktTimeout := x.reg a } ∧ (∀ k, k ≠ i.toNat → t.ctx k = s.ctx k) ∧
        (∀ k, t.comCtx k = s.comCtx k) ∧ { t with ctxs := s.ctxs, threads := s.threads } = s)) ∧
      (Ready s u (.stc u gd a 7 false) gd → Does (.stc u gd a 7 false) s (fun t =>
        t.ctx i.toNat = { s.ctx i.toNat with
          scratch := BitVec.ofNat 64 ((s.ctx i.toNat).scratch.toNat / 2 ^ 32 * 2 ^ 32 + (x.reg a).toNat) } ∧
        (∀ k, k ≠ i.toNat → t.ctx k = s.ctx k) ∧ { t with ctxs := s.ctxs, threads := s.threads } = s))) ∧
    (x.cx = some i → (s.ctx i.toNat).st = .free → Inside x (x.pc + 1) → Ready s u (.stc u gd a 7 true) gd →
      Does (.stc u gd a 7 true) s (fun t => (∀ k, t.ctx k = s.ctx k) ∧ { t with ctxs := s.ctxs, threads := s.threads } = s)) ∧
    (x.cx = some i → Inside x (x.pc + 1) → Ready s u (.raise u gd (.event code a)) gd →
      Does (.raise u gd (.event code a)) s (fun t =>
        t.raised = s.raised ++ [{ src := srcKey x.slice.toNat 15 code.toNat, keep := false
                                  payload := BitVec.ofNat 64 ((s.ctx i.toNat).handle.toNat * 2 ^ 32 + (x.reg a).toNat) }] ∧
        { t with raised := s.raised, threads := s.threads } = s))

/-- What a steward core does beyond its registers (R221, R222, R329): ACT leaves a clamped pending decision, TIMER arms one timer of its
pair, which no other core then holds, FLOW emits at the place of the run, and TRACE writes a record that is not rolled back. In it log entries 71 and 92 are the model's
choice. -/
def Obligations.StewardActions : Prop :=
  ∀ (s : State) (c : Core) (gd : Guard) (a : Reg) (actr : BitVec 15) (tk : Task) (fl : BitVec 5) (f : Flow) (pl : W32),
    let u := CUnit.core c
    let x := s.thread (16 + c.toNat)
    Inside x (x.pc + 1) →
    (Ready s u (.act c gd a actr) gd →
      (∀ e ∈ s.decisions, ¬(e.actr = actr ∧ (actr.toNat < 0x300 ∨ e.slice = x.slice))) → Does (.act c gd a actr) s (fun t =>
      t.decisions = s.decisions ++ [{ actr := actr, core := c, task := x.task, slice := x.slice
                                      val := clamp (s.actBoundOf x.slice.toNat actr.toNat).1
                                        (s.actBoundOf x.slice.toNat actr.toNat).2 (x.reg a) }] ∧
      { t with decisions := s.decisions, threads := s.threads, trace := s.trace, streams := s.streams, stwEvent := s.stwEvent } = s)) ∧
    (Ready s u (.timer c gd tk fl a) gd → Does (.timer c gd tk fl a) s (fun t =>
      (∀ z : TimerS, z ∈ (t.coreAt (s.task tk.toNat).home.toNat).timers ↔
        z = { task := tk, flag := fl, deadline := s.tick.n + BitVec.ofNat 48 (max 1 (x.reg a).toNat) } ∨
        (z ∈ (s.coreAt (s.task tk.toNat).home.toNat).timers ∧ ¬(z.task = tk ∧ z.flag = fl))) ∧
      (∀ k, k < 4 → k ≠ (s.task tk.toNat).home.toNat → t.coreAt k = { s.coreAt k with
        timers := (s.coreAt k).timers.filter (fun z => !(z.task == tk && z.flag == fl)) }) ∧
      (∀ k, 4 ≤ k → t.coreAt k = s.coreAt k) ∧
      { t with cores := s.cores, threads := s.threads } = s)) ∧
    (Ready s u (.flow c gd f a) gd → x.place = some pl → (s.task x.task.toNat).member = some f → Does (.flow c gd f a) s (fun t =>
      t.flowAt f.toNat = { s.flowAt f.toNat with vals := (s.flowAt f.toNat).vals ++ [(pl, x.reg a)] } ∧
      (∀ k, k ≠ f.toNat → t.flowAt k = s.flowAt k) ∧ { t with flows := s.flows, threads := s.threads } = s)) ∧
    (Ready s u (.trace c gd a) gd → s.trace.length < 8192 → Does (.trace c gd a) s (fun t =>
      t.trace = s.trace ++ [{ tick := BitVec.setWidth 32 s.tick.n, cycle := BitVec.ofNat 14 (startOf s u (.trace c gd a) + 2), core := c
                              kind := 12, task := x.task, slice := x.slice, arg := 0, cause := 0, val := x.reg a }] ∧
      { t with trace := s.trace, streams := s.streams, stwEvent := s.stwEvent, threads := s.threads } = s))

/-- The checks before a bus instruction sends (R204): in their order, each with its outcome. What a bus instruction sends (R209 to R214):
POLL asks for one packet, TAKE and GIVE for at most CNT + 1 of what remains, SETUP for the next stage of its control transfer, DEFER
posts, sends the data of a control write, collects a record or, with a ticket outstanding, nothing, also in the tick in which its record
arrives (R152). In it log entry 83 is the model's choice. -/
def Obligations.ChecksAndAttempts : Prop :=
  (∀ (s : State) (p i : Nat) (k : WKind) (weft : Bool),
     let c := s.ctx i
     let x := s.transferOf i
     let wrong : Bool := decide (c.port.toNat ≠ p) || s.offCharge p i weft || !kindSuits k c || stageWrong k c x
     let dead : Bool := (decide (c.st ≠ .active) && decide (c.st ≠ .halted)) || decide ((s.port p).st ≠ .active)
     (wrong = true → s.wireCheck p k i weft = some 0xC) ∧
     (wrong = false → dead = true → s.wireCheck p k i weft = some 0xB) ∧
     (wrong = false → dead = false → c.st = .halted → s.wireCheck p k i weft = some 0xA) ∧
     (wrong = false → dead = false → c.st ≠ .halted → kindNeeds k c = true → x = none → s.wireCheck p k i weft = some 0x8) ∧
     (wrong = false → dead = false → c.st ≠ .halted → (kindNeeds k c = true → x ≠ none) → s.wireCheck p k i weft = none)) ∧
  (∀ (s : State) (i q n : Nat) (e : Entry),
     let c := s.ctx i
     let k := max 1 (min (n + 1) ((c.remain.toNat + c.mps.toNat - 1) / max 1 c.mps.toNat))
     let plain : Bool := (s.recordIn c.slice.toNat q e).isNone && !c.tktValid && !(s.comCtx i).tktValid && e.record.isNone
     s.planWire .poll i n = some (.inSheaf 1) ∧ s.planWire .ping i n = some .ping ∧
     (s.transferOf i = some (q, e) →
       s.planWire .take i n = some (.inSheaf k) ∧
       s.planWire .give i n = some (.outSheaf (chunks c.mps.toNat k (e.data.drop c.moved.toNat))) ∧
       (e.stage = .setup → s.planWire .setup i n = some .setupStage) ∧
       (e.stage = .data → setupIn e.q3 = true → s.planWire .setup i n = some (.inSheaf k)) ∧
       (e.stage = .data → setupIn e.q3 = false →
         s.planWire .setup i n = some (.outSheaf (chunks c.mps.toNat k (e.data.drop c.moved.toNat)))) ∧
       (e.stage = .status → setupIn e.q3 = true → setupLength e.q3 ≠ 0 → s.planWire .setup i n = some .statusOut) ∧
       (e.stage = .status → (setupIn e.q3 = false ∨ setupLength e.q3 = 0) → s.planWire .setup i n = some .statusIn) ∧
       (plain = true → c.typ = 0 → s.planWire .defer i n = some .setupStage) ∧
       (plain = true → c.typ ≠ 0 → c.dirIn = true → s.planWire .defer i n = some (.inSheaf k)) ∧
       (plain = true → c.typ ≠ 0 → c.dirIn = false →
         s.planWire .defer i n = some (.outSheaf (chunks c.mps.toNat k (e.data.drop c.moved.toNat)))) ∧
       (∀ r, s.recordIn c.slice.toNat q e = some r → s.planWire .defer i n = some (.inSheaf
         (max 1 (min (n + 1) ((r.len.toNat - e.stageDone + c.mps.toNat - 1) / max 1 c.mps.toNat))))) ∧
       (s.recordIn c.slice.toNat q e = none → c.typ ≠ 0 → (c.tktValid = true ∨ (s.comCtx i).tktValid = true) →
         s.planWire .defer i n = none)))

/-- The bus instructions of a transfer (R205, R209 to R214, R226): each starts its wire sequence on the context at cx with the attempt
that its context and transfer call for, and ends at once where R204 ends it or where cx is null. In it log entry 71 is the model's choice. -/
def Obligations.BusInstructionsSend : Prop :=
  ∀ (s : State) (p : Port) (gd : Guard) (d e : Reg) (cnt : BitVec 3) (rty : BitVec 2) (cx : CtxIdx) (a : Attempt),
    (∀ (i : Instr) (k : WKind) (g : Reg) (n r cost : Nat),
      ((i = .poll p gd d 0 0 e ∧ k = .poll ∧ g = e ∧ n = 0 ∧ r = 0 ∧ cost = 40) ∨
        (i = .take p gd d cnt rty e ∧ k = .take ∧ g = 0 ∧ n = cnt.toNat ∧ r = rty.toNat ∧ cost = 40 + 8 * cnt.toNat) ∨
        (i = .give p gd d cnt rty e ∧ k = .give ∧ g = 0 ∧ n = cnt.toNat ∧ r = rty.toNat ∧ cost = 40 + 8 * cnt.toNat) ∨
        (i = .setup p gd d cnt rty e ∧ k = .setup ∧ g = 0 ∧ n = cnt.toNat ∧ r = rty.toNat ∧ cost = 40 + 8 * cnt.toNat) ∨
        (i = .ping p gd d 0 0 e ∧ k = .ping ∧ g = 0 ∧ n = 0 ∧ r = 0 ∧ cost = 40) ∨
        (i = .defer p gd d cnt rty e ∧ k = .defer ∧ g = 0 ∧ n = cnt.toNat ∧ r = rty.toNat ∧ cost = 40 + 8 * cnt.toNat)) →
      OnIdleShuttle s p i gd cx →
      (s.wireCheck p.toNat k cx.toNat false = none → s.planWire k cx.toNat n = some a →
        Sends s p i cx cost { kind := k, ctx := cx, d := d, e := g, cnt := n, retries := r, form := a }) ∧
      (∀ o, k ≠ .poll → s.wireCheck p.toNat k cx.toNat false = some o → o < 16 → EndsUnsent s p i d o) ∧
      (k ≠ .poll → s.wireCheck p.toNat k cx.toNat false = none → s.planWire k cx.toNat n = none → EndsUnsent s p i d 0x9)) ∧
    (∀ (i : Instr), (i = .take p gd d cnt rty e ∨ i = .give p gd d cnt rty e ∨ i = .setup p gd d cnt rty e ∨
        i = .ping p gd d 0 0 e ∨ i = .defer p gd d cnt rty e ∨ i = .poll p gd d 0 0 e) →
      Ready s (.loom p) i gd → (s.shuttle p.toNat).seqs = [] → (s.thread p.toNat).cx = none →
      Inside (s.thread p.toNat) ((s.thread p.toNat).pc + 1) → EndsUnsent s p i d 0xC)

/-- SUSPEND, RESUME, PROBE and WEAVE (R215 to R217): the command for the segment of a device at a root port waits for the commit and the
result is DONE, or NOT_ACTIVE where it does not apply; a probe slot begins on the shuttle and sends nothing; a WEAVE issues the first transaction that
fits, the next in its order, and with nothing to draw it ends at cycle VAL with the number of its transactions. In it log entries 41, 42 and 71 are the model's choice. -/
def Obligations.SegmentProbeWeave : Prop :=
  ∀ (s : State) (p : Port) (gd : Guard) (d e : Reg) (v : BitVec 14) (cx : CtxIdx),
    let x := s.thread p.toNat
    let here : Prop := (s.ctx cx.toNat).port.toNat = p.toNat ∧ s.offCharge p.toNat cx.toNat false = false ∧
      (s.ctx cx.toNat).deferred = false ∧ (s.ctx cx.toNat).st = .active ∧ (s.ctx cx.toNat).depth = 0
    (OnIdleShuttle s p (.suspend p gd d 0 0 e) gd cx → here → (s.port p.toNat).st = .active →
      Does (.suspend p gd d 0 0 e) s (fun t =>
        (∀ r, (t.thread p.toNat).reg r = if r = d then 0 else x.reg r) ∧
        t.port p.toNat = { s.port p.toNat with cmds := (s.port p.toNat).cmds ++ [(x.slice.toNat, .suspend)] } ∧
        (∀ k, k ≠ p.toNat → t.port k = s.port k ∧ t.thread k = s.thread k) ∧
        { t with threads := s.threads, ports := s.ports, cache := s.cache } = s)) ∧
    (OnIdleShuttle s p (.suspend p gd d 0 0 e) gd cx → here → (s.port p.toNat).st ≠ .active →
      EndsUnsent s p (.suspend p gd d 0 0 e) d 0xB) ∧
    (OnIdleShuttle s p (.resume p gd d 0 0 e) gd cx → here →
      ((s.port p.toNat).st = .suspending ∨ (s.port p.toNat).st = .suspended) →
      Does (.resume p gd d 0 0 e) s (fun t =>
        (∀ r, (t.thread p.toNat).reg r = if r = d then 0 else x.reg r) ∧
        t.port p.toNat = { s.port p.toNat with cmds := (s.port p.toNat).cmds ++ [(x.slice.toNat, .resume)] } ∧
        (∀ k, k ≠ p.toNat → t.port k = s.port k ∧ t.thread k = s.thread k) ∧
        { t with threads := s.threads, ports := s.ports, cache := s.cache } = s)) ∧
    (Ready s (.loom p) (.probe p gd d v) gd → (s.shuttle p.toNat).seqs = [] → s.noticeDue p.toNat = false → s.domOn 10 = true →
      Inside x (x.pc + 1) →
      Does (.probe p gd d v) s (fun t =>
        (t.shuttle p.toNat).seqs.map (fun q => (q.kind, q.form, q.started)) = [(.probe v.toNat, .slot, true)] ∧
        t.out = s.out ∧ (t.thread p.toNat).pc = x.pc + 1 ∧ (∀ r, (t.thread p.toNat).reg r = x.reg r) ∧
        (∀ k, k ≠ p.toNat → t.shuttle k = s.shuttle k ∧ t.thread k = s.thread k) ∧
        { t with threads := s.threads, shuttles := s.shuttles } = s)) ∧
    (∀ y : State × WeftTx × Nat, Ready s (.loom p) (.weave p gd d v) gd → (s.shuttle p.toNat).seqs = [] →
      s.weaveNext p.toNat x.slice.toNat (startAt s p (startOf s (.loom p) (.weave p gd d v))) v.toNat = some y →
      s.resident y.2.1.i = true → y.2.1.i < 2 ^ 23 →
      Does (.weave p gd d v) s (fun t =>
        (t.shuttle p.toNat).seqs.map (fun q => (q.kind, q.ctx.toNat, q.cnt + 1, q.retries, q.weft, q.started)) =
          [(y.2.1.kind, y.2.1.i, max 1 y.2.2, 0, true, true)] ∧
        (t.thread p.toNat).weave = some { x.weave.getD {} with
          count := (x.weave.getD {}).count + 1, lastQ := some (BitVec.ofNat 12 y.2.1.q) } ∧
        (t.thread p.toNat).pc = x.pc ∧ (t.thread p.toNat).running = true ∧ (∀ r, (t.thread p.toNat).reg r = x.reg r) ∧
        (∀ k, k ≠ p.toNat → t.shuttle k = s.shuttle k ∧ t.thread k = s.thread k))) ∧
    (Ready s (.loom p) (.weave p gd d v) gd → (s.shuttle p.toNat).seqs = [] → Inside x (x.pc + 1) →
      (∀ t0, s.weaveNext p.toNat x.slice.toNat t0 v.toNat = none) →
      Does (.weave p gd d v) s (fun t =>
        (∀ r, (t.thread p.toNat).reg r = if r = d ∧ d ≠ 0 then BitVec.ofNat 32 ((x.weave.getD {}).count) else x.reg r) ∧
        (t.thread p.toNat).pc = x.pc + 1 ∧ v.toNat ≤ (t.thread p.toNat).cycle ∧ (t.thread p.toNat).weave = none ∧
        (∀ k, k ≠ p.toNat → t.thread k = s.thread k) ∧ { t with threads := s.threads, sched := s.sched } = s)) ∧
    (Ready s (.loom p) (.weave p gd d v) gd → (s.shuttle p.toNat).seqs ≠ [] → exec (.weave p gd d v) s = .next s)

/-- Every Coresh instruction that its unit runs has a word, and the decoder of that unit reads it back with every operand; and a word
that decodes is the word of what it decodes to, an instruction of that unit (R193 to R197). -/
def Obligations.CoreshDecodeEncode : Prop :=
  (∀ (i : Instr) (u : CUnit) (gd : Guard), unitGuard i = some (u, gd) → i.coreshWf = true →
    ∃ w, encodeCoresh i = some w ∧ decodeCoresh u w = some i) ∧
  (∀ (u : CUnit) (w : W32) (i : Instr), decodeCoresh u w = some i →
    encodeCoresh i = some w ∧ i.coreshWf = true ∧ ∃ gd, unitGuard i = some (u, gd))

/-- Words of the program of R228's example, decoded by the loom of P5, and the wire costs of R224 at Plant speed that the spec works out
for it. Packet identifiers and checks (R108, R114): the PID bytes of the table, CHK detects every error of a single bit of a PID and
every burst of up to 3 bits of TYPE followed by CHK; a port reads back, undamaged, every data packet within the payload limit and
every ACK (R107, R112, R115), and takes a packet that does not end with ED, or one that came while it was blanked, as damaged; and
the CRCs give their check values over 123456789. -/
def Obligations.WordsAndPacketIdentifiers : Prop :=
  (let u := CUnit.loom 5
   let g : Guard := { neg := false, pr := 0 }
   decodeCoresh u 0x6C00080A = some (.await u g 0 0 2058) ∧ decodeCoresh u 0x7400A061 = some (.selc 5 0xA061) ∧
   decodeCoresh u 0x84080800 = some (.poll 5 g 1 0 0 2) ∧ decodeCoresh u 0x68301805 = some (.loop u g 6 3 5) ∧
   decodeCoresh u 0x78000002 = some (.selcr 5 g 2) ∧ decodeCoresh u 0x382A0001 = some (.andi u g 5 4 1) ∧
   decodeCoresh u 0x58254000 = some (.cmpi u g 1 1 5 0) ∧
   decodeCoresh u 0x7090A000 = some (.raise u { neg := false, pr := 1 } (.event 0x21 4)) ∧
   decodeCoresh u 0x60380000 = some (.rds u g 7 0) ∧ decodeCoresh u 0x67000002 = some (.br u { neg := true, pr := 2 } 2) ∧
   decodeCoresh u 0x94400000 = some (.ping 5 g 8 0 0 0) ∧ decodeCoresh u 0x04000000 = some (.endRun u g) ∧
   wireCost .poll .plant 1 0 48 = 1913 ∧ wireCost .poll .plant 1 0 4 = 1561 ∧ wireCost .ping .plant 1 0 0 = 1417) ∧
  (([0x11, 0x12, 0x13, 0x14, 0x15, 0x08, 0x18, 0x19, 0x1A, 0x1B, 0x1C].map pid =
     [0x51, 0xF2, 0x93, 0xD4, 0xB5, 0xA8, 0x98, 0xF9, 0x5A, 0x3B, 0x7C]) ∧
   (∀ (t v : BitVec 5) (k : Fin 8), pid t ^^^ (1 <<< k.val) ≠ pid v) ∧
   (∀ (t v : BitVec 5) (k : Fin 6) (e : BitVec 3), e ≠ 0 → (t ++ pidChk t) ^^^ (e.setWidth 8 <<< k.val) ≠ v ++ pidChk v) ∧
   (∀ (sq : BitVec 4) (last : Bool) (bs : List Byte) (lim : Nat) (x : RxPkt), bs.length ≤ lim → lim ≤ 1024 →
     x.bytes = dataPacket sq last bs →
     (x.fin = .ed → decodeRx lim false x = .data { seq := sq, last := last, data := bs }) ∧
     (∀ m, m < bs.length → decodeRx m false x = .bad false) ∧
     (x.fin ≠ .ed → decodeRx lim false x = .bad false) ∧ decodeRx lim true x = .bad false) ∧
   (∀ (next : BitVec 4) (lim : Nat) (x : RxPkt), x.bytes = ackPacket next →
     (x.fin = .ed → decodeReply (decodeRx lim false) 0 none [x] = .ack next) ∧ decodeRx lim true x = .bad true) ∧
   crc16 [0x31, 0x32, 0x33, 0x34, 0x35, 0x36, 0x37, 0x38, 0x39] = 0x29B1 ∧
   crc32 [0x31, 0x32, 0x33, 0x34, 0x35, 0x36, 0x37, 0x38, 0x39] = 0xCBF43926)

/-! ## Programs, admission and switch ticks (07) -/

/-- What goes to the admission unit (R243, R244, R253, R289, R347, R352): ADMIT_WARP with its words, REGISTER_PERIODIC, SET_WEFT_MIN,
SET_PORT_SCHED, ADMIT_GRAPH, GRAPH_CTL and a WITHDRAW_PERIODIC of a registration wait there and complete later; out of range they complete
MALFORMED, and a withdrawal of no registration completes without effect. In it log entries 100 and 104 are the model's choice. -/
def Obligations.RequestsWaitForAdmission : Prop :=
  ∀ (s : State) (sl : Slice) (e : Entry) (ws : List W32) (img : List W64) (i : Nat),
    (AdminRuns s sl 0x20 e → fld e.q1 63 59 ≤ 15 → fld e.q1 55 52 ≤ 8 → e.q2.toNat % 4 = 0 → ws.length = fld e.q1 51 36 →
      Submits (.admitWarp sl ws) s sl e (ws.map (fun w => BitVec.setWidth 64 w))) ∧
    (AdminRuns s sl 0x20 e → (15 < fld e.q1 63 59 ∨ 8 < fld e.q1 55 52 ∨ e.q2.toNat % 4 ≠ 0) →
      OnlyCompletes (.admitWarp sl ws) s sl e 0x10 2 0) ∧
    (AdminRuns s sl 0x24 e → fld e.q1 63 56 ≠ 0 → s.ctxOfHandle e.handle = some i → (s.dev (e.handle / 16)).slice = sl →
      Submits (.registerPeriodic sl) s sl e []) ∧
    (AdminRuns s sl 0x25 e → (s.regPort sl.toNat e.handle).isSome = true → Submits (.withdrawPeriodic sl) s sl e []) ∧
    (AdminRuns s sl 0x25 e → s.regPort sl.toNat e.handle = none → OnlyCompletes (.withdrawPeriodic sl) s sl e 0 0 0) ∧
    (AdminRuns s sl 0x26 e → fld e.q1 63 59 ≤ 15 → fld e.q1 45 32 ≤ 12000 → Submits (.setWeftMin sl) s sl e []) ∧
    (AdminRuns s 0 0x27 e → fld e.q1 63 59 ≤ 15 → fld e.q1 45 32 ≤ 12000 → fld e.q1 31 24 ≠ 0 → e.q2.toNat % 8 = 0 →
      ws.length = 8 → segTableOk (tableOf ws) = true →
      Submits (.setPortSched 0 ws) s 0 e (ws.map (fun w => BitVec.setWidth 64 w))) ∧
    (AdminRuns s 0 0x27 e → fld e.q1 31 24 = 0 → OnlyCompletes (.setPortSched 0 ws) s 0 e 0x10 2 0) ∧
    (AdminRuns s sl 0x22 e → Submits (.admitGraph sl img) s sl e img) ∧
    (AdminRuns s sl 0x62 e → Submits (.graphCtl sl) s sl e [])

/-- Withdrawals and the unit's turn (R243, R246, R289, R349): a warp program or a graph leaves at a switch tick, the first multiple of its
period two ticks on or later; the unit takes the first request whose slice works, here a SET_WEFT_MIN where the slice has no weaver
segment (log entry 62) and a GRAPH_CTL; and a weaver program that would not differ is left. In it log entries 100, 101 and 102 are the
model's choice. -/
def Obligations.AdmissionAndWithdrawals : Prop :=
  ∀ (s : State) (sl : Slice) (e : Entry) (g : Seg) (q : Prog) (r : AdmReq) (rs : List AdmReq) (p : Port),
    let pt := fld e.q1 63 59
    let k := fld e.q1 58 56
    (AdminRuns s sl 0x21 e → pt ≤ 15 → (s.schedAt pt).changes = [] → (s.segsOf pt).find k = some g → g.slice = sl →
      g.weaver = false → (s.schedAt pt).progs.find k = some q →
      Completes (.withdrawWarp sl) s sl e 0 0 0 (fun t =>
        t.schedAt pt = { s.schedAt pt with changes := [(s.switchAt (2 ^ q.period), .remove k)] } ∧
        (∀ j, j ≠ pt → t.schedAt j = s.schedAt j) ∧ OtherQueues s t sl ∧
        { t with sched := s.sched, queues := s.queues, cplPend := s.cplPend, raised := s.raised } = s)) ∧
    (∀ n, n < 256 → (s.now + 2 + n) < 2 ^ 48 → (s.switchAt n).toNat % max 1 n = 0 ∧ s.now + 2 ≤ (s.switchAt n).toNat ∧
      (s.switchAt n).toNat < s.now + 2 + max 1 n) ∧
    (AdminRuns s sl 0x23 e → (s.graph (fld e.q1 63 52)).live = true → (s.graph (fld e.q1 63 52)).slice = sl →
      Completes (.withdrawGraph sl) s sl e 0 0 0 (fun t =>
        t.gchange = s.gchange ++ [(s.switchAt (2 ^ (s.graph (fld e.q1 63 52)).period), .withdraw (BitVec.ofNat 12 (fld e.q1 63 52)))] ∧
        OtherQueues s t sl ∧
        { t with gchanges := s.gchanges, queues := s.queues, cplPend := s.cplPend, raised := s.raised } = s)) ∧
    (AdminRuns s sl 0x23 e → (s.graph (fld e.q1 63 52)).live = false → OnlyCompletes (.withdrawGraph sl) s sl e 0x11 0 0) ∧
    (s.working = true → s.domOn 11 = true → s.admitting = r :: rs → s.works r.slice.toNat = true → r.entry.op = 0x62 →
      s.adminHolds r.slice.toNat r.entry = true → (s.graph (fld r.entry.q1 63 52)).live = true → (s.graph (fld r.entry.q1 63 52)).slice = r.slice →
      Completes .admissionComplete s r.slice r.entry 0 0 0 (fun t =>
        t.admitting = rs ∧
        t.gchange = s.gchange ++ [(s.switchAt (2 ^ (s.graph (fld r.entry.q1 63 52)).period),
          if r.entry.q1.getLsbD 51 then .stop (BitVec.ofNat 12 (fld r.entry.q1 63 52))
          else .run (BitVec.ofNat 12 (fld r.entry.q1 63 52)))] ∧
        { t with admission := s.admission, gchanges := s.gchanges, queues := s.queues, cplPend := s.cplPend
                 raised := s.raised } = s)) ∧
    (s.admitting = [] → exec .admissionComplete s = .next s) ∧
    (∀ k w old g', s.working = true → s.domOn 11 = true → s.weaverSeg p.toNat sl.toNat (s.schedAt p.toNat).later = some k →
      s.weaveProg p.toNat sl.toNat k (s.schedAt p.toNat).later 0 = w → w.prog = some g' →
      (s.schedAt p.toNat).later.progs.find k = some old → old.code = g'.code → old.slice = g'.slice → old.speed = g'.speed →
      old.named = g'.named → exec (.weaverGenerate p sl) s = .next s) ∧
    (∀ k w g', s.working = true → s.domOn 11 = true → s.weaverSeg p.toNat sl.toNat (s.schedAt p.toNat).later = some k →
      s.weaveProg p.toNat sl.toNat k (s.schedAt p.toNat).later 0 = w → w.prog = some g' →
      (s.schedAt p.toNat).later.progs.find k = none → (s.schedAt p.toNat).regs = [] → (s.schedAt p.toNat).changes = [] →
      Does (.weaverGenerate p sl) s (fun t =>
        (t.schedAt p.toNat).changes = [(s.switchAt (2 ^ g'.period), .install k g')] ∧
        (∀ j, j ≠ p.toNat → t.schedAt j = s.schedAt j) ∧ { t with sched := s.sched } = s))

/-- SWITCH_TICK (R246, R248, R349): the changes of a port that are due take effect together, in their order; of a transfer in progress the
context may be named no more, which makes it the oldest draw of its queue, or be named now, which binds it; a graph starts, runs, stops or
leaves, and one that stopped or left keeps nothing in the cores. In it log entry 108 is the model's choice. -/
def Obligations.SwitchTickChangesTogether : Prop :=
  ∀ (s : State) (p : Port) (sw : BitVec 48) (c : Change) (g : Graph),
    (s.working = true → Does (.switchTick (some p)) s (fun t =>
      ((∃ x ∈ (s.schedAt p.toNat).changes, x.1.toNat ≤ s.now) → t.schedAt p.toNat =
        { ((s.schedAt p.toNat).changes.filter (fun x => decide (x.1.toNat ≤ s.now))).foldl (fun y x => x.2.apply y) (s.schedAt p.toNat) with
          changes := (s.schedAt p.toNat).changes.filter (fun x => decide (s.now < x.1.toNat)) }) ∧
      (∀ j, j ≠ p.toNat → t.schedAt j = s.schedAt j) ∧
      (∀ k, { t.queue k with entries := (s.queue k).entries } = s.queue k) ∧
      (∀ k, (k % 4096 = 0 ∨ (s.queue k).port.toNat ≠ p.toNat) → t.queue k = s.queue k) ∧
      (∀ k e i, (∃ x ∈ (s.schedAt p.toNat).changes, x.1.toNat ≤ s.now) → k % 4096 ≠ 0 → (s.queue k).port.toNat = p.toNat →
        (s.queue k).entries = [e] → s.ctxOfHandle e.handle = some i →
        (t.queue k).entries = [
          if e.st = .bound ∧ t.warpNames p.toNat i = false then { e with st := .drawn, draw := 0 }
          else if e.st = .drawn ∧ t.warpNames p.toNat i = true then { e with st := .bound } else e]) ∧
      { t with sched := s.sched, queues := s.queues, drawn := s.drawn } = s)) ∧
    (s.working = true → (s.schedAt p.toNat).changes = [(sw, c)] → sw.toNat ≤ s.now → s.queues = [] →
      Does (.switchTick (some p)) s (fun t =>
        t.schedAt p.toNat = { c.apply (s.schedAt p.toNat) with changes := [] } ∧
        (∀ j, j ≠ p.toNat → t.schedAt j = s.schedAt j) ∧ { t with sched := s.sched } = s)) ∧
    (s.working = true → (∀ c ∈ (s.schedAt p.toNat).changes, s.now < c.1.toNat) → exec (.switchTick (some p)) s = .next s) ∧
    (s.working = true → (∀ c ∈ s.gchange, s.now < c.1.toNat) → exec (.switchTick none) s = .next s) ∧
    (s.working = true → s.gchange = [(sw, .stop g)] → sw.toNat ≤ s.now →
      Does (.switchTick none) s (fun t =>
        t.gchange = [] ∧ (t.graph g.toNat).stopped = true ∧ (t.graph g.toNat).spill = [] ∧
        (∀ k < 4, ∀ x ∈ (t.coreAt k).ready, x.task ∉ (s.graph g.toNat).tasks) ∧
        (∀ k < 4, ∀ x ∈ (t.coreAt k).timers, x.task ∉ (s.graph g.toNat).tasks) ∧ t.tasks = s.tasks ∧
        { t with gchanges := s.gchanges, graphs := s.graphs, cores := s.cores, flows := s.flows } = s)) ∧
    (s.working = true → s.gchange = [(sw, .withdraw g)] → sw.toNat ≤ s.now →
      Does (.switchTick none) s (fun t =>
        t.gchange = [] ∧ t.graph g.toNat = {} ∧ (∀ k ∈ (s.graph g.toNat).tasks, t.task k.toNat = {}) ∧
        (∀ k ∈ (s.graph g.toNat).flows, t.flowAt k.toNat = {}) ∧
        (∀ k, ∀ x ∈ (t.coreAt k).ready, x.task ∉ (s.graph g.toNat).tasks) ∧
        (∀ k, ∀ x ∈ (t.coreAt k).timers, x.task ∉ (s.graph g.toNat).tasks) ∧
        (∀ k, k ≠ g.toNat → t.graph k = s.graph k) ∧
        { t with gchanges := s.gchanges, graphs := s.graphs, cores := s.cores, flows := s.flows, tasks := s.tasks } = s)) ∧
    (s.working = true → (s.gchange = [(sw, .run g)] ∨ s.gchange = [(sw, .start g)]) → sw.toNat ≤ s.now →
      Does (.switchTick none) s (fun t => t.gchange = [] ∧ (t.graph g.toNat).stopped = false ∧
        (∀ k, k ≠ g.toNat → (t.graph k).stopped = (s.graph k).stopped) ∧ t.sched = s.sched ∧ t.queues = s.queues ∧ t.ctxs = s.ctxs))

/-! ## Work queues (08) -/

/-- Writes through a slice window (R18, R274, R292, R308, R310, R312, R319, R398, R403, R406): those of the admin queue, of a producer
index in index mode, of the event queue and of a channel of the slice are held for the commit, a value of CH_CTL unless its KILL bit is
set (R313); of a channel or queue that is not the slice's they are ignored, the latter with BAD_DB. At the commit the admin queue starts
with its fields, a producer index is shown, GO starts an IDLE channel with the next tick and STOP stops one. RECORD_WRITER_FLUSH (R9, R13,
R275): what commits of ticks before this one owe is issued as writes to the slices' hosts, in the selvage too, payload before completions
before event records, a completion not before the payload of its transfer; the consumer index is shown only when nothing of its queue is
owed, and what may not be issued stays owed. In it log entries 33 and 72 are the model's choice. -/
def Obligations.WindowWritesAndRecordWriter : Prop :=
  (∀ (s : State) (l : Link) (w : BitVec 4) (ch : Chan) (q : QNum) (k : BitVec 3) (v : W32) (sl : Slice),
     s.windowSlice l.toNat w.toNat = some sl.toNat →
     (∀ (c : Instr) (off : Nat),
       ((c = .adminCfgWrite l w v ∧ off = 0x0108) ∨ (c = .eqConsWrite l w v ∧ off = 0x0310) ∨ (c = .eqCfgWrite l w v ∧ off = 0x0308) ∨
         (c = .eqCtlWrite l w v ∧ off = 0x0314) ∨
         (c = .qprodWrite l w q v ∧ off = 0x8000 + q.toNat * 8 ∧ (s.comQueue (qKey sl.toNat q.toNat)).own = false ∧
           (q = 0 ∨ (s.comQueue (qKey sl.toNat q.toNat)).live = true)) ∨
         (s.chanOwner ch.toNat = sl.toNat ∧
           ((v.getLsbD 3 = false ∧ off = 0x4000 + ch.toNat * 0x80 + 8 ∧
               ((c = .go l w ch v ∧ v.getLsbD 0 = true) ∨ (c = .goChain l w ch v ∧ v.getLsbD 1 = true) ∨
                 (c = .stop l w ch v ∧ v.getLsbD 2 = true))) ∨
             (c = .shadowWrite l w ch k v ∧ off = 0x4000 + ch.toNat * 0x80 + (0x10 + 4 * k.toNat)) ∨
             (c = .cqConsWrite l w ch v ∧ off = 0x4000 + ch.toNat * 0x80 + 0x58)))) →
       HeldInBuffer c s l { tgt := .bar (BitVec.ofNat 21 (0x10000 + w.toNat * 0x10000 + off)), val := v, sl := some sl, warden := false }) ∧
     (s.chanOwner ch.toNat = sl.toNat → v.getLsbD 3 = true → ∀ c : Instr,
       ((c = .go l w ch v ∧ v.getLsbD 0 = true) ∨ (c = .goChain l w ch v ∧ v.getLsbD 1 = true) ∨
         (c = .stop l w ch v ∧ v.getLsbD 2 = true)) → exec c s = exec (.kill l w ch v) s) ∧
     (v.getLsbD 31 = true → (s.queue (qKey sl.toNat 0)).run = false → 3 ≤ v.toNat % 32 → v.toNat % 32 ≤ 16 →
       (s.applyWindow sl.toNat (.adminCfg w.toNat) v).queue (qKey sl.toNat 0) = { s.queue (qKey sl.toNat 0) with
         run := true, own := v.getLsbD 30, log2 := BitVec.ofNat 5 (v.toNat % 32), start := s.tick.n, prod := 0, cons := 0, fetch := 0
         interval := BitVec.ofNat 8 (max 1 (v.toNat / 2 ^ 16 % 256)), entries := [], doneAt := [], seen := []
         old := (s.queue (qKey sl.toNat 0)).old ++ (s.queue (qKey sl.toNat 0)).entries.filter (fun e => e.begun) }) ∧
     ((s.queue (qKey sl.toNat q.toNat)).own = false →
       (s.applyWindow sl.toNat (.qprod w.toNat q.toNat) v).queue (qKey sl.toNat q.toNat) =
         { s.queue (qKey sl.toNat q.toNat) with prod := BitVec.setWidth 17 v }) ∧
     (s.chanOwner ch.toNat = sl.toNat → (s.chan ch.toNat).role = .copy → (s.chan ch.toNat).st = .idle →
       (s.chan ch.toNat).starts = false → (s.chan ch.toNat).chain = none →
       (s.applyWindow sl.toNat (.chan w.toNat ch.toNat 2) 1).chan ch.toNat = { s.chan ch.toNat with
         starts := true, shadow := { (s.chan ch.toNat).shadow with addr := 0 } } ∧
       (s.applyWindow sl.toNat (.chan w.toNat ch.toNat 2) 2).chan ch.toNat = { s.chan ch.toNat with
         chain := some ((s.chan ch.toNat).shadow.w3 &&& ~~~31), armed := false } ∧
       (s.applyWindow sl.toNat (.chan w.toNat ch.toNat 2) 4).chan ch.toNat = { s.chan ch.toNat with st := .stopped } ∧
       ((s.applyWindow sl.toNat (.chan w.toNat ch.toNat 2) 4).chanXAt ch.toNat).event = setBit (s.chanXAt ch.toNat).event 4) ∧
     (s.chanOwner ch.toNat ≠ sl.toNat → exec (.go l w ch v) s = .next s ∧ exec (.stop l w ch v) s = .next s ∧
       exec (.kill l w ch v) s = .next s ∧ exec (.shadowWrite l w ch k v) s = .next s ∧ exec (.cqConsWrite l w ch v) s = .next s) ∧
     ((s.comQueue (qKey sl.toNat q.toNat)).own = true → Does (.qprodWrite l w q v) s (fun t =>
       t.qstat.get 0 sl.toNat = setBit (s.qstat.get 0 sl.toNat) 1 ∧ (∀ j, j ≠ sl.toNat → t.qstat.get 0 j = s.qstat.get 0 j) ∧
       { t with qstat := s.qstat } = s))) ∧
  (∀ (s : State) (r : Cpl),
     (s.domOn 8 = true → (s.link (s.comSlice 0).link.toNat).up = true → Does .recordWriterFlush s (fun t =>
       t.owedPay = s.owedPay.filter (fun y => !s.mayPay y) ∧
       t.owedWords = s.owedWords.filter (fun y => !s.mayIssue y.1.toNat) ∧
       t.owedCpl = s.owedCpl.filter (fun y =>
         !(s.mayIssue y.slice.toNat && s.owedPay.all (fun p => s.mayPay p || !y.of (p.slice, p.queue, p.pos)))) ∧
       t.owedEv = s.owedEv.filter (fun y => !s.mayIssue y.slice.toNat) ∧
       (∀ k ∈ s.queues.map (·.1), (∀ y ∈ t.owedCpl ++ t.due.cpl, qKey y.slice.toNat y.queue.toNat ≠ k) →
         (∀ y ∈ t.owedPay ++ t.due.pay, qKey y.slice.toNat y.queue.toNat ≠ k) → t.qcons.find k = some (s.comQueue k).cons) ∧
       (∀ k, (∃ y ∈ t.owedCpl ++ t.due.cpl, qKey y.slice.toNat y.queue.toNat = k) → t.qcons.find k = s.qcons.find k) ∧
       { t with
         out := s.out, owedPay := s.owedPay, owedWords := s.owedWords, owedCpl := s.owedCpl, owedRec := s.owedRec, owedEv := s.owedEv
         qcons := s.qcons, halves := s.halves, chans := s.chans, chanX := s.chanX, srcs := s.srcs, eqs := s.eqs, links := s.links } = s)) ∧
     (s.domOn 8 = true → (s.link (s.comSlice 0).link.toNat).up = true → (∀ k ∈ s.slices.map (·.1), (s.eq k).armed = false) →
       s.owedEv = [] → s.owedRec = [] → s.owedWords = [] → s.owedPay = [] → s.owedCpl = [r] → s.mayIssue r.slice.toNat = true →
       Does .recordWriterFlush s (fun t =>
         t.out = s.out ++ [.words (s.comSlice r.slice.toNat).link (s.pasidOf r.slice.toNat) r.addr [r.c0, r.c1, r.c2, r.c3]] ∧
         t.owedCpl = [] ∧ { t with out := s.out, owedCpl := s.owedCpl, qcons := s.qcons } = s)) ∧
     (s.domOn 8 = true → (s.link (s.comSlice 0).link.toNat).up = false → Does .recordWriterFlush s (fun t =>
       (∀ y ∈ t.owedCpl, y.slice ≠ 0) ∧ (∀ y ∈ t.owedPay, y.slice ≠ 0) ∧ (∀ y ∈ t.owedEv, y.slice ≠ 0))) ∧
     (s.domOn 8 = false → exec .recordWriterFlush s = .next s))

/-- The admin commands on queues (R264, R279, R287, R288): a new queue, new parameters, a change of RUN, the change of mode that waits for
the fetched entries and its switch, the end of a queue, and their refusals. In it log entries 20 and 21 are the model's choice. -/
def Obligations.QueueCommands : Prop :=
  ∀ (s : State) (sl : Slice) (e : Entry) (qn : QNum) (w : ModeWait),
    let q := fld e.q1 63 52
    let k := qKey sl.toNat q
    let x := s.queue k
    let others (t : State) : Prop := ∀ j, j ≠ k → j ≠ qKey sl.toNat 0 → t.queue j = s.queue j
    let frame (t : State) : Prop :=
      others t ∧ { t with queues := s.queues, cplPend := s.cplPend, raised := s.raised } = s
    (AdminRuns s sl 0x10 e → q ≠ 0 → fld e.q1 51 48 + 3 ≤ 16 → fld e.q1 46 44 ≤ 4 → e.q1.getLsbD 47 = false →
      fld e.q1 42 35 ≠ 0 → fld e.q1 18 11 ≠ 0 → fld e.q1 31 27 ≤ 16 → e.q2.toNat % 4096 = 0 → x.live = false →
      (s.queuesOf sl.toNat).length + 1 < s.queueAllowance sl.toNat → s.chanOwner (fld e.q1 26 21) = sl.toNat →
      s.portHeld sl.toNat (fld e.q1 31 27) = true → (s.chan (fld e.q1 26 21)).role = .queue →
      Completes (.createQueue sl) s sl e 0 0 0 (fun t => frame t ∧ t.queue k = {
        live := true, legacy := false, entryMax := 2 ^ fld e.q1 46 44, own := e.q1.getLsbD 43
        interval := BitVec.ofNat 8 (fld e.q1 42 35), prio := BitVec.ofNat 3 (fld e.q1 34 32), port := BitVec.ofNat 5 (fld e.q1 31 27)
        chan := BitVec.ofNat 6 (fld e.q1 26 21), cev := BitVec.ofNat 2 (fld e.q1 20 19)
        errLimit := BitVec.ofNat 8 (fld e.q1 18 11), nakLimit := BitVec.ofNat 8 (fld e.q1 10 3), base := e.q2
        log2 := BitVec.ofNat 5 (fld e.q1 51 48 + 3), run := false })) ∧
    (AdminRuns s sl 0x10 e → q = 0 → OnlyCompletes (.createQueue sl) s sl e 0x11 0 0) ∧
    (AdminRuns s sl 0x10 e → q ≠ 0 → fld e.q1 42 35 = 0 → OnlyCompletes (.createQueue sl) s sl e 0x10 2 0) ∧
    (AdminRuns s sl 0x13 e → q ≠ 0 → x.live = true → fld e.q1 42 35 ≠ 0 → fld e.q1 18 11 ≠ 0 →
      Completes (.queueSet sl) s sl e 0 0 0 (fun t => frame t ∧ t.queue k = { x with
        interval := BitVec.ofNat 8 (fld e.q1 42 35), prio := BitVec.ofNat 3 (fld e.q1 34 32), cev := BitVec.ofNat 2 (fld e.q1 20 19)
        errLimit := BitVec.ofNat 8 (fld e.q1 18 11), nakLimit := BitVec.ofNat 8 (fld e.q1 10 3), start := s.tick.n })) ∧
    (AdminRuns s sl 0x12 e → q ≠ 0 → x.live = true → x.wait = none → x.own = e.q1.getLsbD 43 →
      Completes (.queueMode sl) s sl e 0 0 0 (fun t => frame t ∧ t.queue k = { x with
        run := e.q1.getLsbD 42, start := if e.q1.getLsbD 42 = true ∧ x.run = false then s.tick.n else x.start })) ∧
    (AdminRuns s sl 0x12 e → q ≠ 0 → x.live = true → x.wait = none → x.own ≠ e.q1.getLsbD 43 →
      Does (.queueMode sl) s (fun t => others t ∧ t.cplPend = s.cplPend ∧
        t.queue k = { x with run := false, wait := some { own := e.q1.getLsbD 43, run := e.q1.getLsbD 42, entry := e } } ∧
        { t with queues := s.queues } = s)) ∧
    (∀ c op, ((c = .queueMode sl ∧ op = 0x12) ∨ (c = .queueSet sl ∧ op = 0x13) ∨ (c = .destroyQueue sl ∧ op = 0x11)) →
      AdminRuns s sl op e → x.live = false → OnlyCompletes c s sl e 0x11 0 0) ∧
    (AdminRuns s sl 0x11 e → q ≠ 0 → x.live = true → Does (.destroyQueue sl) s (fun t => others t ∧ t.cplPend = s.cplPend ∧
      t.queue k = { x with run := false, dying := some e } ∧ { t with queues := s.queues } = s)) ∧
    (qn ≠ 0 → (s.queue (qKey sl.toNat qn.toNat)).wait = some w → (s.queue (qKey sl.toNat qn.toNat)).entries = [] → w.own = false →
      s.adminHolds sl.toNat w.entry = true →
      s.working = true → s.works sl.toNat = true → Completes (.queueModeSwitch sl qn) s sl w.entry 0 0 0 (fun t =>
        (t.queue (qKey sl.toNat qn.toNat)).own = false ∧ (t.queue (qKey sl.toNat qn.toNat)).run = w.run ∧
        (t.queue (qKey sl.toNat qn.toNat)).wait = none ∧
        (t.queue (qKey sl.toNat qn.toNat)).cons = (s.queue (qKey sl.toNat qn.toNat)).fetch ∧
        (t.queue (qKey sl.toNat qn.toNat)).prod = (s.queue (qKey sl.toNat qn.toNat)).fetch ∧
        { t with queues := s.queues, cplPend := s.cplPend, raised := s.raised } = s)) ∧
    ((s.queue (qKey sl.toNat qn.toNat)).wait = some w → (s.queue (qKey sl.toNat qn.toNat)).entries ≠ [] →
      exec (.queueModeSwitch sl qn) s = .next s)

/-- Fetching (R267, R270, R271, R274): a due poll of a queue in index mode reads the units handed over; an entry that passes its checks is
held at its position, one with a reserved operation completes MALFORMED with reason 0x01, a NOP completes SUCCESS and a TRANSFER has its
payload read from the tick after its fetch. In it log entry 21 is the model's choice. -/
def Obligations.EntriesAreFetched : Prop :=
  ∀ (s : State) (sl : Slice) (q : QNum) (pos : BitVec 17) (own : List Bool) (w0 w1 w2 w3 : W64) (e : Entry),
    let k := qKey sl.toNat q.toNat
    let x := s.queue k
    let n := x.dist x.fetch (s.comQueue k).prod
    let units := w0.toNat / 2 ^ 59 % 16 + 1
    (s.fetches sl.toNat = true → s.pollDue x = true → x.own = false → s.fetchedIn k < 16 → 0 < n → n ≤ x.size - x.dist x.cons x.fetch →
      n ≤ x.size - x.slot x.fetch →
      Does (.queuePoll sl q own) s (fun t =>
        t.queue k = { x with polled := some s.tick.n, again := false, seen := [] } ∧
        t.out = s.out ++ [.read (s.comSlice sl.toNat).link (s.pasidOf sl.toNat)
          (x.base + BitVec.ofNat 64 (x.slot x.fetch * 32)) (n * 32)] ∧
        (∀ j, j ≠ k → t.queue j = s.queue j) ∧ { t with queues := s.queues, out := s.out } = s)) ∧
    (s.pollDue x = false → exec (.queuePoll sl q own) s = .next s) ∧
    (s.fetches sl.toNat = true → s.mayTake k units = true → x.legacy = false → x.own = false → q ≠ 0 →
      s.formatReason sl.toNat q.toNat x units [w0, w1, w2, w3] = 0 → fld w1 31 24 = 0 →
      (fld w0 55 48 = 0 ∨ s.handleStatus sl.toNat x (fld w0 22 0) = 0) →
      Does (.entryFetched sl q [w0, w1, w2, w3]) s (fun t =>
        t.queue k = { x with
          fetch := x.on x.fetch units
          entries := x.entries ++ [{ pos := x.fetch, place := x.base + BitVec.ofNat 64 (x.slot x.fetch * 32), units := units, q0 := w0, q1 := w1, q2 := w2, q3 := w3, tick := s.tick.n
                                     frags := [(w2, w1.toNat / 2 ^ 32)] }] } ∧
        (∀ j, j ≠ k → t.queue j = s.queue j) ∧ { t with queues := s.queues } = s)) ∧
    (s.fetches sl.toNat = true → s.mayTake k units = true → x.legacy = false → q ≠ 0 → 1 < fld w0 55 48 →
      Does (.entryFetched sl q [w0, w1, w2, w3]) s (fun t =>
        (∃ r, t.cplPend = s.cplPend ++ [r] ∧ r.slice = sl ∧ r.queue = q ∧ r.pos = x.fetch ∧ r.c0.toNat / 2 ^ 24 % 256 = 0x10 ∧
          r.c2.toNat % 256 = 1 ∧ r.c3 = 0) ∧
        (t.queue k).fetch = x.on x.fetch (x.stride units) ∧ (∀ j, j ≠ k → t.queue j = s.queue j) ∧
        { t with queues := s.queues, cplPend := s.cplPend, raised := s.raised } = s)) ∧
    (x.entryAt pos = some e → q ≠ 0 → e.op = 0 → x.isOld e = false → s.working = true → s.works sl.toNat = true →
      Does (.nopEntry sl q pos) s (fun t =>
        (∃ r, t.cplPend = s.cplPend ++ [r] ∧ r.slice = sl ∧ r.queue = q ∧ r.pos = pos ∧ r.c0 = cplC0 e 0) ∧
        (t.queue k).entryAt pos = none ∧ (∀ j, j ≠ k → t.queue j = s.queue j) ∧
        { t with queues := s.queues, cplPend := s.cplPend, raised := s.raised } = s)) ∧
    (x.entryAt pos = some e → q ≠ 0 → e.op = 1 → e.begun = false → e.tick.toNat < s.now → x.legacy = false → s.working = true →
      s.works sl.toNat = true →
      Does (.transfer sl q pos) s (fun t =>
        (∀ y ∈ (t.queue k).entries, y.pos = pos → y.begun = true ∧
          y.toRead = (if s.entryIn e.handle e.q3 then 0 else e.length) ∧
          y.staged = (s.entryIn e.handle e.q3 || decide (e.length = 0))) ∧
        (∀ j, j ≠ k → t.queue j = s.queue j) ∧ { t with queues := s.queues } = s))

/-! ## DMA channels (09) -/

/-- KILL, a burst, the return of a read, a fetch of a chain, the end and the read error of a descriptor, and a withdrawn channel (R297
to R299, R308, R309, R311, R313 to R315, R368); the descriptors have SHUF MODE 00. In it log entries 66, 67, 117 and 118 are the model's
choice. -/
def Obligations.ChannelEvents : Prop :=
  ∀ (s : State) (l : Link) (w : BitVec 4) (c : Chan) (v : W32) (sl : Slice) (cyc : Cycle) (q : QNum) (pos : BitVec 17)
    (data : List Byte) (a : W64) (d : Desc) (ws : List W64) (err : ReadError) (r : ReadReq) (rest : List ReadReq) (n : Nat) (e : Entry),
    let x := s.chan c.toNat
    let y := s.chanXAt c.toNat
    let own := s.chanOwner c.toNat
    let lk := s.link (s.comSlice own).link.toNat
    let clk := s.clockAt cyc
    let others (t : State) : Prop := ∀ k, k ≠ c.toNat → t.chan k = s.chan k ∧ t.chanXAt k = s.chanXAt k
    let plain : Prop := x.role = .copy ∧ x.active = some d ∧ shufMode d.shuf = 0 ∧ x.job = none
    let may : Prop := s.burstTime cyc.toNat = true ∧ s.chanWorks c.toNat = true ∧ s.payFirst c.toNat = false
    let after (k : Nat) : Nat := clk + burstSpace k (max 1 (s.comChan c.toNat).share) lk.rate
    (v.getLsbD 3 = true → s.windowSlice l.toNat w.toNat = some sl.toNat → own = sl.toNat →
      Does (.kill l w c v) s (fun t => others t ∧
        t.chan c.toNat = { x with
          active := none, shadow := {}, data := [], buf := [], read := [], wrote := [], failed := false, owed := [], armed := false
          starts := false, chain := none, chainFail := false, done := s.free.setWidth 32, job := none } ∧
        (t.chanXAt c.toNat).killNow = true ∧ (∀ z ∈ (t.chanXAt c.toNat).reqs, z.stale = true) ∧
        (t.chanXAt c.toNat).reqs.length = y.reqs.length ∧
        (∀ z ∈ t.owedRec ++ t.due.recs, z.1 ≠ c) ∧ (∀ p ∈ t.owedPay ++ t.due.pay, p.chan ≠ c) ∧
        (∀ p ∈ s.owedPay ++ s.due.pay, p.chan = c → ∀ z ∈ t.owedCpl ++ t.due.cpl,
          z.slice = p.slice → z.queue = p.queue → z.pos = p.pos → z.c0.toNat / 2 ^ 24 % 256 = 0x0A) ∧
        t.owedCpl.length = s.owedCpl.length ∧ t.due.cpl.length = s.due.cpl.length ∧ t.due.ev = s.due.ev ∧ t.due.words = s.due.words ∧
        { t with
          chans := s.chans, chanX := s.chanX, owedRec := s.owedRec, owedPay := s.owedPay, owedCpl := s.owedCpl, due := s.due
          cplPend := s.cplPend, freeCount := s.freeCount } = s)) ∧
    (may → y.nextRead ≤ clk → y.reqs.length < 16 → plain → x.st = .running → (y.fetching = true ∨ x.fetchAt = none) → x.failed = false →
      x.read = [n] → n < d.length →
      let k := burstLen (d.w0 + BitVec.ofNat 64 n) (d.length - n)
      s.bufUsed c.toNat + k ≤ 16384 →
      Does (.burstIssue c .read cyc) s (fun t => others t ∧ t.chan c.toNat = { x with read := [n + k] } ∧
        t.chanXAt c.toNat = { y with nextRead := after k, reqs := y.reqs ++ [{ lane := 0, off := n, n := k }] } ∧
        t.out = s.out ++ (tlps lk.mrrs 8 (d.w0 + BitVec.ofNat 64 n) k).map (fun b =>
          .read (s.comSlice own).link (s.pasidOf own) b.1 b.2) ∧
        { t with out := s.out, chans := s.chans, chanX := s.chanX } = s)) ∧
    (may → y.nextWrite ≤ clk → plain → x.st = .running → x.failed = false → x.wrote = [n] → n < d.length →
      let k := burstLen (d.w1 + BitVec.ofNat 64 n) (d.length - n)
      (x.ready d n k).length = k →
      Does (.burstIssue c .write cyc) s (fun t => others t ∧
        t.chan c.toNat = { x with done := x.done + BitVec.ofNat 32 k, wrote := [n + k], buf := x.consume d n k } ∧
        t.chanXAt c.toNat = { y with nextWrite := after k } ∧
        t.out = s.out ++ (tlps lk.mps 8 (d.w1 + BitVec.ofNat 64 n) k).map (fun b => .bytes (s.comSlice own).link (s.pasidOf own) b.1
          (((x.ready d n k).drop (b.1 - (d.w1 + BitVec.ofNat 64 n)).toNat).take b.2)) ∧
        { t with out := s.out, chans := s.chans, chanX := s.chanX } = s)) ∧
    (may → y.nextRead ≤ clk → y.reqs.length < 16 → x.role = .copy → y.fetching = false → x.fetchAt = some a →
      Does (.burstIssue c .read cyc) s (fun t => others t ∧ t.chan c.toNat = x ∧
        t.chanXAt c.toNat = { y with nextRead := after 32, reqs := y.reqs ++ [{ fetch := some a, n := 32 }] } ∧
        t.out = s.out ++ (tlps lk.mrrs 8 a 32).map (fun b => .read (s.comSlice own).link (s.pasidOf own) b.1 b.2) ∧
        { t with out := s.out, chans := s.chans, chanX := s.chanX } = s)) ∧
    (may → y.nextRead ≤ clk → y.reqs.length < 16 → x.role = .queue → (x.st = .idle ∨ x.st = .running) → s.nextRead c.toNat = some (n, e) →
      let b := e.nextBurst (s.queue n).legacy
      Does (.burstIssue c .read cyc) s (fun t => others t ∧ t.chan c.toNat = { x with st := .running } ∧
        t.chanXAt c.toNat = { y with
          nextRead := after b.2, reqs := y.reqs ++ [{ q := BitVec.ofNat 12 (n % 4096), pos := e.pos, n := b.2 }] } ∧
        t.queue n = { s.queue n with entries := (s.queue n).entries.map (fun z =>
          if z.pos = e.pos then { z with toRead := z.toRead - b.2, inFlight := z.inFlight + b.2 } else z) } ∧
        (∀ k, k ≠ n → t.queue k = s.queue k) ∧
        { t with out := s.out, chans := s.chans, chanX := s.chanX, queues := s.queues } = s)) ∧
    ((clk < y.nextRead ∨ 16 ≤ y.reqs.length ∨ s.payFirst c.toNat = true) → exec (.burstIssue c .read cyc) s = .next s) ∧
    ((clk < y.nextWrite ∨ s.payFirst c.toNat = true) → exec (.burstIssue c .write cyc) s = .next s) ∧
    (y.reqs = r :: rest → r.fetch = none → r.stale = false → plain → x.wrote = [n] → r.off + r.n ≤ d.length →
      Does (.dmaReadCompletion c q pos data) s (fun t => others t ∧ { t.chan c.toNat with buf := x.buf } = x ∧
        (∀ k, k < min r.n data.length → n ≤ r.off + k → (t.chan c.toNat).buf.find (r.off + k) = data[k]?) ∧
        (∀ k, (k < r.off ∨ k < n ∨ r.off + min r.n data.length ≤ k) → (t.chan c.toNat).buf.find k = x.buf.find k) ∧
        t.chanXAt c.toNat = { y with
          reqs := if r.n ≤ data.length then rest else { r with off := r.off + data.length, n := r.n - data.length } :: rest } ∧
        { t with chans := s.chans, chanX := s.chanX } = s)) ∧
    (y.reqs = r :: rest → r.fetch = none → r.stale = true → x.role = .copy → r.n ≤ data.length →
      Does (.dmaReadCompletion c q pos data) s (fun t => others t ∧ t.chan c.toNat = x ∧ t.chanXAt c.toNat = { y with reqs := rest } ∧
        { t with chanX := s.chanX } = s)) ∧
    (y.reqs = [] → exec (.dmaReadCompletion c q pos data) s = .next s ∧ exec (.dmaReadError c q pos err) s = .next s ∧
      exec (.chainFetch c (some ws)) s = .next s) ∧
    (y.reqs = r :: rest → r.fetch = none → r.stale = false → r.n ≤ 4096 → plain →
      Does (.dmaReadError c q pos err) s (fun t => others t ∧ t.chan c.toNat = { x with failed := true } ∧
        (t.chanXAt c.toNat).event = setBit y.event 2 ∧ (∀ z ∈ (t.chanXAt c.toNat).reqs, z.fetch = none → z.stale = true) ∧
        (t.chanXAt c.toNat).reqs.length = rest.length ∧ (t.link (s.comSlice own).link.toNat).err.getLsbD 4 = true ∧
        { t with out := s.out, links := s.links, chans := s.chans, chanX := s.chanX } = s)) ∧
    (plain → x.st = .running → x.failed = true → x.done.toNat ≠ d.length → x.writePlane d = none →
      Does (.descriptorEnd c) s (fun t => others t ∧
        (t.chan c.toNat).st = .stopped ∧ (t.chan c.toNat).active = none ∧ (t.chan c.toNat).count = satInc x.count ∧
        (t.chan c.toNat).owed = x.owed ++ [{
          tag := d.tag, status := .readError, last := d.next == 0 || d.addr == 0, bytes := x.done
          tick := s.workTick, desc := d.addr.setWidth 32, evt := d.evt }] ∧
        (t.chanXAt c.toNat).event = setBit y.event 4 ∧ { t with chans := s.chans, chanX := s.chanX } = s)) ∧
    (y.reqs = r :: rest → r.fetch = some a → r.stale = false → r.n ≤ 32 → x.active = some d →
      Does (.chainFetch c (some ws)) s (fun t => others t ∧
        t.chan c.toNat = { x with
          shadow := { w0 := ws.getD 0 0, w1 := ws.getD 1 0, w2 := ws.getD 2 0, w3 := ws.getD 3 0, addr := a }
          chain := none, armed := true } ∧
        t.chanXAt c.toNat = { y with reqs := rest } ∧ { t with chans := s.chans, chanX := s.chanX } = s) ∧
      Does (.chainFetch c none) s (fun t => others t ∧
        t.chan c.toNat = { x with chain := none, chainFail := true } ∧
        t.chanXAt c.toNat = { y with reqs := rest, event := setBit y.event 2 } ∧
        (t.link (s.comSlice own).link.toNat).err.getLsbD 4 = true ∧
        { t with out := s.out, links := s.links, chans := s.chans, chanX := s.chanX } = s)) ∧
    (plain → x.st = .running → x.done.toNat = d.length → d.next = 0 → x.armed = false → x.chainFail = false →
      Does (.descriptorEnd c) s (fun t => others t ∧
        t.chan c.toNat = { x with
          owed := x.owed ++ [{
            tag := d.tag, status := .done, last := true, bytes := BitVec.ofNat 32 d.length, tick := s.workTick
            desc := d.addr.setWidth 32, evt := d.evt }]
          count := satInc x.count, active := none, done := 0, read := [], wrote := [], buf := [], data := [], failed := false
          st := .idle } ∧
        { t with chans := s.chans } = s)) ∧
    (s.working = true → s.chanLeaves c.toNat = true → x.leaving = some sl →
      Does (.channelRelease c) s (fun t => others t ∧ t.chan c.toNat = {} ∧
        t.slice sl.toNat = { s.slice sl.toNat with
          res := { (s.slice sl.toNat).res with chan := clrBit (s.slice sl.toNat).res.chan c.toNat } } ∧
        (∀ k, k ≠ sl.toNat → t.slice k = s.slice k) ∧ (t.sliceXAt sl.toNat).event.getLsbD 0 = true ∧
        { t with chans := s.chans, slices := s.slices, sliceX := s.sliceX } = s)) ∧
    (x.leaving = none → exec (.channelRelease c) s = .next s)

/-- SET_CHANNEL (R296): the new parameters of an idle or stopped channel, the indices 0 where role, base or size change; the refusals by
ownership, range and activity. In it log entry 65 is the model's choice. -/
def Obligations.SetChannelCommand : Prop :=
  ∀ (s : State) (sl : Slice) (e : Entry), AdminRuns s sl 0x50 e →
    let c := fld e.q1 63 58
    let role := roleOf (fld e.q1 57 56)
    let bad := channelBad role (fld e.q1 55 49) (fld e.q1 48 45) (BitVec.ofNat 8 (fld e.q1 44 37)) e.q2
    let x := s.chan c
    let same := x.role = role ∧ x.cqBase = e.q2 ∧ x.cqLog2 = fld e.q1 48 45
    (s.chanOwner c ≠ sl.toNat → OnlyCompletes (.setChannel sl) s sl e 0x11 0 0) ∧
    (s.chanOwner c = sl.toNat → bad = true → OnlyCompletes (.setChannel sl) s sl e 0x10 2 0) ∧
    (s.chanOwner c = sl.toNat → bad = false → ¬same → x.st ≠ .idle → x.st ≠ .stopped →
      OnlyCompletes (.setChannel sl) s sl e 0x13 (reportC2 8 0xFF 0xFFFF) 0) ∧
    (s.chanOwner c = sl.toNat → bad = false → s.exporting c = true →
      OnlyCompletes (.setChannel sl) s sl e 0x13 (reportC2 8 0xFF 0xFFFF) 0) ∧
    (s.chanOwner c = sl.toNat → bad = false → (x.st = .idle ∨ x.st = .stopped) → x.role ≠ .queue → s.exporting c = false →
      s.shareOnLink (s.slice sl.toNat).link.toNat c + fld e.q1 55 49 ≤ 64 →
      Completes (.setChannel sl) s sl e 0 0 0 (fun t =>
        (same → t.chan c = { x with share := fld e.q1 55 49, qshuf := BitVec.ofNat 8 (fld e.q1 44 37) }) ∧
        (¬same → t.chan c = { x with
          role := role, share := fld e.q1 55 49, cqLog2 := fld e.q1 48 45, qshuf := BitVec.ofNat 8 (fld e.q1 44 37), cqBase := e.q2
          prod := 0, cons := 0, st := if role = .queue then .idle else .stopped }) ∧
        (∀ k, k ≠ c → t.chan k = s.chan k) ∧ OtherQueues s t sl ∧
        { t with chans := s.chans, queues := s.queues, cplPend := s.cplPend, raised := s.raised } = s))

/-! ## The steward (10) -/

/-- The built-in policies (R339 to R346): what each decides, in its run on a core, when its condition holds, and that it decides nothing
when its condition does not or no run of it is in progress. In it log entries 105 and 106 are the model's choice. -/
def Obligations.BuiltInPolicies : Prop :=
  ∀ (s : State) (c : Nat),
    let traced (t : State) (P : State → Prop) : Prop :=
      P { t with trace := s.trace, streams := s.streams, stwEvent := s.stwEvent, cores := s.cores }
    let idle (i : Instr) : Prop := Does i s (fun t => { t with cores := s.cores } = s)
    (∀ p : Port, PolicyRuns s 0 p.toNat c → s.policyOn p.toNat 0 = true → s.isolates p.toNat = true → (s.port p.toNat).st ≠ .disabled →
      (s.port p.toNat).st ≠ .contained → Decides (.portIsolation p) s c 0 (s.portOwner p.toNat) (actIsolate p.toNat) 1) ∧
    (∀ p : Port, PolicyRuns s 0 p.toNat c → s.isolates p.toNat = false → idle (.portIsolation p)) ∧
    (∀ p : Port, s.policyRuns 0 = none → exec (.portIsolation p) s = .next s) ∧
    (∀ (p : Port) (h : BitVec 23) (i : Nat) (r : PReg),
      let own := if (s.port p.toNat).speed = .field then max 8 (floorPow r.interval) else floorPow r.interval
      PolicyRuns s 1 (p.toNat * 2 ^ 23 + h.toNat) c → s.ctxOfHandle h.toNat = some i → s.policyOn p.toNat 1 = true →
      (s.ctx i).port.toNat = p.toNat → s.regOf p.toNat h.toNat = some r → s.policyNow.backoff.find h.toNat = none → r.handle = h →
      (s.portPair p.toNat 2).1 ≠ 0 → (s.portPair p.toNat 2).1.toNat ≤ (s.comCtx i).errRun.toNat →
      own < min (2 * own) (floorPow (max 1 (s.portPair p.toNat 2).2.toNat)) →
      Does (.pollBackoff p h) s (fun t =>
        (∃ q : AdmReq, t.admitting = s.admitting ++ [q] ∧ q.slice = r.slice ∧
          q.words = [BitVec.ofNat 64 h.toNat,
            BitVec.ofNat 64 (min (2 * own) (floorPow (max 1 (s.portPair p.toNat 2).2.toNat)))]) ∧
        t.policyNow.backoff.find h.toNat = some (own, s.tick.n, 0) ∧
        traced t (fun u => { u with admission := s.admission, policy := s.policy } = s))) ∧
    (∀ (p : Port) (h : BitVec 23), PolicyRuns s 1 (p.toNat * 2 ^ 23 + h.toNat) c → s.ctxOfHandle h.toNat = none → idle (.pollBackoff p h)) ∧
    (∀ p : Nat, PolicyRuns s 2 0 c → s.policyNow.shedRan ≠ some s.tick.n → (s.brownout s.brownRunNow = true ∨ s.overloaded = true) →
      s.shedList.find? (fun k =>
        s.powered k && decide ((s.comPSet k).shedPrio < 15) && (s.comPSet k).on && s.policyOn k 2) = some p →
      Decides .powerShedding s c 2 (s.portOwner p) (actPortOn p) 0) ∧
    (∀ p : Nat, PolicyRuns s 2 0 c → s.policyNow.shedRan ≠ some s.tick.n → s.brownout s.brownRunNow = false → s.overloaded = false →
      s.restorable = some p → s.policyNow.restoredAt = none → Decides .powerShedding s c 2 (s.portOwner p) (actPortOn p) 1) ∧
    (PolicyRuns s 2 0 c → s.policyNow.shedRan = some s.tick.n → idle .powerShedding) ∧
    (∀ (p : Port) (v : Int), PolicyRuns s 3 p.toNat c → s.portTemp p.toNat = some v → s.policyOn p.toNat 3 = true → (s.portPair p.toNat 3).1 ≠ 0 → 1350 ≤ v →
      (s.actBoundOf (s.portOwner p.toNat) (actIlim p.toNat)).1.toNat < (s.comPSet p.toNat).ilim →
      Decides (.thermalDerating p) s c 3 (s.portOwner p.toNat) (actIlim p.toNat)
        (BitVec.ofNat 32 (max (s.actBoundOf (s.portOwner p.toNat) (actIlim p.toNat)).1.toNat
          ((s.comPSet p.toNat).ilim - (s.portPair p.toNat 3).1.toNat)))) ∧
    (∀ p : Port, PolicyRuns s 3 p.toNat c → s.portTemp p.toNat = none → idle (.thermalDerating p)) ∧
    (∀ i : CtxIdx,
      let x := s.ctx i.toNat
      let b := s.portPair x.port.toNat 4
      let late := (s.policyNow.delays.get [] i.toNat).filter (fun k => decide (s.now ≤ k.toNat + 64))
      PolicyRuns s 4 i.toNat c → x.st ≠ .free → x.port.toNat < 16 → s.policyOn x.port.toNat 4 = true → s.policyNow.pinned.contains x.handle.toNat = false →
      b.1 ≠ 0 → b.1.toNat ≤ late.length → s.pinAt x.handle.toNat = none → s.pinFull x.slice.toNat i.toNat = false →
      Does (.contextPinning i) s (fun t =>
        t.pinAt x.handle.toNat = some x.slice ∧ t.ctx i.toNat = { x with pin := true } ∧
        t.policyNow = { s.policyNow with pinned := x.handle.toNat :: s.policyNow.pinned } ∧
        traced t (fun u => { u with pins := s.pins, ctxs := s.ctxs, policy := s.policy } = s))) ∧
    (∀ i : CtxIdx, PolicyRuns s 4 i.toNat c → (s.ctx i.toNat).st = .free → idle (.contextPinning i)) ∧
    (∀ (b : BitVec 6) (o : Nat),
      let x := s.bridge b.toNat
      let r := nextPace x.pace (s.boundOf o (0x200 + b.toNat)).1.toNat x.timedOut ((s.measured (bridgeItem b.toNat 3)).map (·.toNat))
        (((s.measured (bridgeItem b.toNat 2)).map (fun v => v != 0)).getD false)
      PolicyRuns s 5 b.toNat c → s.bridgeOwner b.toNat = some o → s.now % 64 = 0 → r ≠ x.pace → s.decisions = [] →
      Does (.radioPacing b) s (fun t =>
        t.decisions = [{ actr := BitVec.ofNat 15 (0x200 + b.toNat), core := BitVec.ofNat 2 c, task := 5, slice := BitVec.ofNat 6 o
                         val := clamp (s.actBoundOf o (0x200 + b.toNat)).1 (s.actBoundOf o (0x200 + b.toNat)).2
                           (BitVec.ofNat 32 (max 1 r)) }] ∧
        t.bridge b.toNat = { x with timedOut := false } ∧
        traced t (fun u => { u with decisions := s.decisions, bridges := s.bridges } = s))) ∧
    (∀ b : BitVec 6, PolicyRuns s 5 b.toNat c → s.now % 64 ≠ 0 → idle (.radioPacing b)) ∧
    (∀ (sl : Slice) (f : BitVec 2) (d n : W32),
      let b := s.boundOf sl.toNat (0x280 + f.toNat)
      let x := s.policyNow.loadShed.get (false, none, none) (sl.toNat * 4 + f.toNat)
      PolicyRuns s 6 (sl.toNat * 4 + f.toNat) c → s.measured (0x805 + f.toNat * 8) = some d → s.measured (0x807 + f.toNat * 8) = some n → b.1 ≠ 0 → s.measured 0x844 = some 1 →
      b.1.toInt * 1000 < d.toInt → x.2.1 ≠ some n →
      Does (.loadShedNotice sl f) s (fun t =>
        t.policyNow.loadShed.find (sl.toNat * 4 + f.toNat) = some (true, some n, x.2.2) ∧
        t.raised = s.raised ++ [{
          src := srcKey sl.toNat 13 (0x80 + f.toNat), payload := codeWord 0x08 (0 * 2 ^ 32 + d.toNat % 2 ^ 32), keep := false }] ∧
        traced t (fun u => { u with policy := s.policy, raised := s.raised } = s))) ∧
    (∀ (sl : Slice) (f : BitVec 2), PolicyRuns s 6 (sl.toNat * 4 + f.toNat) c → s.measured 0x844 ≠ some 1 → idle (.loadShedNotice sl f)) ∧
    (∀ (p : Port) (h : BitVec 23) (i : CtxIdx) (b : BitVec 6) (sl : Slice) (f : BitVec 2),
      (s.policyRuns 1 = none → exec (.pollBackoff p h) s = .next s) ∧ (s.policyRuns 2 = none → exec .powerShedding s = .next s) ∧
      (s.policyRuns 3 = none → exec (.thermalDerating p) s = .next s) ∧ (s.policyRuns 4 = none → exec (.contextPinning i) s = .next s) ∧
      (s.policyRuns 5 = none → exec (.radioPacing b) s = .next s) ∧ (s.policyRuns 6 = none → exec (.loadShedNotice sl f) s = .next s))

/-- Runs, flows, timers and trace blocks (R326, R330, R332, R351): an idle core begins the run of the entry that comes first, of a built-in policy before all others (R334, R340), a place that
has ended releases its values in order, a timer that is due sets its flag at the commit, and a full block is exported. In it log entries
90, 106, 110 and 111 are the model's choice. -/
def Obligations.RunsFlowsAndTimers : Prop :=
  ∀ s : State,
    let traced (t : State) (P : State → Prop) : Prop :=
      P { t with trace := s.trace, streams := s.streams, stwEvent := s.stwEvent }
    (∀ (c : Core) (e : ReadyE),
      let x := s.task e.task.toNat
      let th := s.thread (coreThread c.toNat)
      let cyc := max th.cycle (e.since - s.now * 12500)
      s.working = true → s.domOn 11 = true → th.running = false → th.cycle < 12000 → s.coreContained.get false c.toNat = false →
      (s.coreAt c.toNat).run = none → (s.coreAt c.toNat).policies = [] → (s.coreAt c.toNat).bitmap = [] → s.nextSpilled c.toNat = none → x.member = none →
      (s.coreAt c.toNat).ready.find? (fun y => s.mayRun c.toNat y.task.toNat) = some e →
      x.entry < (s.graph x.graph.toNat).code.length →
      Does (.taskDispatch c) s (fun t =>
        t.thread (coreThread c.toNat) = {
          running := true, code := (s.graph x.graph.toNat).code, pc := x.entry, cycle := cyc, begun := cyc, slice := x.slice
          period := (s.graph x.graph.toNat).period, task := e.task, flags := x.f, place := e.place } ∧
        t.task e.task.toNat = { x with f := x.f &&& ~~~x.m, last := c } ∧
        t.coreAt c.toNat = { s.coreAt c.toNat with
          ready := (s.coreAt c.toNat).ready.erase e, runs := Tab.upd 0 (s.coreAt c.toNat).runs e.task.toNat (· + 1) } ∧
        (∀ k, k ≠ e.task.toNat → t.task k = s.task k) ∧
        traced t (fun u => { u with threads := s.threads, tasks := s.tasks, cores := s.cores } = s))) ∧
    (∀ (c : Core) (k : Task) (r : List Task), s.working = true → s.domOn 11 = true → (s.thread (coreThread c.toNat)).running = false →
      (s.thread (coreThread c.toNat)).cycle < 12000 → s.coreContained.get false c.toNat = false → (s.coreAt c.toNat).run = none →
      (s.coreAt c.toNat).policies = k :: r →
      Does (.taskDispatch c) s (fun t =>
        t.coreAt c.toNat = { s.coreAt c.toNat with policies := (k :: r).filter (fun j => j != k), run := some k, done := [] } ∧
        (∀ j, j ≠ c.toNat → t.coreAt j = s.coreAt j) ∧ traced t (fun u => { u with cores := s.cores } = s))) ∧
    (∀ (c : Core) (k : Task), s.working = true → s.domOn 11 = true → (s.thread (coreThread c.toNat)).running = false →
      s.coreContained.get false c.toNat = false → (s.coreAt c.toNat).run = some k → (s.coreAt c.toNat).policies = [] →
      (s.coreAt c.toNat).bitmap = [] → s.nextSpilled c.toNat = none → (s.coreAt c.toNat).ready = [] →
      Does (.taskDispatch c) s (fun t =>
        (t.coreAt c.toNat).run = none ∧ (s.thread (coreThread c.toNat)).cycle ≤ (t.thread (coreThread c.toNat)).cycle ∧
        (t.thread (coreThread c.toNat)).cycle ≤ (s.thread (coreThread c.toNat)).cycle + 1200 ∧
        traced t (fun u => { u with threads := s.threads, cores := s.cores, corePeak := s.corePeak, freeCount := s.freeCount } = s))) ∧
    (∀ c : Core, (s.thread (coreThread c.toNat)).running = true ∨ s.coreContained.get false c.toNat = true →
      exec (.taskDispatch c) s = .next s) ∧
    (∀ (f : Flow) (v : W32) (cyc : Cycle),
      let x := s.flowAt f.toNat
      x.live = true → s.working = true → s.domOn 11 = true → x.ended.contains x.next = true → s.taskRuns x.sink.toNat = false →
      ((∀ y ∈ x.vals, y.1 ≠ x.next) → Does (.flowRelease f cyc) s (fun t =>
        t.flowAt f.toNat = { x with next := x.next + 1, ended := x.ended.filter (· != x.next) } ∧
        (∀ k, k ≠ f.toNat → t.flowAt k = s.flowAt k) ∧ traced t (fun u => { u with flows := s.flows } = s))) ∧
      ((x.vals.filter (fun y => y.1 == x.next)).map (·.2) = [v] → (s.task x.sink.toNat).live = true → sinkFull (s.task x.sink.toNat) = false →
        Does (.flowRelease f cyc) s (fun t =>
          (t.flowAt f.toNat).next = x.next + 1 ∧ (t.flowAt f.toNat).vals = x.vals.filter (fun y => y.1 != x.next) ∧
          (t.task x.sink.toNat).words = (sinkTakes v (s.task x.sink.toNat)).words))) ∧
    (∀ (f : Flow) (cyc : Cycle), (s.flowAt f.toNat).ended.contains (s.flowAt f.toNat).next = false → exec (.flowRelease f cyc) s = .next s) ∧
    (∀ (k : Task) (b : BitVec 5) (m : TimerS) (c : Nat),
      s.tick.selvage = true → s.committed = true → s.domOn 11 = true → (s.task k.toNat).live = true →
      s.timersRun (s.task k.toNat).slice.toNat = true → c < 4 →
      (s.coreAt c).timers.find? (fun y => y.task == k && y.flag == b && decide (y.deadline.toNat ≤ s.now)) = some m →
      (∀ j < c, (s.coreAt j).timers.find? (fun y => y.task == k && y.flag == b && decide (y.deadline.toNat ≤ s.now)) = none) →
      Does (.timerFire k b) s (fun t =>
        t.task k.toNat = { s.task k.toNat with f := setBit (s.task k.toNat).f b.toNat } ∧
        (∀ y ∈ (t.coreAt c).timers, ¬(y.task = k ∧ y.flag = b)) ∧ (∀ j, j ≠ c → t.coreAt j = s.coreAt j) ∧
        (∀ j, j ≠ k.toNat → t.task j = s.task j) ∧ traced t (fun u => { u with tasks := s.tasks, cores := s.cores } = s))) ∧
    (∀ (k : Task) (b : BitVec 5), s.tick.selvage = false ∨ s.committed = false ∨ s.timersRun (s.task k.toNat).slice.toNat = false → exec (.timerFire k b) s = .next s) ∧
    (∀ k : BitVec 3,
      let x := s.stream k.toNat
      let c := x.chan.toNat
      x.run = true → s.working = true → 256 ≤ x.held.length → s.exportFree c = true → s.chanOwner c = x.slice.toNat →
      s.chanWorks c = true →
      Does (.traceBlock k) s (fun t =>
        (t.stream k.toNat).held = x.held.drop 256 ∧ (t.stream k.toNat).block = (x.block + 1) % (2 ^ x.log2 / 256) ∧
        (t.stream k.toNat).written = x.written + 256 ∧ (t.stream k.toNat).since = s.tick.n ∧
        (t.chan c).st = .running ∧ (t.chan c).data = wordBytes ((x.held.take 256).flatMap TraceRec.words) ∧
        (∃ d : Desc, (t.chan c).active = some d ∧ d.w1 = x.base + BitVec.ofNat 64 (x.block * 4096)) ∧
        { t with chans := s.chans, streams := s.streams } = s)) ∧
    (∀ k : BitVec 3, (s.stream k.toNat).held = [] → exec (.traceBlock k) s = .next s)

/-- The steward's admin commands (R338, R339, R351, R352): bounds, flags, what is read back and the trace streams, with their refusals. In
it log entries 52, 109 and 111 are the model's choice. -/
def Obligations.StewardCommands : Prop :=
  ∀ (s : State) (sl : Slice) (e : Entry),
    let lo : W32 := BitVec.ofNat 32 (fld e.q2 63 32)
    let hi : W32 := BitVec.ofNat 32 (fld e.q2 31 0)
    let b := fld e.q1 63 53
    let a := fld e.q1 63 49
    let k := fld e.q1 63 52
    let x := s.stream (fld e.q1 50 48)
    let base (t : State) : Prop := OtherQueues s t sl
    (AdminRuns s sl 0x60 e → hi.toInt < lo.toInt → OnlyCompletes (.setBound sl) s sl e 0x10 2 0) ∧
    (AdminRuns s sl 0x60 e → lo.toInt ≤ hi.toInt → (0x300 ≤ b ∨ boundDefault b ≠ none) → s.boundMine sl.toNat b = true →
      Completes (.setBound sl) s sl e 0 0 0 (fun t => base t ∧ t.boundAt (boundKey sl.toNat b) = some (lo, hi) ∧
        (∀ j, j ≠ boundKey sl.toNat b → t.boundAt j = s.boundAt j) ∧
        { t with bounds := s.bounds, queues := s.queues, cplPend := s.cplPend, raised := s.raised } = s)) ∧
    (AdminRuns s sl 0x60 e → lo.toInt ≤ hi.toInt → (0x300 ≤ b ∨ boundDefault b ≠ none) → s.boundMine sl.toNat b = false →
      OnlyCompletes (.setBound sl) s sl e 0x11 0 0) ∧
    (AdminRuns s sl 0x61 e → hi.toInt < lo.toInt → OnlyCompletes (.setActBound sl) s sl e 0x10 2 0) ∧
    (AdminRuns s sl 0x61 e → lo.toInt ≤ hi.toInt → actrOk a = true → s.actHolder sl.toNat a = some sl.toNat → a % 8 ≠ 2 →
      Completes (.setActBound sl) s sl e 0 0 0 (fun t => base t ∧ t.actBoundAt (actKey sl.toNat a) = some (lo, hi) ∧
        (∀ j, j ≠ actKey sl.toNat a → t.actBoundAt j = s.actBoundAt j) ∧
        { t with actBounds := s.actBounds, queues := s.queues, cplPend := s.cplPend, raised := s.raised } = s)) ∧
    (AdminRuns s sl 0x61 e → lo.toInt ≤ hi.toInt → s.actHolder sl.toNat a ≠ some sl.toNat →
      OnlyCompletes (.setActBound sl) s sl e 0x11 0 0) ∧
    (AdminRuns s sl 0x63 e → s.taskMine sl.toNat k = true → Completes (.setFlag sl) s sl e 0 0 0 (fun t => base t ∧
      t.flagSets = s.flagSets ++ [(BitVec.ofNat 12 k, BitVec.ofNat 5 (fld e.q1 51 47))] ∧
      { t with flagSets := s.flagSets, queues := s.queues, cplPend := s.cplPend, raised := s.raised } = s)) ∧
    (AdminRuns s sl 0x64 e → s.taskMine sl.toNat k = true → Completes (.readTask sl) s sl e 0 0 0 (fun t => base t ∧
      t.wordsPend = s.wordsPend ++ [(sl, e.q2, taskBytes (s.comTask k))] ∧
      { t with wordsPend := s.wordsPend, queues := s.queues, cplPend := s.cplPend, raised := s.raised } = s)) ∧
    (s.taskMine sl.toNat k = false → (AdminRuns s sl 0x63 e → OnlyCompletes (.setFlag sl) s sl e 0x11 0 0) ∧
      (AdminRuns s sl 0x64 e → OnlyCompletes (.readTask sl) s sl e 0x11 0 0)) ∧
    (AdminRuns s sl 0x65 e → fld e.q1 47 40 = 1 → s.itemRight sl.toNat (fld e.q1 63 48) = true →
      Completes (.readSnapshot sl) s sl e 0 0 0 (fun t => base t ∧
        t.wordsPend = s.wordsPend ++ [(sl, e.q2, leBytes 4 (s.snapshot.get 0x80000000 (fld e.q1 63 48)).toNat)] ∧
        { t with wordsPend := s.wordsPend, queues := s.queues, cplPend := s.cplPend, raised := s.raised } = s)) ∧
    (AdminRuns s sl 0x65 e → fld e.q1 47 40 = 1 → s.itemRight sl.toNat (fld e.q1 63 48) = false →
      Completes (.readSnapshot sl) s sl e 0 0 0 (fun t =>
        t.wordsPend = s.wordsPend ++ [(sl, e.q2, leBytes 4 0x80000000)])) ∧
    (AdminRuns s sl 0x65 e → fld e.q1 47 40 = 0 → OnlyCompletes (.readSnapshot sl) s sl e 0x10 2 0) ∧
    (AdminRuns s sl 0x66 e → fbit e.q1 52 = true → 8 ≤ fld e.q1 57 53 → fld e.q1 57 53 ≤ 20 → e.q2.toNat % 4096 = 0 →
      (fbit e.q1 51 = false ∨ sl = 0) → s.chanOwner (fld e.q1 63 58) = sl.toNat → (s.chan (fld e.q1 63 58)).role = .xport →
      (x.run = false ∨ x.slice = sl) →
      Completes (.traceExport sl) s sl e 0 0 0 (fun t => base t ∧
        t.stream (fld e.q1 50 48) = {
          run := true, slice := sl, all := fbit e.q1 51, chan := BitVec.ofNat 6 (fld e.q1 63 58), log2 := fld e.q1 57 53, base := e.q2
          since := s.tick.n } ∧
        { t with streams := s.streams, queues := s.queues, cplPend := s.cplPend, raised := s.raised } = s)) ∧
    (AdminRuns s sl 0x66 e → fbit e.q1 52 = false → (x.run = false ∨ x.slice = sl) →
      Completes (.traceExport sl) s sl e 0 0 0 (fun t => base t ∧
        t.stream (fld e.q1 50 48) = { x with run := false, held := [] } ∧
        { t with streams := s.streams, queues := s.queues, cplPend := s.cplPend, raised := s.raised } = s)) ∧
    (AdminRuns s sl 0x67 e → x.slice = sl →
      OnlyCompletes (.readTraceStat sl) s sl e 0 (x.lost.setWidth 64) (x.written.setWidth 64)) ∧
    (AdminRuns s sl 0x67 e → x.slice ≠ sl → OnlyCompletes (.readTraceStat sl) s sl e 0x11 0 0)

/-! ## Slices (11) -/

/-- The slice commands of S0 (R358 to R363, R366, R374, R378 to R382, R388): each checks and completes at once, and its effect waits for
the commit of the tick; DEFINE_SLICE completes NO_RESOURCE while the entropy source's health tests fail (R376); READ_SLICE writes the
committed record and table word. In it log entries 22 and 24 are the model's choice. -/
def Obligations.SliceCommands : Prop :=
  ∀ (s : State) (e : Entry) (record : List W64) (data key : List Byte) (k : Slice), fld e.q1 63 58 = k.toNat →
    let x := s.slice k.toNat
    let does (c : Instr) (a : SliceAct) : Prop := Completes c s 0 e 0 0 0 (fun t =>
      t.sliceActsNow = s.sliceActsNow ++ [a] ∧ OtherQueues s t 0 ∧
      { t with sliceActs := s.sliceActs, queues := s.queues, cplPend := s.cplPend, raised := s.raised, out := s.out } = s)
    let reads (c : Instr) (n : Nat) (P : Prop) : Prop :=
      P ∧ Does c s (fun t => t.out = s.out ++ [.read (s.comSlice 0).link (s.pasidOf 0) e.q2 n])
    let fails (c : Instr) (st : Nat) (c2 : W64) : Prop := Completes c s 0 e st c2 0 (fun t =>
      OtherQueues s t 0 ∧ { t with queues := s.queues, cplPend := s.cplPend, raised := s.raised, out := s.out } = s)
    (AdminRuns s 0 0x80 e → e.q2.toNat % 8 = 0 →
      (s.recStatus k.toNat false record = 0 → reads (.defineSlice 0 record true) 128
        (does (.defineSlice 0 record true) (.define k (SlRec.ofWords record)))) ∧
      (s.recStatus k.toNat false record = 0 → fails (.defineSlice 0 record false) 0x12 0) ∧
      (s.recStatus k.toNat false record = 0x11 → fails (.defineSlice 0 record true) 0x11 0) ∧
      (s.recStatus k.toNat false record = 0x12 → fails (.defineSlice 0 record true) 0x12 0) ∧
      (s.recStatus k.toNat false record = 0x13 → fails (.defineSlice 0 record true) 0x13 (reportC2 8 0xFF 0xFFFF))) ∧
    (AdminRuns s 0 0x81 e → e.q2.toNat % 8 = 0 →
      (s.recStatus k.toNat true record = 0 → reads (.resizeSlice 0 record) 128
        (does (.resizeSlice 0 record) (.resize k (SlRec.ofWords record)))) ∧
      (s.recStatus k.toNat true record = 0x13 → fails (.resizeSlice 0 record) 0x13 (reportC2 8 0xFF 0xFFFF))) ∧
    (AdminRuns s 0 0x82 e →
      (s.bindStatus k.toNat (fld e.q1 57 56) (fld e.q1 55 52) (fld e.q1 51 32) = 0 → does (.bindSlice 0)
        (.bind k (BitVec.ofNat 2 (fld e.q1 57 56)) (BitVec.ofNat 4 (fld e.q1 55 52)) (BitVec.ofNat 20 (fld e.q1 51 32)) (fbit e.q1 31))) ∧
      (k = 0 ∨ x.st = .running ∨ x.st = .free → fails (.bindSlice 0) 0x11 0)) ∧
    (AdminRuns s 0 0x83 e →
      (k ≠ 0 → (x.st = .frozen ∨ x.st = .defined) → s.saving k.toNat = false → x.bound = true → does (.unbindSlice 0) (.unbind k)) ∧
      (k = 0 ∨ x.st = .running → fails (.unbindSlice 0) 0x11 0)) ∧
    (AdminRuns s 0 0x84 e →
      (k ≠ 0 → x.st = .running → does (.freezeSlice 0) (.freeze k)) ∧ (k ≠ 0 → x.st = .frozen → fails (.freezeSlice 0) 0 0) ∧
      (k = 0 → fails (.freezeSlice 0) 0x11 0)) ∧
    (AdminRuns s 0 0x85 e →
      (k ≠ 0 → x.bound = true → x.st = .frozen → s.saving k.toNat = false → does (.thawSlice 0) (.thaw k)) ∧
      (x.bound = false → fails (.thawSlice 0) 0x11 0)) ∧
    (AdminRuns s 0 0x86 e →
      (k ≠ 0 → x.st ≠ .free → s.saving k.toNat = false → does (.releaseSlice 0) (.release k)) ∧
      (k = 0 ∨ x.st = .free → fails (.releaseSlice 0) 0x11 0) ∧
      (k ≠ 0 → x.st ≠ .free → s.saving k.toNat = true → fails (.releaseSlice 0) 0x13 (reportC2 8 0xFF 0xFFFF))) ∧
    (AdminRuns s 0 0x88 e →
      (k ≠ 0 → s.watch.unwrap ((data.drop 8).take 40) = some key →
        reads (.setImageKek 0 data) 48 (does (.setImageKek 0 data) (.kek k (BitVec.ofNat 64 (leAt data 0 8)) key))) ∧
      (k ≠ 0 → s.watch.unwrap ((data.drop 8).take 40) = none →
        reads (.setImageKek 0 data) 48 (fails (.setImageKek 0 data) 0x10 2)) ∧
      (k = 0 → fails (.setImageKek 0 data) 0x11 0)) ∧
    (AdminRuns s 0 0x8C e → Completes (.readSlice 0) s 0 e 0 0 0 (fun t => OtherQueues s t 0 ∧
      t.wordsPend = s.wordsPend ++ [(0, e.q2, wordBytes ((s.comSlice k.toNat).res.words ++ [(s.comSlice k.toNat).table.setWidth 64]))] ∧
      { t with wordsPend := s.wordsPend, queues := s.queues, cplPend := s.cplPend, raised := s.raised } = s)) ∧
    (AdminRuns s 0 0x87 e → fld e.q1 63 59 ≤ 16 → fld e.q1 58 56 ≤ 5 → fbit e.q1 30 = true →
      does (.setAttach 0) (.attach (BitVec.ofNat 5 (fld e.q1 63 59)) (hopsOf (fld e.q1 58 56) (fld e.q1 55 31)) none)) ∧
    (AdminRuns s 0 0x87 e → fld e.q1 63 59 ≤ 16 → fld e.q1 58 56 ≤ 5 → fbit e.q1 30 = false →
      does (.setAttach 0) (.attach (BitVec.ofNat 5 (fld e.q1 63 59)) (hopsOf (fld e.q1 58 56) (fld e.q1 55 31))
        (some (BitVec.ofNat 6 (fld e.q1 28 23), fbit e.q1 29)))) ∧
    (AdminRuns s 0 0x87 e → (16 < fld e.q1 63 59 ∨ 5 < fld e.q1 58 56) → fails (.setAttach 0) 0x10 2)

/-- Images (R382, R385 to R387): SAVE_IMAGE of a frozen slice starts an export of its image, LOAD_IMAGE a read, a verified image is
staged, an unfit one ends FORMAT and leaves what was staged, and RESTORE_IMAGE of the staged one waits for the commit; with the entropy
source's health tests failing, the commands that need a key complete NO_RESOURCE (R376). In it log entries 24, 53, 54, 56 and 57 are the
model's choice. -/
def Obligations.ImageCommands : Prop :=
  ∀ (s : State) (e : Entry) (k sl : Slice) (kek : W64) (since : BitVec 48) (body : List W64) (c : Nat) (d : Desc),
    let x := s.sliceXAt k.toNat
    let bs := s.imageBytes k.toNat kek since
    let ch := fld e.q1 57 52
    let found := imageCheck x.kekId x.kek (s.chan c).data
    (AdminRuns s 0 0x89 e → fld e.q1 63 58 = k.toNat → e.q2.toNat % 4096 = 0 → x.kekId = some kek → x.since = some since →
      (s.slice k.toNat).st = .frozen → s.exportChan ch = true → bs.length ≤ imageMax → s.exportFree ch = true →
      (s.imagePages k.toNat).all (s.dramOk k.toNat) = true →
      Completes (.saveImage 0 true) s 0 e 0 0 0 (fun t => OtherQueues s t 0 ∧
        (t.chan ch).job = some (.save k) ∧ (t.chan ch).st = .running ∧ (t.chan ch).data = bs ∧ (t.chan ch).done = 0 ∧
        (∃ z : Desc, (t.chan ch).active = some z ∧ z.w1 = e.q2) ∧ (∀ j, j ≠ ch → t.chan j = s.chan j) ∧
        { t with
          chans := s.chans, freeCount := s.freeCount, queues := s.queues, cplPend := s.cplPend, raised := s.raised } = s)) ∧
    (AdminRuns s 0 0x89 e → fld e.q1 63 58 = k.toNat → e.q2.toNat % 4096 = 0 → (s.slice k.toNat).st ≠ .frozen →
      OnlyCompletes (.saveImage 0 true) s 0 e 0x11 0 0) ∧
    (AdminRuns s 0 0x89 e → fld e.q1 63 58 = k.toNat → e.q2.toNat % 4096 = 0 → x.kekId = some kek → x.since = some since →
      (s.slice k.toNat).st = .frozen → s.exportChan ch = true → OnlyCompletes (.saveImage 0 false) s 0 e 0x12 0 0) ∧
    (AdminRuns s 0 0x89 e → e.q2.toNat % 4096 ≠ 0 → OnlyCompletes (.saveImage 0 true) s 0 e 0x10 2 0) ∧
    (AdminRuns s 0 0x8A e → fld e.q1 63 58 = k.toNat → e.q2.toNat % 4096 = 0 → k ≠ 0 → s.exportChan ch = true →
      s.exportFree ch = true →
      Completes (.loadImage 0) s 0 e 0 0 0 (fun t => OtherQueues s t 0 ∧ t.stagedImage = none ∧ t.loadTarget = some k ∧
        (t.chan ch).job = some (.load k) ∧ (t.chan ch).st = .running ∧
        (∃ z : Desc, (t.chan ch).active = some z ∧ z.w0 = e.q2) ∧ (∀ j, j ≠ ch → t.chan j = s.chan j) ∧
        { t with
          chans := s.chans, stagedImage := s.stagedImage, loadTarget := s.loadTarget, queues := s.queues, cplPend := s.cplPend
          raised := s.raised } = s)) ∧
    (AdminRuns s 0 0x8A e → fld e.q1 63 58 = 0 → e.q2.toNat % 4096 = 0 → OnlyCompletes (.loadImage 0) s 0 e 0x11 0 0) ∧
    (s.loading = some (c, k) → s.working = true → s.chanWorks c = true → (s.chan c).active = some d → (s.chan c).armed = false →
      (s.chan c).chainFail = false → (s.chan c).st = .running →
      let ends (st : ChStatus) (bytes : Nat) (image : Option (Slice × List W64)) : Prop := Does .imageVerify s (fun t =>
        t.stagedImage = image ∧ (t.chan c).st = .idle ∧ (t.chan c).job = none ∧ (t.chan c).active = none ∧
        (∃ r, (t.chan c).owed = (s.chan c).owed ++ [r] ∧ r.status = st ∧ r.bytes = BitVec.ofNat 32 bytes) ∧
        (∀ j, j ≠ c → t.chan j = s.chan j) ∧
        { t with chans := s.chans, chanX := s.chanX, stagedImage := s.stagedImage } = s)
      (found = some (some body) → ends .done (112 + 8 * body.length) (some (k, body))) ∧
      (found = some none → ends .format 0 s.stagedImage) ∧ (found = none → exec .imageVerify s = .next s)) ∧
    (s.loading = none → exec .imageVerify s = .next s) ∧
    (AdminRuns s 0 0x8B e → s.stagedImage = some (k, body) → s.recStatus k.toNat false (sectionOf body 0x01) = 0 →
      Does (.restoreImage 0 true) s (fun t =>
        t.sliceActsNow = s.sliceActsNow ++ [.restore k body { e with begun := true }] ∧ t.cplPend = s.cplPend ∧ OtherQueues s t 0 ∧
        { t with sliceActs := s.sliceActs, queues := s.queues } = s)) ∧
    (AdminRuns s 0 0x8B e → s.stagedImage = some (k, body) → s.recStatus k.toNat false (sectionOf body 0x01) = 0 →
      OnlyCompletes (.restoreImage 0 false) s 0 e 0x12 0 0) ∧
    (AdminRuns s 0 0x8B e → s.stagedImage = none → OnlyCompletes (.restoreImage 0 true) s 0 e 0x11 0 0) ∧
    (AdminRuns s sl 0x8B e → sl ≠ 0 → OnlyCompletes (.restoreImage sl true) s sl e 0x11 0 0)

/-- What the commit does with a slice (R360, R361, R363, R378, R380, R381): a definition gives the record and two new keys, a binding
makes a defined slice run, freezing and thawing change the state and raise their events, a release leaves the slice free and keeps
its KEK. The host links, the gleaner and the scrub (R23, R297, R365, R371, R373, R555): a link that goes down is marked for the
commit and its buffer kept, and a fundamental reset takes PASID Enable back; the next page in FILL becomes OWNED once the gleaner
may write a page; the scrub and the fill together move no more than 75,000 bytes a tick. In it log entries 69 and 120 are the
model's choice. -/
def Obligations.SliceEffectsLinksAndPages : Prop :=
  (∀ (s : State) (k : Slice) (r : SlRec) (l : Link) (w : BitVec 4) (p : BitVec 20) (auto : Bool),
     let x := s.slice k.toNat
     let kept (t : State) : Prop := ∀ j, j ≠ k.toNat → t.slice j = s.slice j
     (let t := s.applyAct (.define k r);
       t.slice k.toNat = { st := .defined, res := r } ∧ kept t ∧
       (t.sliceXAt k.toNat).memKey = some s.freeCount ∧ (t.sliceXAt k.toNat).journalKey = some (drawBytes (s.freeCount + 1) 0 32)) ∧
     (let t := s.applyAct (.bind k l w p auto);
       t.slice k.toNat = { x with
         link := l, window := w, pasid := p, bound := true, autoThaw := auto
         st := if x.st = .defined then .running else x.st } ∧
       kept t ∧ (x.bound = false → { t with slices := s.slices } = s)) ∧
     (let t := s.applyAct (.unbind k);
       (t.slice k.toNat).bound = false ∧ (t.slice k.toNat).res = x.res ∧ kept t) ∧
     (x.st = .running → let t := s.applyAct (.freeze k);
       t.slice k.toNat = { x with st := .frozen, linkDown := false } ∧ kept t ∧
       (t.sliceXAt k.toNat).event = setBit (s.sliceXAt k.toNat).event 1 ∧ { t with slices := s.slices, sliceX := s.sliceX } = s) ∧
     (x.st = .frozen → let t := s.applyAct (.thaw k);
       t.slice k.toNat = { x with st := .running, linkDown := false } ∧ kept t ∧
       (t.sliceXAt k.toNat).event = setBit (s.sliceXAt k.toNat).event 2 ∧ { t with slices := s.slices, sliceX := s.sliceX } = s) ∧
     (let t := s.applyAct (.release k);
       t.slice k.toNat = {} ∧ (t.sliceXAt k.toNat).kekId = (s.sliceXAt k.toNat).kekId ∧
       (t.sliceXAt k.toNat).kek = (s.sliceXAt k.toNat).kek ∧ (t.sliceXAt k.toNat).memKey = none ∧
       (t.sliceXAt k.toNat).journalKey = none ∧ (t.sliceXAt k.toNat).event = 0 ∧ t.raws.find k.toNat = none ∧
       t.eqs.find k.toNat = none ∧ t.stwStat.find k.toNat = none)) ∧
  (∀ (s : State) (l : Link) (gts width : Nat) (on reset : Bool) (pg n corr : W16),
     let x := s.link l.toNat
     let lines := min (s.scrubRoom / 64) n.toNat
     let only (t : State) : Prop := (∀ k, k ≠ l.toNat → t.link k = s.link k) ∧ { t with links := s.links } = s
     Does (.linkDown l reset) s (fun t =>
       t.link l.toNat = { x with up := false, downNow := x.downNow || x.up, pasidEn := x.pasidEn && !reset } ∧ only t) ∧
     Does (.linkUp l gts width) s (fun t => t.link l.toNat = { x with up := true, gts := gts, width := width } ∧ only t) ∧
     (s.configReady = true → Does (.pasidEnable l on) s (fun t => t.link l.toNat = { x with pasidEn := on } ∧ only t)) ∧
     (s.configReady = false → exec (.pasidEnable l on) s = .next s) ∧
     (s.domOn 9 = true → s.gleanAt0.scrubRoom = s.scrubRoom % 64 + 18750 ∧ s.gleanAt0.fillRoom ≤ s.fillRoom + 56250 ∧
       { s.gleanAt0 with scrubRoom := s.scrubRoom, fillRoom := s.fillRoom } = s) ∧
     (s.nextFill = some pg.toNat → s.domOn 9 = true → 65536 ≤ s.fillRoom → Does (.pageFill pg) s (fun t =>
       (t.comPage pg.toNat).st = .owned ∧ (t.comPage pg.toNat).sl = (s.comPage pg.toNat).sl ∧
       (∀ k, k ≠ pg.toNat → t.comPage k = s.comPage k) ∧ t.fillRoom = s.fillRoom - 65536 ∧
       (∀ i, i / 1024 ≠ pg.toNat → t.ctx i = s.ctx i) ∧ (∀ d, 5120 + d / 8192 ≠ pg.toNat → t.dev d = s.dev d) ∧
       (∀ i, i / 1024 = pg.toNat → pg.toNat < 5120 → t.ctx i = {}) ∧
       (∀ d, 5120 + d / 8192 = pg.toNat → pg.toNat < 5184 → t.dev d = {}) ∧
       { t with
         pot := s.pot, sliceX := s.sliceX, fillRoom := s.fillRoom, ctxs := s.ctxs, devs := s.devs, devX := s.devX
         bridges := s.bridges } = s)) ∧
     (s.nextFill ≠ some pg.toNat ∨ s.fillRoom < 65536 → exec (.pageFill pg) s = .next s) ∧
     (s.domOn 9 = true → s.scrubPos < 67108864 → Does (.eccScrub n corr) s (fun t =>
       t.scrubPos = (s.scrubPos + lines) % 67108864 ∧ t.eccCorrected = satAdd s.eccCorrected corr.toNat ∧
       (s.scrubPos + lines < 67108864 → t.scrubPasses = s.scrubPasses) ∧
       (67108864 ≤ s.scrubPos + lines → t.scrubPasses = satInc s.scrubPasses) ∧
       t.scrubRoom = s.scrubRoom - 64 * lines ∧
       { t with scrubRoom := s.scrubRoom, scrubPos := s.scrubPos, eccCorrected := s.eccCorrected, scrubPasses := s.scrubPasses } = s)) ∧
     (s.domOn 9 = false → exec (.eccScrub n corr) s = .next s))

/-! ## Events (12) and host accesses (16) -/

/-- The event commands (R393, R395, R396, R407, R409, R410, R412, R414, R515): enable, class and target of sources with their refusals,
the group mask, the fast bank's acknowledgement and settings, and the function's power state. In it log entry 9 is the model's choice. -/
def Obligations.EventCommands : Prop :=
  ∀ (s : State) (sl : Slice) (e : Entry) (l : Link) (w : BitVec 4) (v : W32) (k : Nat) (pme : Bool),
    let g := fld e.q1 63 59
    let ids := sourceRange e
    let x := s.link l.toNat
    let sets (t : State) (sp : Nat) (f : SrcCfg → SrcCfg) : Prop :=
      (∀ i ∈ ids, t.srcCfgAt (srcKey sp g i) = f (s.srcCfgAt (srcKey sp g i))) ∧
      (∀ j, (∀ i ∈ ids, j ≠ srcKey sp g i) → t.srcCfgAt j = s.srcCfgAt j) ∧ OtherQueues s t sl ∧
      { t with srcCfg := s.srcCfg, queues := s.queues, cplPend := s.cplPend, raised := s.raised } = s
    let only (t : State) : Prop := (∀ j, j ≠ l.toNat → t.link j = s.link j) ∧ { t with links := s.links } = s
    (AdminRuns s sl 0x40 e → ids ≠ [] → groupScope g = some .slice →
      Completes (.setSource sl) s sl e 0 0 0 (fun t =>
        sets t sl.toNat (fun c => { c with enabled := fbit e.q1 34, fast := fbit e.q1 33 }))) ∧
    (AdminRuns s sl 0x40 e → ids ≠ [] → groupScope g = some .shared →
      (∀ i ∈ ids, s.routedTo (srcKey sharedSpace g i) = sl.toNat) →
      Completes (.setSource sl) s sl e 0 0 0 (fun t =>
        sets t sharedSpace (fun c => { c with enabled := fbit e.q1 34, fast := fbit e.q1 33 }))) ∧
    (AdminRuns s sl 0x40 e → groupScope g = some .shared → (∃ i ∈ ids, s.routedTo (srcKey sharedSpace g i) ≠ sl.toNat) →
      OnlyCompletes (.setSource sl) s sl e 0x11 0 0) ∧
    (AdminRuns s sl 0x40 e → (groupScope g = none ∨ ids = []) → OnlyCompletes (.setSource sl) s sl e 0x10 2 0) ∧
    (AdminRuns s sl 0x40 e → ids ≠ [] → groupScope g = some .priv → OnlyCompletes (.setSource sl) s sl e 0x11 0 0) ∧
    (AdminRuns s 0 0x41 e → sl = 0 → ids ≠ [] → groupScope g = some .shared → (g ≠ 0 ∨ fld e.q1 32 27 = 0) →
      Completes (.routeSource 0) s 0 e 0 0 0 (fun t => sets t sharedSpace (fun c => { c with
        enabled := fbit e.q1 34, fast := fbit e.q1 33, target := some (BitVec.ofNat 6 (fld e.q1 32 27)) }))) ∧
    (AdminRuns s 0 0x41 e → ids ≠ [] → (groupScope g = some .slice ∨ (g = 0 ∧ fld e.q1 32 27 ≠ 0)) →
      OnlyCompletes (.routeSource 0) s 0 e 0x11 0 0) ∧
    (s.windowSlice l.toNat w.toNat = some k → Does (.grpMaskWrite l w v) s (fun t =>
      t.eq k = { s.eq k with grpMask := v } ∧
      (∀ r, r ∈ t.owedEv ↔ r ∈ s.owedEv ∧ ¬(r.slice.toNat = k ∧ v.getLsbD r.group.toNat = true)) ∧
      (∀ j, j ≠ k → t.eq j = s.eq j) ∧ { t with owedEv := s.owedEv, srcs := s.srcs, eqs := s.eqs } = s)) ∧
    ((∀ y ∈ x.fbEntry, v.getLsbD y.1 = false) → exec (.fbAck l v) s = .next s) ∧
    (x.fbEntry ≠ [] → (∀ y ∈ x.fbEntry, v.getLsbD y.1 = true) → Does (.fbAck l v) s (fun t =>
      t.link l.toNat = { x with
        fbEntry := [], fbArmed := true
        fbAcked := x.fbAcked ++ (x.fbEntry.filter (fun y =>
          (s.src y.2.src).out == .bank (BitVec.ofNat 2 l.toNat) (BitVec.ofNat 3 y.1))).map (fun y => y.2.src) } ∧ only t)) ∧
    (x.fbEntry = [] → Does (.fbCfgWrite l v) s (fun t =>
      t.link l.toNat = { x with fbMask := v.getLsbD 31, privEn := v.setWidth 2 } ∧ only t)) ∧
    (x.fbEntry ≠ [] → x.fbArmed = true → v.getLsbD 31 = false → x.msixEnable = true → x.msixFnMask = false → x.vecMasked 64 = false →
      x.d3hot = false → Does (.fbCfgWrite l v) s (fun t =>
        t.link l.toNat = { x with fbMask := false, privEn := v.setWidth 2, fbArmed := false } ∧ t.out = s.out ++ [.msix l 64] ∧
        { t with links := s.links, out := s.out } = s)) ∧
    Does (.d3hotEntry l pme) s (fun t => t.link l.toNat = { x with d3hot := true, pmeEn := pme, pmeSent := false } ∧ only t) ∧
    (x.pba = 0 → Does (.d0Return l) s (fun t => t.link l.toNat = { x with d3hot := false, pmeSent := false } ∧ only t))

/-- Accesses to BAR0 (R60, R497, R498, R500 to R507, R511, R514): TICK_LO latches TICK_HI, a write of IND_ADDR and PPS_CTL acts at once,
an access that reaches nothing is counted, captured and reported, a guarded register reads 0 and keeps its value, IND_ADDR rises by 4 with
each access, and a register that clears on read is returned first. In it log entry 95 is the model's choice. -/
def Obligations.RegisterAccesses : Prop :=
  ∀ (s : State) (l : Link) (off : BarOff) (v : W32) (b : Bool) (w : BitVec 4) (sl : Nat) (r : IndReg) (wr : Option W32),
    let x := s.link l.toNat
    let others (t : State) : Prop := ∀ j, j ≠ l.toNat → t.link j = s.link j
    let failed (t : State) (bit : Nat) (ur : Bool) (at0 : Nat) : Prop :=
      (t.link l.toNat).err = setBit x.err bit ∧ (t.link l.toNat).errCnt = satInc x.errCnt ∧
      (x.err.getLsbD 0 = false → x.err.getLsbD 1 = false → (t.link l.toNat).errAddr = BitVec.ofNat 21 at0) ∧
      ((x.err.getLsbD 0 = true ∨ x.err.getLsbD 1 = true) → (t.link l.toNat).errAddr = x.errAddr) ∧
      (∃ o, t.out = s.out ++ o ++ (if ur then [.aer l (BitVec.ofNat 8 bit), .ur l] else [.aer l (BitVec.ofNat 8 bit)])) ∧
      others t ∧ { t with links := s.links, out := s.out } = s
    let reported (bit : Nat) (t : State) : Prop :=
      (t.link l.toNat).err = setBit x.err bit ∧ (∃ o, t.out = s.out ++ o ++ [.aer l (BitVec.ofNat 8 bit)]) ∧ others t ∧
      { t with links := s.links, out := s.out } = s
    Does (.tickLoRead l b) s (fun t =>
      t.tick = { s.tick with hiLatch := (s.tick.n >>> 32).setWidth 16 } ∧
      t.out = s.out ++ [.readCpl l (if b then [s.now32, ((s.tick.n >>> 32).setWidth 16 : W16).setWidth 32] else [s.now32])] ∧
      { t with tick := s.tick, out := s.out } = s) ∧
    Does (.registerWrite l 0x100 v none) s (fun t =>
      t.link l.toNat = { x with indAddr := (v &&& 0x00FFFFFC).setWidth 24 } ∧ others t ∧ { t with links := s.links } = s) ∧
    (s.comWarden = l.toNat → Does (.registerWrite l 0x220 v none) s (fun t =>
      t.tick.ppsCtl = v &&& 0xFFFF0003 ∧ (v.getLsbD 0 = false → t.tick.pps = .absent) ∧ (v.getLsbD 0 = true → t.tick.pps = s.tick.pps) ∧
      { t with tick := s.tick } = s)) ∧
    (s.comWarden ≠ l.toNat → exec (.registerWrite l 0x220 v none) s = .next s) ∧
    (off.toNat % 4 = 0 → s.implemented l.toNat off = false → off.toNat / 4 ≠ 0x41 →
      Does (.registerWrite l off v none) s (fun t => failed t 0 false (off.toNat / 4 * 4 + 1))) ∧
    (off.toNat % 4 ≠ 0 → off.toNat / 4 ≠ 0x41 →
      Does (.registerWrite l off v none) s (fun t => failed t 1 false (off.toNat / 4 * 4 + 1)) ∧
      Does (.clearOnRead l off false) s (fun t => failed t 1 true (off.toNat / 4 * 4))) ∧
    (off.toNat % 4 = 0 → s.implemented l.toNat off = false → off.toNat / 4 ≠ 0x41 →
      Does (.clearOnRead l off false) s (fun t => failed t 0 true (off.toNat / 4 * 4))) ∧
    (s.implemented l.toNat off = false → off.toNat / 4 ≠ 0x41 →
      Does (.unsupportedRequest { link := l, off := off, qword := false, write := false, wellSized := true }) s (fun t =>
        failed t 0 true (off.toNat / 4 * 4))) ∧
    (off.toNat / 4 ≠ 0x41 →
      Does (.unsupportedRequest { link := l, off := off, qword := false, write := true, wellSized := false }) s (fun t =>
        failed t 1 false (off.toNat / 4 * 4 + 1))) ∧
    (s.implemented l.toNat off = true →
      exec (.unsupportedRequest { link := l, off := off, qword := false, write := b, wellSized := true }) s = .next s) ∧
    Does (.clearOnRead l 0x180 false) s (fun t =>
      t.link l.toNat = { x with err := 0 } ∧ others t ∧ t.out = s.out ++ [.readCpl l [s.barWord l.toNat (.linkErr 0)]] ∧
      { t with links := s.links, out := s.out } = s) ∧
    (s.windowSlice l.toNat w.toNat = some sl → Does (.clearOnRead l (windowOff w.toNat 8) false) s (fun t =>
      (t.sliceXAt sl) = { s.sliceXAt sl with event := 0 } ∧ (∀ j, j ≠ sl → t.sliceXAt j = s.sliceXAt j) ∧
      t.out = s.out ++ [.readCpl l [(s.sliceXAt sl).event.setWidth 32]] ∧ { t with sliceX := s.sliceX, out := s.out } = s)) ∧
    (s.windowSlice l.toNat w.toNat = none →
      Does (.clearOnRead l (windowOff w.toNat 8) b) s (fun t => failed t 0 true (windowOff w.toNat 8).toNat)) ∧
    (indReg x.indAddr = some r → s.domainDown r = false → r.guarded = true → s.comWarden ≠ l.toNat →
      Does (.indDataAccess l none) s (fun t =>
        t.out = s.out ++ [.readCpl l [0]] ∧ (t.link l.toNat).indAddr = x.indAddr + 4 ∧ others t)) ∧
    (indReg x.indAddr = some r → s.domainDown r = false → r.guarded = false →
      Does (.indDataAccess l none) s (fun t =>
        t.out = s.out ++ [.readCpl l [s.indWord r]] ∧ (t.link l.toNat).indAddr = x.indAddr + 4 ∧ others t)) ∧
    (indReg x.indAddr = some r → s.domainDown r = false → s.comWarden ≠ l.toNat →
      Does (.indDataAccess l (some v)) s (fun t =>
        t.link l.toNat = { x with indAddr := x.indAddr + 4 } ∧ others t ∧ { t with links := s.links } = s)) ∧
    (indReg x.indAddr = some r → s.domainDown r = true → Does (.indDataAccess l wr) s (fun t =>
      (t.link l.toNat).err = setBit x.err 2 ∧ (t.link l.toNat).indAddr = x.indAddr + 4 ∧ others t ∧
      (wr = none → ∃ o, t.out = s.out ++ o ++ [.readCpl l [0]]) ∧ { t with links := s.links, out := s.out } = s)) ∧
    (indReg x.indAddr = none → Does (.indDataAccess l wr) s (fun t =>
      (t.link l.toNat).err = setBit x.err 0 ∧ (t.link l.toNat).errCnt = satInc x.errCnt ∧
      (t.link l.toNat).indAddr = x.indAddr + 4 ∧ others t ∧ { t with links := s.links, out := s.out } = s)) ∧
    Does (.completionTimeout l) s (reported 5) ∧ Does (.ecrcFailure l) s (reported 6) ∧ Does (.poisonedWrite l) s (reported 3)

/-! ## Port power (13) -/

/-- The power commands of a port (R418 to R420, R429, R432, R438): a profile or direct values, PORT_ON, PORT_REARM and PASS_CLEAR for the
commit, and their refusals. -/
def Obligations.PortPowerCommands : Prop :=
  ∀ (s : State) (sl : Slice) (e : Entry),
    let p := fld e.q1 63 59
    let sets (c : Instr) (own : List (BitVec 15)) (f : PortSet → PortSet) : Prop := Completes c s sl e 0 0 0 (fun t =>
      t.psetAt p = f (s.psetAt p) ∧ (∀ k, k ≠ p → t.psetAt k = s.psetAt k) ∧ t.ownerSet = s.ownerSet ++ own ∧ OtherQueues s t sl ∧
      { t with pset := s.pset, ownerSet := s.ownerSet, queues := s.queues, cplPend := s.cplPend, raised := s.raised } = s)
    (p ≤ 15 → s.portOwner p = sl.toNat →
      (AdminRuns s sl 0x70 e → sets (.setPortProfile sl) [BitVec.ofNat 15 (p * 8 + 1)] (profileSet (fld e.q1 58 56))) ∧
      (AdminRuns s sl 0x71 e → directOk (fld e.q1 58 54) (fld e.q1 53 47) (fld e.q1 46 42) (fld e.q1 41 36) (fld e.q1 31 24) = true →
        sets (.setPortDirect sl) [BitVec.ofNat 15 (p * 8 + 1)] (fun x => { x with
          direct := true, pwrMax := fld e.q1 58 54, ilimSet := fld e.q1 53 47, rampT := fld e.q1 46 42, faultT := fld e.q1 41 36
          retryMax := fld e.q1 35 32, retryDelay := fld e.q1 31 24, ilim := fld e.q1 53 47 * 10 })) ∧
      (AdminRuns s sl 0x71 e → directOk (fld e.q1 58 54) (fld e.q1 53 47) (fld e.q1 46 42) (fld e.q1 41 36) (fld e.q1 31 24) = false →
        OnlyCompletes (.setPortDirect sl) s sl e 0x10 2 0) ∧
      (AdminRuns s sl 0x72 e → sets (.portPower sl) [BitVec.ofNat 15 (p * 8)] (fun x => { x with
        on := fbit e.q1 58, offCause := .offCmd, onSet := true })) ∧
      (AdminRuns s sl 0x73 e → sets (.portRearm sl) [] (fun x => { x with rearm := true }))) ∧
    (p ≤ 15 → sl = 0 → AdminRuns s sl 0x74 e → sets (.passClear sl) [] (fun x => { x with passClear := true })) ∧
    (p ≤ 15 → sl ≠ 0 → AdminRuns s sl 0x74 e → OnlyCompletes (.passClear sl) s sl e 0x11 0 0) ∧
    (∀ c op, ((c = .setPortProfile sl ∧ op = 0x70) ∨ (c = .setPortDirect sl ∧ op = 0x71) ∨ (c = .portPower sl ∧ op = 0x72) ∨
        (c = .portRearm sl ∧ op = 0x73)) → AdminRuns s sl op e →
      (15 < p → OnlyCompletes c s sl e 0x10 2 0) ∧ (p ≤ 15 → s.portOwner p ≠ sl.toNat → OnlyCompletes c s sl e 0x11 0 0)) ∧
    (∀ x : PortSet, (List.range 8).map (fun k => profileSet k x) =
      [(15, 40, 5, 20, 8, 100), (4, 15, 2, 5, 8, 50), (8, 25, 5, 10, 8, 50), (15, 60, 5, 50, 4, 200), (30, 70, 10, 30, 4, 200),
        (30, 80, 10, 20, 8, 100), (15, 40, 10, 20, 15, 250), (8, 25, 20, 10, 8, 100)].mapIdx (fun k v => { x with
          direct := false, profile := BitVec.ofNat 3 k, pwrMax := v.1, ilimSet := v.2.1, rampT := v.2.2.1, faultT := v.2.2.2.1
          retryMax := v.2.2.2.2.1, retryDelay := v.2.2.2.2.2, ilim := v.2.1 * 10 }))

/-- The electronic fuse (R421 to R428, R430 to R432): the ramp, the limiter at the foldback limit and its timer, power-good and its
withdrawal, what switches the gate off and with which cause, the retry and the clearing of its count. In it log entries 70 and 128 are the
model's choice. -/
def Obligations.FuseEvents : Prop :=
  ∀ (s : State) (p : Port) (cyc : Cycle) (i ns vout vbus us sensor board : W16),
    let k := p.toNat
    let f := s.fuse k
    let clk := s.clockAt cyc
    let limit := min (s.comPSet k).ilim ((s.comPSet k).ilimSet * 10)
    let above := 50 < i.toNat ∧ limit < 4 * i.toNat ∧ limit * vout.toNat < i.toNat * vbus.toNat
    let below := i.toNat < 50 ∨ 4 * i.toNat < limit ∨ i.toNat * vbus.toNat < limit * vout.toNat
    let hotter := PortP.heat ((vbus.toNat - vout.toNat) * i.toNat) us.toNat f
    let model := board + BitVec.ofNat 16 ((hotter.riseJc + hotter.riseCb) / 100000000)
    let one (t : State) : Prop := (∀ j, j ≠ k → t.fuse j = s.fuse j) ∧ (∀ j, j ≠ k → t.port j = s.port j) ∧
      { t with power := s.power, ports := s.ports } = s
    let off (c : Instr) (cause : Cause) : Prop := Does c s (fun t =>
      (t.fuse k).gate = false ∧ (t.fuse k).pg = false ∧ (t.fuse k).limiting = false ∧ (t.fuse k).cause = cause ∧
      (t.fuse k).offAt = clk ∧ (t.fuse k).tripped = true ∧ (t.fuse k).faults = satInc f.faults ∧
      (t.fuse k).event.getLsbD (if cause = .thermal then 5 else 4) = true ∧
      (((s.comPSet k).retryMax = 15 ∨ f.retries < (s.comPSet k).retryMax) →
        (t.fuse k).st = .wait ∧
        (t.fuse k).retryAt = some (BitVec.ofNat 48 (s.now + (s.comPSet k).retryDelay * 80 * 2 ^ min f.retries 3))) ∧
      ((s.comPSet k).retryMax ≠ 15 → (s.comPSet k).retryMax ≤ f.retries →
        (t.fuse k).st = .latched ∧ (t.fuse k).event.getLsbD 7 = true) ∧
      (t.port k).st = .fault ∧ (t.port k).speed = .none ∧ (t.port k).detachNow = true ∧ (t.port k).event.getLsbD 1 = true ∧ one t)
    ((s.port k).st = .powering → (s.port k).shown = .powering → (s.port k).since.toNat < s.now → f.gate = false → s.domOn 12 = true →
      s.relay.getLsbD k = false → Does (.gateRamp p) s (fun t =>
        (t.fuse k).gate = true ∧ (t.fuse k).st = .ramping ∧ (t.fuse k).rampAt = s.now * 12500 ∧ (t.fuse k).timer = 0 ∧
        (t.fuse k).rampT = (s.comPSet k).rampT ∧ (t.fuse k).faultT = (s.comPSet k).faultT ∧
        (t.fuse k).pgFault = (s.comPSet k).faultT ∧ (t.fuse k).event = setBit f.event 0 ∧ t.port k = s.port k ∧ one t)) ∧
    (f.gate = true → exec (.gateRamp p) s = .next s) ∧
    (f.gate = true → f.limiting = false → above → i.toNat ≤ 1600 → f.pg = false → f.released = none → Does (.limit p i vout vbus cyc) s (fun t =>
      t.fuse k = { f with
        limiting := true, limitAt := some clk, timerFrom := clk, timer := 0, faultT := (s.comPSet k).faultT
        event := setBit f.event 2 } ∧ t.port k = s.port k ∧ one t)) ∧
    (f.gate = true → f.limiting = false → above → i.toNat ≤ 1600 → f.pg = true → f.pgAt = some clk → Does (.limit p i vout vbus cyc) s (fun t =>
      (t.fuse k).limiting = true ∧ (t.fuse k).pg = false ∧ (t.fuse k).st = .ramping ∧
      (t.fuse k).event = setBit (setBit f.event 2) 3 ∧ (t.port k).st = .powering ∧ one t)) ∧
    (¬above → exec (.limit p i vout vbus cyc) s = .next s) ∧
    (f.limiting = true → below → Does (.limiterRelease p i vout vbus cyc) s (fun t =>
      t.fuse k = { f with limiting := false, released := some clk, timer := f.timer + (clk - f.timerFrom) } ∧ t.port k = s.port k ∧ one t)) ∧
    ((f.limiting = false ∨ ¬below) → exec (.limiterRelease p i vout vbus cyc) s = .next s) ∧
    (f.gate = true → f.st = .ramping → f.ramped = false → f.rampAt + f.rampT * 100000 ≤ clk →
      (vbus.toNat * 9 ≤ vout.toNat * 10 → f.limiting = false → Does (.rampEnd p vout vbus cyc) s (fun t =>
        (t.fuse k).pg = true ∧ (t.fuse k).st = .on ∧ (t.fuse k).poweredAt = some s.tick.n ∧ (t.fuse k).event = setBit f.event 1 ∧
        (t.port k).st = .powerWait ∧ (t.port k).since = s.tick.n ∧ one t)) ∧
      (vout.toNat * 2 < vbus.toNat → off (.rampEnd p vout vbus cyc) .rampFail) ∧
      (vbus.toNat ≤ vout.toNat * 2 → vout.toNat * 10 < vbus.toNat * 9 → Does (.rampEnd p vout vbus cyc) s (fun t =>
        t.fuse k = { f with ramped := true } ∧ t.port k = s.port k ∧ one t))) ∧
    (f.gate = true → f.ramped = true → f.pg = false → f.limiting = false → vbus.toNat * 9 ≤ vout.toNat * 10 →
      clk ≤ f.rampAt + (f.rampT + f.pgFault) * 100000 → Does (.powerGood p vout vbus cyc) s (fun t =>
        (t.fuse k).pg = true ∧ (t.fuse k).st = .on ∧ (t.fuse k).pgAt = some clk ∧ (t.port k).st = .powerWait ∧ one t)) ∧
    (f.gate = true → f.ramped = true → f.pg = false → f.rampAt + (f.rampT + f.pgFault) * 100000 ≤ clk → off (.pgTimeout p cyc) .pgTimeout) ∧
    (f.pg = true → exec (.pgTimeout p cyc) s = .next s) ∧
    (f.gate = true → f.limiting = true → f.faultT * 100000 ≤ f.timer + (clk - f.timerFrom) → off (.faultTimer p cyc) .faultTimer) ∧
    (f.gate = true → f.limiting = false → exec (.faultTimer p cyc) s = .next s) ∧
    (f.gate = true → 1600 < i.toNat → 2000 ≤ ns.toNat → off (.shortTrip p i ns cyc) .shortTrip) ∧
    ((f.gate = false ∨ i.toNat ≤ 1600 ∨ ns.toNat < 2000) → exec (.shortTrip p i ns cyc) s = .next s) ∧
    (f.gate = true → 400 ≤ f.overFor → off (.overload p cyc) .overload) ∧ (f.overFor < 400 → exec (.overload p cyc) s = .next s) ∧
    (s.domOn 12 = true → f.gate = true → (1500 ≤ sensor.toInt ∨ 1500 ≤ model.toInt) →
      off (.thermal p sensor board i vout vbus us cyc) .thermal) ∧
    (s.domOn 12 = true → sensor.toInt < 1500 → model.toInt < 1500 → Does (.thermal p sensor board i vout vbus us cyc) s (fun t =>
      t.fuse k = { hotter with sensor := sensor, model := model } ∧ t.port k = s.port k ∧ one t)) ∧
    (s.domOn 12 = false → exec (.thermal p sensor board i vout vbus us cyc) s = .next s) ∧
    (s.domOn 12 = true → f.gate = false → f.offAt + 100000 ≤ clk → 1000 < vout.toNat → 5000 < us.toNat → s.relay.getLsbD k = false →
      Does (.passFail p vout us cyc) s (fun t =>
        t.relay = setBit s.relay k ∧ (t.fuse k).cause = .passFail ∧ (t.fuse k).st = .relayOpen ∧ (t.fuse k).tripped = true ∧
        (t.fuse k).event = setBit f.event 10 ∧ (t.port k).st = .fault ∧
        (∃ x, t.aonLog.find s.aonNext.toNat = some x ∧ x.code = 0x0A ∧ x.unit = BitVec.ofNat 8 k) ∧ t.aonNext = s.aonNext + 1 ∧
        (∀ j, j ≠ k → t.fuse j = s.fuse j ∧ t.port j = s.port j) ∧
        { t with relay := s.relay, power := s.power, ports := s.ports, aonLog := s.aonLog, aonNext := s.aonNext } = s)) ∧
    ((vout.toNat ≤ 1000 ∨ us.toNat ≤ 5000) → exec (.passFail p vout us cyc) s = .next s) ∧
    (∀ a : BitVec 48, f.st = .wait → f.retryAt = some a → a.toNat ≤ s.now → (f.cause ≠ .thermal ∨ (f.sensor.toInt < 1250 ∧ f.model.toInt < 1250)) →
      s.relay.getLsbD k = false → Does (.retry p) s (fun t =>
        t.fuse k = { f with
          st := .off, retryAt := none, retries := f.retries + 1, retryCnt := satInc f.retryCnt, event := setBit f.event 6 } ∧
        (t.port k).st = .detached ∧ one t)) ∧
    (f.cause = .thermal → 1250 ≤ f.sensor.toInt → exec (.retry p) s = .next s) ∧
    (∀ a : BitVec 48, f.poweredAt = some a → a.toNat + 80000 ≤ s.now → Does (.retryCountClear p) s (fun t =>
      t.fuse k = { f with retries := 0 } ∧ t.port k = s.port k ∧ one t)) ∧
    (f.poweredAt = none → exec (.retryCountClear p) s = .next s)

/-! ## The supply and the switched domains (13, 14) -/

/-- The supply (R434, R435, R444 to R452): shedding of the next port of the order, loss and return of the mains, the last gasp,
POWER_DOWN, and what releases the AON domain. In it log entries 26, 28 and 29 are the model's choice. -/
def Obligations.SupplyEvents : Prop :=
  ∀ (s : State) (bulk ok dc : Bool) (bus : W16) (cyc : Cycle) (p : Nat),
    let x := s.supply
    let only (t : State) : Prop := { t with supply := s.supply } = s
    let logged (t : State) (code : Byte) (v : W32) : Prop :=
      t.aonLog.find s.aonNext.toNat = some { boot := s.boot, tick := s.tick.n, code := code, unit := 0, value := v } ∧
      t.aonNext = s.aonNext + 1
    (s.domOn 12 = true → x.shedding = true → x.shedAt ≠ some s.tick.n → s.shedNext = some p → Does (.overloadShed cyc) s (fun t =>
      (t.fuse p).gate = false ∧ (t.fuse p).cause = .shed ∧ (t.fuse p).tripped = true ∧ (t.port p).st = .fault ∧
      t.supply = { x with shedAt := some s.tick.n } ∧ (∀ k, k ≠ p → t.fuse k = s.fuse k ∧ t.port k = s.port k) ∧
      { t with supply := s.supply, power := s.power, ports := s.ports } = s)) ∧
    ((x.shedding = false ∨ x.shedAt = some s.tick.n) → exec (.overloadShed cyc) s = .next s) ∧
    (s.domOn 12 = true → x.st = .holdup → x.back = false → bus.toNat < 4450 → Does (.mainsShed bus cyc) s (fun t =>
      (∀ k, k < 16 → s.powered k = true → (t.fuse k).gate = false ∧ (t.fuse k).cause = .mainsShed ∧ (t.port k).st = .fault) ∧
      (∀ k, s.powered k = false → t.fuse k = s.fuse k) ∧ t.supply = { x with bus := bus } ∧
      { t with supply := s.supply, power := s.power, ports := s.ports } = s)) ∧
    (x.st = .normal → Does (.mainsShed bus cyc) s (fun t => t.supply = { x with bus := bus } ∧ only t)) ∧
    (x.st = .normal → Does (.mainsLost bulk) s (fun t =>
      t.supply = { x with
        st := .holdup, inputOk := false, lostAt := s.tick.n, back := false, losses := satInc x.losses, event := setBit x.event 0 } ∧
      logged t 0x03 (if bulk then 2 else 1) ∧
      (∀ k, k < 16 → s.portActive k = true → (t.shuttle k).notice = some s.now32) ∧
      (∀ k, s.portActive k = false → t.shuttle k = s.shuttle k) ∧
      { t with supply := s.supply, aonLog := s.aonLog, aonNext := s.aonNext, shuttles := s.shuttles } = s)) ∧
    (x.st = .start → Does (.mainsLost bulk) s (fun t => t.supply = { x with inputOk := false } ∧ only t)) ∧
    (x.st = .holdup → Does .lastGasp s (fun t =>
      t.supply = { x with st := .lastGasp, hold := true, event := setBit x.event 2 } ∧ logged t 0x04 (x.energy.setWidth 32) ∧
      { t with supply := s.supply, aonLog := s.aonLog, aonNext := s.aonNext } = s)) ∧
    (x.st = .normal → exec .lastGasp s = .next s) ∧
    ((x.st = .holdup ∨ x.st = .lastGasp) → x.back = false → Does .mainsBack s (fun t =>
      t.supply = { x with
        back := true, inputOk := true, event := setBit x.event 1
        rides := if x.st = .lastGasp then satInc x.rides else x.rides } ∧
      logged t 0x05 (BitVec.ofNat 32 (s.now - x.lostAt.toNat)) ∧
      { t with supply := s.supply, aonLog := s.aonLog, aonNext := s.aonNext } = s)) ∧
    (x.st = .lastGasp → Does .powerDown s (fun t =>
      t.supply = { x with
        st := .powerDown, back := false, downAt := some s.tick.n, downStep := 0, event := setBit x.event 3 } ∧ only t)) ∧
    (x.st ≠ .lastGasp → exec .powerDown s = .next s) ∧
    (x.st ≠ .start → Does .bankReady s (fun t =>
      t.supply = { x with bankReady := true, event := setBit x.event 4 } ∧ only t)) ∧
    (x.st = .start → x.inputOk = true → Does .bankReady s (fun t =>
      t.supply = { x with bankReady := true, event := setBit x.event 4, st := .normal, release := some 1 } ∧ only t)) ∧
    (x.bankReady = false → x.st = .start → x.inputOk = true → Does .bankFault s (fun t =>
      t.supply = { x with bankFault := true, event := setBit x.event 5, st := .normal, release := some 1 } ∧ only t)) ∧
    (x.bankReady = true → exec .bankFault s = .next s) ∧
    (x.st ≠ .start → Does (.inputQualified ok dc) s (fun t =>
      t.supply = { x with inputOk := ok, dc := if ok then dc else x.dc } ∧ only t)) ∧
    (x.st = .start → x.bankReady = true → Does (.inputQualified true dc) s (fun t =>
      t.supply = { x with inputOk := true, dc := dc, st := .normal, release := some 1 } ∧ only t))

/-- The switched domains (R457 to R462, R465): requests held for the commit, a wake with what the domain requires, power-good, the
attempts and the quarantine after the third, a restore and automatic retention. In it log entries 15, 31 and 33 are the model's choice. -/
def Obligations.DomainCommands : Prop :=
  ∀ (s : State) (l : Link) (d : Dom) (v : W32) (cyc : Cycle) (b : Bool),
    let k := domNum d
    let x := s.dom k
    let clk := s.clockAt cyc
    let write : HWrite := { tgt := .ind (BitVec.ofNat 24 (0x80100 + k * 4)), val := v, sl := none, warden := true }
    let others (t : State) : Prop := ∀ j, j ≠ k → t.dom j = s.dom j
    (s.comWarden = l.toNat →
      HeldInBuffer (.pdRequest l d v) s l write ∧ (v.getLsbD 3 = true → HeldInBuffer (.pdReset l d v) s l write) ∧
      (v.getLsbD 4 = true → HeldInBuffer (.clearQ l d v) s l write)) ∧
    (s.comWarden ≠ l.toNat → exec (.pdRequest l d v) s = .next s ∧ exec (.pdReset l d v) s = .next s ∧ exec (.clearQ l d v) s = .next s) ∧
    ((k = 3 ∨ k = 5 ∨ k = 12) → x.st = .retention → s.supply.hold = false → Does (.domainWake d 3 cyc) s (fun t =>
      t.dom k = { x with
        st := .waking, before := .retention, forOther := false, since := clk, good := false, attempts := 1, cause := 3
        wakes := satInc x.wakes, idle := 0 } ∧
      (∀ r ∈ requires k, (s.dom r).st = .off ∨ (s.dom r).st = .retention → (t.dom r).st = .waking ∧ (t.dom r).forOther = true) ∧
      { t with doms := s.doms } = s)) ∧
    (x.st = .off → exec (.domainWake d 3 cyc) s = .next s) ∧
    (x.st = .waking → x.since ≤ clk → clk ≤ x.since + 50000 → Does (.domainPowerGood d cyc) s (fun t =>
      t.dom k = { x with good := true } ∧ others t ∧ { t with doms := s.doms } = s)) ∧
    (x.since + 50000 < clk → exec (.domainPowerGood d cyc) s = .next s) ∧
    (x.st = .waking → x.good = false → x.since + 50000 ≤ clk → x.attempts.toNat < 3 → Does (.wakeAttemptFail d b cyc) s (fun t =>
      t.dom k = { x with
        since := x.since + 50000 + 12500 * x.attempts.toNat, attempts := x.attempts + 1, event := setBit x.event 3 } ∧ others t ∧
      { t with doms := s.doms } = s)) ∧
    (x.st = .waking → x.good = false → x.since + 50000 ≤ clk → x.attempts = 3 → Does (.wakeAttemptFail d b cyc) s (fun t =>
      (t.dom k).st = .quarantined ∧ (t.dom k).event = setBit (setBit x.event 3) 4 ∧
      t.aonLog.find s.aonNext.toNat = some { boot := s.boot, tick := s.tick.n, code := 0x07, unit := BitVec.ofNat 8 k
                                             value := if b then 2 else 1 } ∧
      (∀ q ∈ portsOfDom k, (t.port q).st = .contained))) ∧
    (x.st ≠ .waking → exec (.wakeAttemptFail d b cyc) s = .next s) ∧
    (x.auto = true → x.req = .on → x.st = .on → 64 ≤ x.idle → (k = 1 ∨ k = 5 ∨ k = 8 ∨ k = 12) → Does (.autoRetention d true) s (fun t =>
      t.dom k = { x with autoNow := true } ∧ others t ∧ { t with doms := s.doms } = s)) ∧
    (x.idle < 64 → exec (.autoRetention d b) s = .next s) ∧
    (x.st = .restoring → k = 10 → s.domPorts.get [] k = [] → x.resetRun = false → Does (.domainRestored d) s (fun t =>
      t.dom k = { x with st := .on, good := false, idle := 0, event := setBit x.event 0 } ∧ others t ∧
      { t with doms := s.doms, domPorts := s.domPorts.del k } = { s with domPorts := s.domPorts.del k })) ∧
    (x.st = .restoring → k = 8 → Does (.domainRestored d) s (fun t =>
      (t.dom k).st = .on ∧ (∀ j, t.queue j = (s.queue j).journal) ∧ (∀ j, t.chan j = (s.chan j).journal) ∧ t.qcons = [] ∧ t.qstat = [])) ∧
    (x.st = .restoring → k = 1 → Does (.domainRestored d) s (fun t =>
      (t.dom k).st = .on ∧ (t.link 0).up = true ∧ (t.link 1).up = true ∧ t.link 2 = s.link 2 ∧ t.link 3 = s.link 3)) ∧
    (x.st ≠ .restoring → exec (.domainRestored d) s = .next s)

/-! ## Metrology (15), faults and probes (17), the watchman port (17) -/

/-- The receiver and the raw streams (R474 to R478, R485, R488, R489): a damaged frame is counted and dropped, a valid one gives status
and EP1 for the commit, 8 frames declare the cartridge present and 8 silent ticks absent, RAW_CTL waits for the commit, a held block goes
out as one descriptor, and a P16 transfer in progress is served. In it log entries 66, 76 and 94 are the model's choice. -/
def Obligations.MetrologyCommands : Prop :=
  ∀ (s : State) (f : List Byte) (l : Link) (w : BitVec 4) (v : W32) (sl : Slice) (q : QNum) (pos : BitVec 17) (e : Entry) (i : Nat)
    (b : List Byte) (rest : List (List Byte)) (k : Nat),
    let m := s.met
    let valid := f.length = 184 ∧ leAt f 0 2 = 0x5A47 ∧ leAt f 180 4 = (crc32 ((f.drop 2).take 178)).toNat
    let x := s.raw sl.toNat
    (s.domOn 10 = true → m.got = false → ¬valid → Does (.metroFrame f) s (fun t =>
      t.met = { m with crcErr := satInc m.crcErr, valid := 0, event := setBit m.event 2 } ∧ { t with met := s.met } = s)) ∧
    (s.domOn 10 = true → m.got = false → valid → Does (.metroFrame f) s (fun t =>
      t.met.got = true ∧ t.met.valid = m.valid + 1 ∧ t.met.silent = 0 ∧ t.met.status = BitVec.ofNat 16 (leAt f 4 2) ∧
      t.met.lastSeq = some (BitVec.ofNat 16 (leAt f 2 2)) ∧
      t.metFresh.ep1 = ep1Of (if s.metFresh.ep1.length = 128 then s.metFresh.ep1 else List.replicate 104 0 ++ s.freeBytes 24)
        ((s.tick.n - 1).setWidth 32) ((f.drop 56).take 100) ((f.drop 156).take 24) (leAt f 6 1 == 0) ∧
      (s.metFresh.ep1.length = 128 ∨ leAt f 6 1 = 0 → t.freeCount = s.freeCount) ∧
      t.metPub = s.metPub ∧ { t with met := s.met, raws := s.raws, raised := s.raised, freeCount := s.freeCount } = s)) ∧
    (m.got = true → exec (.metroFrame f) s = .next s) ∧
    (s.domOn 10 = true → 8 ≤ m.valid → s.metFresh.present = false → Does .cartridgePresent s (fun t =>
      t.metFresh = { s.metFresh with present := true } ∧ t.met.event = setBit m.event 0 ∧ t.met.stale = false ∧
      t.met.presentAt = some s.tick.n ∧ t.met.enumerate = (s.devAt 16 []).isNone ∧ t.metPub = s.metPub ∧ { t with met := s.met } = s)) ∧
    (m.valid < 8 → exec .cartridgePresent s = .next s) ∧
    (s.domOn 10 = true → 8 ≤ m.silent → s.metFresh.present = true → Does .cartridgeAbsent s (fun t =>
      t.metFresh = { s.metFresh with present := false, log := [] } ∧ t.met.event = setBit m.event 1 ∧ t.met.gone = true ∧
      t.met.presentAt = none ∧ t.met.pages = [] ∧ t.met.nextLog = none ∧ { t with met := s.met } = s)) ∧
    (m.silent < 8 → exec .cartridgeAbsent s = .next s) ∧
    (s.windowSlice l.toNat w.toNat = some sl.toNat →
      HeldInBuffer (.rawCtlWrite l w v) s l { tgt := .bar (windowOff w.toNat 0x400), val := v, sl := some sl, warden := false }) ∧
    (x.held = b :: rest → s.exportFree x.chan.toNat = true → s.chanOwner x.chan.toNat = sl.toNat → s.chanWorks x.chan.toNat = true →
      Does (.rawBlock sl) s (fun t =>
        t.raw sl.toNat = { x with held := rest, index := (x.index + 1) % 2 ^ x.log2 } ∧
        (t.chan x.chan.toNat).st = .running ∧ (t.chan x.chan.toNat).data = b ∧ (t.chan x.chan.toNat).job = some (.raw sl) ∧
        (∃ d : Desc, (t.chan x.chan.toNat).active = some d ∧ d.w1 = x.base + BitVec.ofNat 64 (x.index * 4096) ∧
          d.w2 = BitVec.ofNat 64 (b.length * 2 ^ 32 + x.index * 2 ^ 16)) ∧
        (∀ k, k ≠ x.chan.toNat → t.chan k = s.chan k) ∧ { t with raws := s.raws, chans := s.chans } = s)) ∧
    (x.held = [] → exec (.rawBlock sl) s = .next s) ∧
    (s.p16Next sl.toNat = some (q.toNat, e, i) → e.pos = pos → s.inProgress i sl.toNat q.toNat pos = true →
      s.transferOf i = some (q.toNat, e) → s.working = true → s.works sl.toNat = true → m.served < 64 → s.domOn 10 = true →
      e.handle % 16 ≠ 0 → Does (.p16Transfer sl q pos) s (fun t =>
        t.met = { m with served := m.served + 1, p16Pass := some q.toNat } ∧
        (∃ r ∈ t.cplPend, r.slice = sl ∧ r.queue = q ∧ r.pos = pos ∧
          r.c0 = cplC0 e (if (s.devXAt (e.handle / 16)).configured then 0 else stStall)) ∧
        (∀ r ∈ s.cplPend, r ∈ t.cplPend) ∧ t.metPub = s.metPub)) ∧
    (s.p16Next sl.toNat = some (k, e, i) → (k ≠ q.toNat ∨ e.pos ≠ pos) → exec (.p16Transfer sl q pos) s = .next s) ∧
    ((s.p16Next sl.toNat = none ∨ 64 ≤ m.served) → exec (.p16Transfer sl q pos) s = .next s)

/-- Injection, line probes, insulation and mains surges (R521 to R523, R525 to R528): arming by the warden is logged, an armed point
reports its detector or skips the tick, a shot result and an insulation value are recorded, and a surge is counted and logged. In it log
entries 75, 77 and 78 are the model's choice. -/
def Obligations.InjectionProbesAndSurges : Prop :=
  ∀ (s : State) (l : Link) (d : Detector) (v : W32) (p : Port) (slot : BitVec 14) (res : TdrEnd) (cyc : Cycle) (kohm : W32) (peak : W16)
    (u : Nat),
    let x := s.det d.toNat
    let y := s.probe p.toNat
    let n := tdrShots (some slot)
    let result := tdrResult y.vf.toNat n res
    let logged (t : State) (code unit : Byte) (val : W32) : Prop :=
      t.aonLog.find s.aonNext.toNat = some { boot := s.boot, tick := s.tick.n, code := code, unit := unit, value := val } ∧
      t.aonNext = s.aonNext + 1
    (s.comWarden = l.toNat → v.getLsbD 31 = true → Does (.injCtlWrite l d v) s (fun t =>
      (t.det d.toNat).arm = true ∧ (t.det d.toNat).injCount = BitVec.ofNat 8 (v.toNat / 2 ^ 16) ∧
      (t.det d.toNat).cycle = v.setWidth 14 ∧ (t.det d.toNat).made = 0 ∧ (t.det d.toNat).count = x.count ∧
      logged t 0x21 (BitVec.ofNat 8 d.toNat) (BitVec.ofNat 32 (max 1 (v.toNat / 2 ^ 16 % 256))) ∧
      (∀ k, k ≠ d.toNat → t.det k = s.det k) ∧ { t with dets := s.dets, aonLog := s.aonLog, aonNext := s.aonNext } = s)) ∧
    (s.comWarden = l.toNat → v.getLsbD 31 = false → Does (.injCtlWrite l d v) s (fun t =>
      (t.det d.toNat).arm = false ∧ (t.det d.toNat).count = x.count ∧ (∀ k, k ≠ d.toNat → t.det k = s.det k) ∧
      { t with dets := s.dets } = s)) ∧
    (s.comWarden ≠ l.toNat → exec (.injCtlWrite l d v) s = .next s) ∧
    (x.arm = true → (s.now32 - x.start).toNat < 2 ^ 31 → x.doneAt ≠ some s.now32 → s.tick.selvage = false →
      (s.injectUnit d.toNat = some u → Does (.injection d) s (fun t =>
        t.tick = { s.tick with
          reports := s.tick.reports ++ [{ det := d, unit := BitVec.ofNat 8 u, injected := true }], stopped := true } ∧
        (t.det d.toNat).made = x.made + 1 ∧ (t.det d.toNat).doneAt = some s.now32 ∧ (t.det d.toNat).count = satInc x.count ∧
        (t.det d.toNat).arm = decide (x.made + 1 < max 1 x.injCount.toNat) ∧ t.injMade = satInc s.injMade ∧
        logged t 0x20 (BitVec.ofNat 8 d.toNat) (BitVec.ofNat 32 ((BitVec.ofNat 8 u).toNat * 2 ^ 24 + 1)) ∧
        t.dtPend.getLsbD d.toNat = true ∧
        (s.tick.stopped = true → t.out = s.out ∧ t.shuttles = s.shuttles) ∧
        { t with
          tick := s.tick, aonLog := s.aonLog, aonNext := s.aonNext, dets := s.dets, dtPend := s.dtPend, injMade := s.injMade
          out := s.out, shuttles := s.shuttles } = s)) ∧
      (s.injectUnit d.toNat = none → Does (.injection d) s (fun t =>
        t.det d.toNat = { x with doneAt := some s.now32 } ∧ t.injSkipped = satInc s.injSkipped ∧
        { t with dets := s.dets, injSkipped := s.injSkipped } = s))) ∧
    ((x.arm = false ∨ s.tick.selvage = true) → exec (.injection d) s = .next s) ∧
    (s.domOn 10 = true → s.portActive p.toNat = true → s.inSlot p.toNat slot = true → Does (.tdrProbe p (some slot) res cyc) s (fun t =>
      (t.probe p.toNat).tdr = result ∧ (t.probe p.toNat).tdrTick = s.now32 ∧ (t.probe p.toNat).probed = s.tick.n ∧
      (t.probe p.toNat).event.getLsbD 0 = true ∧ (tdrChanged y.tdr result = true → (t.probe p.toNat).event.getLsbD 1 = true) ∧
      (n = 0 → t.out = s.out) ∧ (n ≠ 0 → t.out = s.out ++ [.tdr p]) ∧ (∀ k, k ≠ p.toNat → t.probe k = s.probe k) ∧
      { t with probes := s.probes, out := s.out } = s)) ∧
    ((n = 0 → result = 0x6000FFFF) ∧ (n ≠ 0 → (res = .busy → result = 0x5000FFFF) ∧ (res = .noisy → result = 0x7000FFFF) ∧
      (res = .done [] → result = BitVec.ofNat 32 (0x10000000 + min n 15 * 2 ^ 24 + 0xFFFF)) ∧
      (∀ echo, 10 ≤ echo.rho.toNat → tdrMetres y.vf.toNat echo.delay.toNat ≤ 10000 → res = .done [echo] →
        tdrKind result = (if echo.rho.toNat < 50 then 4 else if echo.inverted then 3 else 2) ∧
        tdrDist result = tdrMetres y.vf.toNat echo.delay.toNat))) ∧
    (s.portActive p.toNat = true → exec (.tdrProbe p none res cyc) s = .next s) ∧
    (s.domOn 10 = true → y.irEn = true → y.irAt.toNat + 3200 ≤ s.now → y.irHalf = false → 100 ≤ kohm.toNat → kohm.toNat ≤ 100000 →
      Does (.irResult p kohm) s (fun t =>
        t.probe p.toNat = { y with ir := kohm, irTick := s.now32, irAt := s.tick.n, event := setBit y.event 2 } ∧
        (∀ k, k ≠ p.toNat → t.probe k = s.probe k) ∧ { t with probes := s.probes } = s)) ∧
    (s.domOn 10 = true → y.irEn = true → y.irAt.toNat + 3200 ≤ s.now → y.irHalf = false → kohm.toNat < 100 →
      Does (.irResult p kohm) s (fun t => (t.probe p.toNat).ir = 0 ∧ (t.probe p.toNat).event = setBit (setBit y.event 2) 3)) ∧
    (y.irEn = false → exec (.irResult p kohm) s = .next s) ∧
    (1000 < peak.toNat → Does (.surgeMains peak) s (fun t =>
      t.surgeMainsCnt = satInc s.surgeMainsCnt ∧ t.surgeMainsPeak = peak ∧ logged t 0x30 0 (peak.setWidth 32) ∧
      { t with
        surgeMainsCnt := s.surgeMainsCnt, surgeMainsPeak := s.surgeMainsPeak, aonLog := s.aonLog, aonNext := s.aonNext } = s)) ∧
    (peak.toNat ≤ 1000 → exec (.surgeMains peak) s = .next s)

/-- The watchman port (R364, R531 to R537): the order of the checks of a request, the lockout after sixteen failures, what an accepted
command answers at once or holds for the commit, its refusals, and a frame broken off. In it log entries 74 and 79 are the
model's choice. -/
def Obligations.WatchmanCommands : Prop :=
  ∀ (s : State) (f : WmFrame) (c : WmCmd) (seq : W32) (p d n : Byte) (first : W16) (key got rest : List Byte) (port : Port),
    let w := s.watch
    let t0 := f.typ.toNat
    let w0 := { w with rx := [], station := none }
    let reply (kw : List Byte) (typ : Nat) (sq : W32) (st : Byte) (data : List Byte) (accepted : Bool) : Out :=
      let r : WmFrame := { addr := w.addr, typ := BitVec.ofNat 8 (typ + 0x80), payload := st :: data, seq := sq, mac := [], crc := 0 }
      .watchman (wmBytes (wmClose (if accepted then wmMac kw r else List.replicate 8 0) r))
    let answers (i : Instr) (typ : Nat) (sq : W32) (st : Byte) (data : List Byte) (acc : Bool) (w' : WatchS) : Prop := Does i s (fun t =>
      t.out = s.out ++ [reply w.key typ sq st data acc] ∧ t.watch = w' ∧ { t with watch := s.watch, out := s.out } = s)
    let holds (i : Instr) : Prop := Does i s (fun t =>
      t.watch = { w with req := none, wait := some (c, seq) } ∧ t.out = s.out ∧ { t with watch := s.watch } = s)
    let whole : Prop := w.rx = got ∧ got ++ rest = wmBytes f ∧ f.payload.length < 65536 ∧ f.mac.length = 8
    let ask : Prop := whole ∧ f.crc = wmCrc f ∧ f.addr = w.hears
    let idle : Prop := w.locked = none ∧ w.commissioned = true ∧ w.wait = none ∧ w.req = none
    (w.rx = [] → f.payload.length < 65536 → f.mac.length = 8 → got ++ rest = wmBytes f → rest ≠ [] →
      Does (.watchmanRequest got) s (fun t => t.watch = { w with rx := got } ∧ { t with watch := s.watch } = s)) ∧
    (whole → f.crc ≠ wmCrc f → Does (.watchmanRequest rest) s (fun t =>
      t.watch = { w0 with event := setBit w.event 2 } ∧ t.out = s.out ∧ { t with watch := s.watch } = s)) ∧
    (whole → f.crc = wmCrc f → f.addr ≠ w.hears → Does (.watchmanRequest rest) s (fun t =>
      t.watch = w0 ∧ { t with watch := s.watch } = s)) ∧
    (ask → w.locked ≠ none → answers (.watchmanRequest rest) t0 f.seq 6 [] false w0) ∧
    (ask → w.locked = none → w.commissioned = false → t0 ≠ 0 → t0 ≠ 0x10 → answers (.watchmanRequest rest) t0 f.seq 7 [] false w0) ∧
    (ask → w.locked = none → w.commissioned = true → (w.wait ≠ none ∨ w.req ≠ none) → answers (.watchmanRequest rest) t0 f.seq 5 [] false w0) ∧
    (ask → idle → t0 ≠ 0 → t0 ≠ 0x10 → (f.mac ≠ wmMac w.key f ∨ f.seq.toNat ≤ w.seq.toNat) → w.run + 1 < 16 →
      answers (.watchmanRequest rest) t0 f.seq (if f.mac ≠ wmMac w.key f then 1 else 2) [] false
        { w0 with failed := satInc w.failed, run := w.run + 1, event := setBit w.event 1 }) ∧
    (ask → idle → t0 ≠ 0 → t0 ≠ 0x10 → f.mac ≠ wmMac w.key f → w.run = 15 → Does (.watchmanRequest rest) s (fun t =>
      t.watch.locked = some (BitVec.ofNat 48 (s.now + 4800000)) ∧ t.watch.run = 0 ∧ t.watch.failed = satInc w.failed ∧
      t.aonNext = s.aonNext + 1 ∧ t.watch.seq = w.seq ∧ t.watch.req = none)) ∧
    (ask → idle → t0 ≠ 0 → t0 ≠ 0x10 → f.mac = wmMac w.key f → w.seq.toNat < f.seq.toNat → wmParse f.typ f.payload = some c →
      Does (.watchmanRequest rest) s (fun t =>
        t.watch = { w0 with
          seq := f.seq, accepted := satInc w.accepted, run := 0, req := some (c, f.seq), event := setBit w.event 0 } ∧
        t.aonLog.find s.aonNext.toNat = some { boot := s.boot, tick := s.tick.n, code := 0x28, unit := BitVec.ofNat 8 c.typ
                                               value := f.seq } ∧
        t.out = s.out ∧ { t with watch := s.watch, aonLog := s.aonLog, aonNext := s.aonNext } = s)) ∧
    (ask → idle → (t0 = 0 ∨ t0 = 0x10) → wmParse f.typ f.payload = some c → Does (.watchmanRequest rest) s (fun t =>
      t.watch = { w0 with req := some (c, f.seq) } ∧ { t with watch := s.watch } = s)) ∧
    (∀ a : BitVec 48, w.locked = some a → a.toNat ≤ s.now → Does .lockoutEnd s (fun t =>
      t.watch = { w with locked := none } ∧ { t with watch := s.watch } = s)) ∧
    (w.locked = none → exec .lockoutEnd s = .next s) ∧ Does .byteGapTimeout s (fun t => t.watch = w0 ∧ { t with watch := s.watch } = s) ∧
    (w.req = some (.getSeq, seq) →
      answers .getSeq 0 seq 0 (leBytes 4 w.seq.toNat ++ leBytes 8 Config.serial.toNat) false { w with req := none }) ∧
    (w.req = some (.readDigest, seq) → answers .readDigest 1 seq 0 s.digest true { w with req := none } ∧ s.digest.length = 256) ∧
    (w.req = some (.readLog first n, seq) →
      answers .readLog 5 seq 0 (((List.range n.toNat).map (fun k => s.aonBytes (first.toNat + k))).flatten) true { w with req := none }) ∧
    (w.req = some (.powerCycle p n, seq) → (s.cycleRefused p.toNat = true → answers .powerCyclePort 2 seq 4 [] true { w with req := none }) ∧
      (s.cycleRefused p.toNat = false → c = .powerCycle p n → holds .powerCyclePort)) ∧
    (w.req = some (.resetDomain d, seq) →
      ((d = 7 ∨ d = 9) → answers .resetDomain 3 seq 4 [] true { w with req := none }) ∧
      (d ≠ 7 → d ≠ 9 → s.supply.hold = false → c = .resetDomain d → holds .resetDomain)) ∧
    (w.req = some (.wardenLink d, seq) →
      (d.toNat = s.comWarden → answers .wardenLink 4 seq 0 [] true { w with req := none }) ∧
      (d.toNat ≠ s.comWarden → s.moveRefused d.toNat = true → answers .wardenLink 4 seq 4 [] true { w with req := none }) ∧
      (d.toNat ≠ s.comWarden → s.moveRefused d.toNat = false → c = .wardenLink d → holds .wardenLink)) ∧
    (w.req = some (.rekey key, seq) → (w.unwrap key ≠ none → c = .rekey key → holds .rekey) ∧
      (w.unwrap key = none → answers .rekey 0x11 seq 3 [] true { w with req := none })) ∧
    (w.req = some (.commission key d, seq) → (w.commissioned = true → answers .commission 0x10 seq 4 [] false { w with req := none }) ∧
      (w.commissioned = false → s.now < 14400000 → s.moveRefused d.toNat = false → Does .commission s (fun t =>
        t.watch = { w with
          accepted := satInc w.accepted, run := 0, req := none, wait := some (.commission key d, seq), event := setBit w.event 0 } ∧
        t.aonNext = s.aonNext + 1 ∧ t.out = s.out ∧ { t with watch := s.watch, aonLog := s.aonLog, aonNext := s.aonNext } = s))) ∧
    (w.req = none → exec .getSeq s = .next s ∧ exec .readDigest s = .next s ∧ exec .readLog s = .next s ∧
      exec .powerCyclePort s = .next s ∧ exec .resetDomain s = .next s ∧ exec .wardenLink s = .next s ∧
      exec .commission s = .next s ∧ exec .rekey s = .next s) ∧
    (∀ a : BitVec 48, w.cycles = [(port.toNat, a)] → a.toNat ≤ s.now → Does (.powerCycleRestore port) s (fun t =>
      t.watch = { w with cycles := [], restore := w.restore ++ [port.toNat] } ∧ { t with watch := s.watch } = s)) ∧
    (w.cycles = [] → exec (.powerCycleRestore port) s = .next s) ∧
    (w.restore = [] → w.wait = some (.powerCycle p n, seq) → let t := s.commitWatch;
      t.psetAt p.toNat = { s.psetAt p.toNat with on := false, offCause := .offCmd, onSet := true } ∧ (∀ k, k ≠ p.toNat → t.psetAt k = s.psetAt k) ∧
      t.watch = { w with
        wait := none
        cycles := w.cycles.filter (fun y => y.1 != p.toNat) ++ [(p.toNat, BitVec.ofNat 48 (s.now + n.toNat * 8000))] } ∧
      t.out = s.out ++ [reply w.key 2 seq 0 [] true] ∧ { t with pset := s.pset, watch := s.watch, out := s.out } = s) ∧
    (w.restore = [] → w.wait = some (.rekey key, seq) → ∀ new, w.unwrap key = some new → let t := s.commitWatch;
      t.watch = { w with wait := none, key := new, event := setBit w.event 4 } ∧ t.aonNext = s.aonNext + 1 ∧
      t.out = s.out ++ [reply new 0x11 seq 0 [] true] ∧
      { t with watch := s.watch, aonLog := s.aonLog, aonNext := s.aonNext, out := s.out } = s)

/-! ## What every step keeps -/

/-- TickInv at reset (R30, R50). In it log entry 7 is the model's choice. -/
def Obligations.TickInvAtReset : Prop := TickInv State.reset

/-- Every command, and the idling of an empty queue, keeps TickInv (R30, R32 to R36, R44). -/
def Obligations.TickInvIsKept : Prop := ∀ s t : State, TickInv s → step s = .next t → TickInv t
end

