-- ==== Sys2Proof/Laws/Crypto.lean ====
section
/-! SUPPORT. The tables of AES agree with the substitution's construction in the field (FIPS 197, 5.1.1), and the inverse table undoes the
table; the lengths of digests and MACs. -/
namespace Sys2Proof.Machine

open Sys2Proof

/-- The inverse in the field of AES, 0 for 0: the 254th power. -/
def gfInv (a : Byte) : Byte := (List.range 7).foldl (fun r _ => gfMul (gfMul r r) a) 1 |> fun x => gfMul x x

/-- The S-box is the affine map of the inverse. -/
theorem sBox_eq : ∀ a : Byte, sBox a =
    gfInv a ^^^ (gfInv a).rotateLeft 1 ^^^ (gfInv a).rotateLeft 2 ^^^ (gfInv a).rotateLeft 3 ^^^ (gfInv a).rotateLeft 4 ^^^ 0x63 := by
  decide +kernel

/-- The inverse S-box undoes the S-box. -/
theorem sBoxInv_sBox : ∀ a : Byte, sBoxInv (sBox a) = a := by decide +kernel

/-! ## Lengths -/

/-- A round keeps the eight words. -/
theorem shaRound_length (v : List W32) (x : W32 × W32) (h : v.length = 8) : (shaRound v x).length = 8 := by
  match v, h with
  | [a, b, c, d, e, f, g, k], _ => rfl
theorem shaRounds_length (xs : List (W32 × W32)) (v : List W32) (h : v.length = 8) : (xs.foldl shaRound v).length = 8 := by
  induction xs generalizing v with
  | nil => exact h
  | cons x xs ih => exact ih _ (shaRound_length v x h)
theorem shaBlock_length (h : List W32) (b : List Byte) (hh : h.length = 8) : (shaBlock h b).length = 8 := by
  simp [shaBlock, shaRounds_length _ _ hh, hh]
theorem shaBlocks_length (bs : List (List Byte)) (h : List W32) (hh : h.length = 8) : (bs.foldl shaBlock h).length = 8 := by
  induction bs generalizing h with
  | nil => exact hh
  | cons b bs ih => exact ih _ (shaBlock_length h b hh)

@[simp] theorem beOf_length (n v : Nat) : (beOf n v).length = n := by simp [beOf]
/-- A digest has 32 bytes. -/
@[simp] theorem sha256_length (bs : List Byte) : (sha256 bs).length = 32 := by
  simp [sha256, List.length_flatten, Function.comp_def, List.map_const', shaBlocks_length _ shaH rfl]
@[simp] theorem hmac_length (k m : List Byte) : (hmac k m).length = 32 := by simp [hmac]
/-- A MAC of the watchman port has 8 bytes (R531). -/
@[simp] theorem wmMac_length (k : List Byte) (f : WmFrame) : (wmMac k f).length = 8 := by simp [wmMac]

end Sys2Proof.Machine
end

