-- ==== Sys2Proof/Laws/Tab.lean ====
section
/-! SUPPORT. Tables by number and items in two versions: what reading after writing gives. -/
namespace Sys2Proof.Machine

open Sys2Proof

theorem Tab.find_set {α : Type} (t : Tab α) (k : Nat) (x : α) : (t.set k x).find k = some x := by
  induction t with
  | nil => simp [Tab.set, Tab.find]
  | cons a t ih => simp only [Tab.set]; split <;> (try split) <;> simp_all [Tab.find]; omega

@[simp] theorem Tab.get_set {α : Type} (d : α) (t : Tab α) (k : Nat) (x : α) : (t.set k x).get d k = x := by
  induction t with
  | nil => simp [Tab.set, Tab.get]
  | cons a t ih => simp only [Tab.set]; split <;> (try split) <;> simp_all [Tab.get]; omega

theorem Tab.get_set_ne {α : Type} (d : α) (t : Tab α) (k j : Nat) (x : α) (h : j ≠ k) :
    (t.set k x).get d j = t.get d j := by
  induction t with
  | nil => simp [Tab.set, Tab.get]; omega
  | cons a t ih =>
    obtain ⟨i, y⟩ := a
    simp only [Tab.set]
    split
    · simp only [Tab.get]; rw [if_neg (by omega)]
    · split
      · simp only [Tab.get]; rw [if_neg (by omega), if_neg (by omega)]
      · simp only [Tab.get, ih]

theorem Tab.find_set_ne {α : Type} (t : Tab α) (k j : Nat) (x : α) (h : j ≠ k) : (t.set k x).find j = t.find j := by
  induction t with
  | nil => simp [Tab.set, Tab.find]; omega
  | cons a t ih =>
    obtain ⟨i, y⟩ := a
    simp only [Tab.set]
    split
    · simp only [Tab.find]; rw [if_neg (by omega)]
    · split
      · simp only [Tab.find]; rw [if_neg (by omega), if_neg (by omega)]
      · simp only [Tab.find, ih]

/-- Reading any entry after a write. -/
theorem Tab.get_set_cases {α : Type} (d : α) (t : Tab α) (k j : Nat) (x : α) :
    (t.set k x).get d j = if j = k then x else t.get d j := by
  split
  · subst_vars; simp
  · exact Tab.get_set_ne d t k j x ‹_›

@[simp] theorem Tab.get_upd {α : Type} (d : α) (t : Tab α) (k : Nat) (f : α → α) : (t.upd d k f).get d k = f (t.get d k) := by
  simp [Tab.upd]

theorem Tab.get_upd_ne {α : Type} (d : α) (t : Tab α) (k j : Nat) (f : α → α) (h : j ≠ k) :
    (t.upd d k f).get d j = t.get d j := by
  simp [Tab.upd, Tab.get_set_ne d t k j _ h]

/-- A table that lists an entry lists it after every change of entries. -/
theorem Tab.set_ne_nil {α : Type} (t : Tab α) (k : Nat) (x : α) : t.set k x ≠ [] := by
  cases t <;> simp only [Tab.set] <;> (try split) <;> (try split) <;> simp

theorem Tab.get_mapV {α β : Type} (f : α → β) (d : α) (t : Tab α) (k : Nat) : (t.mapV f).get (f d) k = f (t.get d k) := by
  induction t with
  | nil => rfl
  | cons a t ih => simp only [Tab.mapV, List.map, Tab.get] at *; split <;> simp_all

@[simp] theorem Ver.cur_put {α : Type} (e : W32) (x : α) (v : Ver α) : (v.put e x).cur = x := rfl

@[simp] theorem Ver.comAt_put {α : Type} (e : W32) (x : α) (v : Ver α) : (v.put e x).comAt e = v.comAt e := by
  simp [Ver.put, Ver.comAt]

@[simp] theorem Ver.cur_of {α : Type} (x : α) : (Ver.of x).cur = x := rfl

@[simp] theorem Ver.comAt_of {α : Type} (e : W32) (x : α) : (Ver.of x).comAt e = x := rfl

@[simp] theorem Tab.cur_putBy {α : Type} (d : α) (e : W32) (t : Tab (Ver α)) (k : Nat) (f : α → α) :
    (t.putBy d e k f).cur d k = f (t.cur d k) := by
  simp [Tab.putBy, Tab.put, Tab.cur]

theorem Tab.cur_putBy_ne {α : Type} (d : α) (e : W32) (t : Tab (Ver α)) (k j : Nat) (f : α → α) (h : j ≠ k) :
    (t.putBy d e k f).cur d j = t.cur d j := by
  simp [Tab.putBy, Tab.put, Tab.cur, Tab.get_set_ne _ _ _ _ _ h]

@[simp] theorem Tab.comAt_putBy {α : Type} (d : α) (e : W32) (t : Tab (Ver α)) (k j : Nat) (f : α → α) :
    (t.putBy d e k f).comAt d e j = t.comAt d e j := by
  simp only [Tab.putBy, Tab.put, Tab.comAt, Tab.get_set_cases]
  split <;> simp_all

end Sys2Proof.Machine
end

