-- ==== Sys2Proof/Laws/State.lean ====
section
/-! SUPPORT. The changes of the parts of the state: what each reads back, what the committed version shows, and that nothing else
changes. -/
namespace Sys2Proof.Machine

open Sys2Proof

@[simp] theorem State.updSlice_slice (s : State) (k : Nat) (f : SliceS → SliceS) : (s.updSlice k f).slice k = f (s.slice k) :=
  Tab.cur_putBy _ _ _ _ _
theorem State.updSlice_slice_ne (s : State) (k j : Nat) (f : SliceS → SliceS) (h : j ≠ k) : (s.updSlice k f).slice j = s.slice j :=
  Tab.cur_putBy_ne _ _ _ _ _ _ h
@[simp] theorem State.updSlice_comSlice (s : State) (k j : Nat) (f : SliceS → SliceS) : (s.updSlice k f).comSlice j = s.comSlice j :=
  Tab.comAt_putBy _ _ _ _ _ _
@[simp] theorem State.updSlice_frame (s : State) (k : Nat) (f : SliceS → SliceS) : ({ s.updSlice k f with slices := s.slices } : State) = s := rfl

@[simp] theorem State.updAttach_attachAt (s : State) (k : Nat) (f : Option (Sys2Proof.Slice × Bool) → Option (Sys2Proof.Slice × Bool)) : (s.updAttach k f).attachAt k = f (s.attachAt k) :=
  Tab.cur_putBy _ _ _ _ _
theorem State.updAttach_attachAt_ne (s : State) (k j : Nat) (f : Option (Sys2Proof.Slice × Bool) → Option (Sys2Proof.Slice × Bool)) (h : j ≠ k) : (s.updAttach k f).attachAt j = s.attachAt j :=
  Tab.cur_putBy_ne _ _ _ _ _ _ h
@[simp] theorem State.updAttach_comAttach (s : State) (k j : Nat) (f : Option (Sys2Proof.Slice × Bool) → Option (Sys2Proof.Slice × Bool)) : (s.updAttach k f).comAttach j = s.comAttach j :=
  Tab.comAt_putBy _ _ _ _ _ _
@[simp] theorem State.updAttach_frame (s : State) (k : Nat) (f : Option (Sys2Proof.Slice × Bool) → Option (Sys2Proof.Slice × Bool)) : ({ s.updAttach k f with attach := s.attach } : State) = s := rfl

@[simp] theorem State.updPlan_planAt (s : State) (k : Nat) (f : Option DevId → Option DevId) : (s.updPlan k f).planAt k = f (s.planAt k) :=
  Tab.cur_putBy _ _ _ _ _
theorem State.updPlan_planAt_ne (s : State) (k j : Nat) (f : Option DevId → Option DevId) (h : j ≠ k) : (s.updPlan k f).planAt j = s.planAt j :=
  Tab.cur_putBy_ne _ _ _ _ _ _ h
@[simp] theorem State.updPlan_comPlan (s : State) (k j : Nat) (f : Option DevId → Option DevId) : (s.updPlan k f).comPlan j = s.comPlan j :=
  Tab.comAt_putBy _ _ _ _ _ _
@[simp] theorem State.updPlan_frame (s : State) (k : Nat) (f : Option DevId → Option DevId) : ({ s.updPlan k f with plan := s.plan } : State) = s := rfl

@[simp] theorem State.updSrcCfg_srcCfgAt (s : State) (k : Nat) (f : SrcCfg → SrcCfg) : (s.updSrcCfg k f).srcCfgAt k = f (s.srcCfgAt k) :=
  Tab.cur_putBy _ _ _ _ _
theorem State.updSrcCfg_srcCfgAt_ne (s : State) (k j : Nat) (f : SrcCfg → SrcCfg) (h : j ≠ k) : (s.updSrcCfg k f).srcCfgAt j = s.srcCfgAt j :=
  Tab.cur_putBy_ne _ _ _ _ _ _ h
@[simp] theorem State.updSrcCfg_comSrcCfg (s : State) (k j : Nat) (f : SrcCfg → SrcCfg) : (s.updSrcCfg k f).comSrcCfg j = s.comSrcCfg j :=
  Tab.comAt_putBy _ _ _ _ _ _
@[simp] theorem State.updSrcCfg_frame (s : State) (k : Nat) (f : SrcCfg → SrcCfg) : ({ s.updSrcCfg k f with srcCfg := s.srcCfg } : State) = s := rfl

@[simp] theorem State.updCtx_ctx (s : State) (k : Nat) (f : Ctx → Ctx) : (s.updCtx k f).ctx k = f (s.ctx k) :=
  Tab.cur_putBy _ _ _ _ _
theorem State.updCtx_ctx_ne (s : State) (k j : Nat) (f : Ctx → Ctx) (h : j ≠ k) : (s.updCtx k f).ctx j = s.ctx j :=
  Tab.cur_putBy_ne _ _ _ _ _ _ h
@[simp] theorem State.updCtx_comCtx (s : State) (k j : Nat) (f : Ctx → Ctx) : (s.updCtx k f).comCtx j = s.comCtx j :=
  Tab.comAt_putBy _ _ _ _ _ _
@[simp] theorem State.updCtx_frame (s : State) (k : Nat) (f : Ctx → Ctx) : ({ s.updCtx k f with ctxs := s.ctxs } : State) = s := rfl

@[simp] theorem State.updDev_dev (s : State) (k : Nat) (f : Dev → Dev) : (s.updDev k f).dev k = f (s.dev k) :=
  Tab.cur_putBy _ _ _ _ _
theorem State.updDev_dev_ne (s : State) (k j : Nat) (f : Dev → Dev) (h : j ≠ k) : (s.updDev k f).dev j = s.dev j :=
  Tab.cur_putBy_ne _ _ _ _ _ _ h
@[simp] theorem State.updDev_comDev (s : State) (k j : Nat) (f : Dev → Dev) : (s.updDev k f).comDev j = s.comDev j :=
  Tab.comAt_putBy _ _ _ _ _ _
@[simp] theorem State.updDev_frame (s : State) (k : Nat) (f : Dev → Dev) : ({ s.updDev k f with devs := s.devs } : State) = s := rfl

@[simp] theorem State.updDevX_devXAt (s : State) (k : Nat) (f : DevX → DevX) : (s.updDevX k f).devXAt k = f (s.devXAt k) :=
  Tab.cur_putBy _ _ _ _ _
theorem State.updDevX_devXAt_ne (s : State) (k j : Nat) (f : DevX → DevX) (h : j ≠ k) : (s.updDevX k f).devXAt j = s.devXAt j :=
  Tab.cur_putBy_ne _ _ _ _ _ _ h
@[simp] theorem State.updDevX_comDevX (s : State) (k j : Nat) (f : DevX → DevX) : (s.updDevX k f).comDevX j = s.comDevX j :=
  Tab.comAt_putBy _ _ _ _ _ _
@[simp] theorem State.updDevX_frame (s : State) (k : Nat) (f : DevX → DevX) : ({ s.updDevX k f with devX := s.devX } : State) = s := rfl

@[simp] theorem State.updPin_pinAt (s : State) (k : Nat) (f : Option Sys2Proof.Slice → Option Sys2Proof.Slice) : (s.updPin k f).pinAt k = f (s.pinAt k) :=
  Tab.cur_putBy _ _ _ _ _
theorem State.updPin_pinAt_ne (s : State) (k j : Nat) (f : Option Sys2Proof.Slice → Option Sys2Proof.Slice) (h : j ≠ k) : (s.updPin k f).pinAt j = s.pinAt j :=
  Tab.cur_putBy_ne _ _ _ _ _ _ h
@[simp] theorem State.updPin_comPin (s : State) (k j : Nat) (f : Option Sys2Proof.Slice → Option Sys2Proof.Slice) : (s.updPin k f).comPin j = s.comPin j :=
  Tab.comAt_putBy _ _ _ _ _ _
@[simp] theorem State.updPin_frame (s : State) (k : Nat) (f : Option Sys2Proof.Slice → Option Sys2Proof.Slice) : ({ s.updPin k f with pins := s.pins } : State) = s := rfl

@[simp] theorem State.updEnum_enum (s : State) (k : Nat) (f : EnumS → EnumS) : (s.updEnum k f).enum k = f (s.enum k) :=
  Tab.cur_putBy _ _ _ _ _
theorem State.updEnum_enum_ne (s : State) (k j : Nat) (f : EnumS → EnumS) (h : j ≠ k) : (s.updEnum k f).enum j = s.enum j :=
  Tab.cur_putBy_ne _ _ _ _ _ _ h
@[simp] theorem State.updEnum_comEnum (s : State) (k j : Nat) (f : EnumS → EnumS) : (s.updEnum k f).comEnum j = s.comEnum j :=
  Tab.comAt_putBy _ _ _ _ _ _
@[simp] theorem State.updEnum_frame (s : State) (k : Nat) (f : EnumS → EnumS) : ({ s.updEnum k f with enums := s.enums } : State) = s := rfl

@[simp] theorem State.updTree_tree (s : State) (k : Nat) (f : TreeS → TreeS) : (s.updTree k f).tree k = f (s.tree k) :=
  Tab.cur_putBy _ _ _ _ _
theorem State.updTree_tree_ne (s : State) (k j : Nat) (f : TreeS → TreeS) (h : j ≠ k) : (s.updTree k f).tree j = s.tree j :=
  Tab.cur_putBy_ne _ _ _ _ _ _ h
@[simp] theorem State.updTree_comTree (s : State) (k j : Nat) (f : TreeS → TreeS) : (s.updTree k f).comTree j = s.comTree j :=
  Tab.comAt_putBy _ _ _ _ _ _
@[simp] theorem State.updTree_frame (s : State) (k : Nat) (f : TreeS → TreeS) : ({ s.updTree k f with trees := s.trees } : State) = s := rfl

@[simp] theorem State.updSched_schedAt (s : State) (k : Nat) (f : SchedS → SchedS) : (s.updSched k f).schedAt k = f (s.schedAt k) :=
  Tab.cur_putBy _ _ _ _ _
theorem State.updSched_schedAt_ne (s : State) (k j : Nat) (f : SchedS → SchedS) (h : j ≠ k) : (s.updSched k f).schedAt j = s.schedAt j :=
  Tab.cur_putBy_ne _ _ _ _ _ _ h
@[simp] theorem State.updSched_comSched (s : State) (k j : Nat) (f : SchedS → SchedS) : (s.updSched k f).comSched j = s.comSched j :=
  Tab.comAt_putBy _ _ _ _ _ _
@[simp] theorem State.updSched_frame (s : State) (k : Nat) (f : SchedS → SchedS) : ({ s.updSched k f with sched := s.sched } : State) = s := rfl

@[simp] theorem State.updQueue_queue (s : State) (k : Nat) (f : QueueS → QueueS) : (s.updQueue k f).queue k = f (s.queue k) :=
  Tab.cur_putBy _ _ _ _ _
theorem State.updQueue_queue_ne (s : State) (k j : Nat) (f : QueueS → QueueS) (h : j ≠ k) : (s.updQueue k f).queue j = s.queue j :=
  Tab.cur_putBy_ne _ _ _ _ _ _ h
@[simp] theorem State.updQueue_comQueue (s : State) (k j : Nat) (f : QueueS → QueueS) : (s.updQueue k f).comQueue j = s.comQueue j :=
  Tab.comAt_putBy _ _ _ _ _ _
@[simp] theorem State.updQueue_frame (s : State) (k : Nat) (f : QueueS → QueueS) : ({ s.updQueue k f with queues := s.queues } : State) = s := rfl

@[simp] theorem State.updChan_chan (s : State) (k : Nat) (f : ChS → ChS) : (s.updChan k f).chan k = f (s.chan k) :=
  Tab.cur_putBy _ _ _ _ _
theorem State.updChan_chan_ne (s : State) (k j : Nat) (f : ChS → ChS) (h : j ≠ k) : (s.updChan k f).chan j = s.chan j :=
  Tab.cur_putBy_ne _ _ _ _ _ _ h
@[simp] theorem State.updChan_comChan (s : State) (k j : Nat) (f : ChS → ChS) : (s.updChan k f).comChan j = s.comChan j :=
  Tab.comAt_putBy _ _ _ _ _ _
@[simp] theorem State.updChan_frame (s : State) (k : Nat) (f : ChS → ChS) : ({ s.updChan k f with chans := s.chans } : State) = s := rfl

@[simp] theorem State.updTask_task (s : State) (k : Nat) (f : TaskS → TaskS) : (s.updTask k f).task k = f (s.task k) :=
  Tab.cur_putBy _ _ _ _ _
theorem State.updTask_task_ne (s : State) (k j : Nat) (f : TaskS → TaskS) (h : j ≠ k) : (s.updTask k f).task j = s.task j :=
  Tab.cur_putBy_ne _ _ _ _ _ _ h
@[simp] theorem State.updTask_comTask (s : State) (k j : Nat) (f : TaskS → TaskS) : (s.updTask k f).comTask j = s.comTask j :=
  Tab.comAt_putBy _ _ _ _ _ _
@[simp] theorem State.updTask_frame (s : State) (k : Nat) (f : TaskS → TaskS) : ({ s.updTask k f with tasks := s.tasks } : State) = s := rfl

@[simp] theorem State.updFlow_flowAt (s : State) (k : Nat) (f : FlowS → FlowS) : (s.updFlow k f).flowAt k = f (s.flowAt k) :=
  Tab.cur_putBy _ _ _ _ _
theorem State.updFlow_flowAt_ne (s : State) (k j : Nat) (f : FlowS → FlowS) (h : j ≠ k) : (s.updFlow k f).flowAt j = s.flowAt j :=
  Tab.cur_putBy_ne _ _ _ _ _ _ h
@[simp] theorem State.updFlow_comFlow (s : State) (k j : Nat) (f : FlowS → FlowS) : (s.updFlow k f).comFlow j = s.comFlow j :=
  Tab.comAt_putBy _ _ _ _ _ _
@[simp] theorem State.updFlow_frame (s : State) (k : Nat) (f : FlowS → FlowS) : ({ s.updFlow k f with flows := s.flows } : State) = s := rfl

@[simp] theorem State.updGraph_graph (s : State) (k : Nat) (f : GraphS → GraphS) : (s.updGraph k f).graph k = f (s.graph k) :=
  Tab.cur_putBy _ _ _ _ _
theorem State.updGraph_graph_ne (s : State) (k j : Nat) (f : GraphS → GraphS) (h : j ≠ k) : (s.updGraph k f).graph j = s.graph j :=
  Tab.cur_putBy_ne _ _ _ _ _ _ h
@[simp] theorem State.updGraph_comGraph (s : State) (k j : Nat) (f : GraphS → GraphS) : (s.updGraph k f).comGraph j = s.comGraph j :=
  Tab.comAt_putBy _ _ _ _ _ _
@[simp] theorem State.updGraph_frame (s : State) (k : Nat) (f : GraphS → GraphS) : ({ s.updGraph k f with graphs := s.graphs } : State) = s := rfl

@[simp] theorem State.updCore_coreAt (s : State) (k : Nat) (f : CoreS → CoreS) : (s.updCore k f).coreAt k = f (s.coreAt k) :=
  Tab.cur_putBy _ _ _ _ _
theorem State.updCore_coreAt_ne (s : State) (k j : Nat) (f : CoreS → CoreS) (h : j ≠ k) : (s.updCore k f).coreAt j = s.coreAt j :=
  Tab.cur_putBy_ne _ _ _ _ _ _ h
@[simp] theorem State.updCore_comCore (s : State) (k j : Nat) (f : CoreS → CoreS) : (s.updCore k f).comCore j = s.comCore j :=
  Tab.comAt_putBy _ _ _ _ _ _
@[simp] theorem State.updCore_frame (s : State) (k : Nat) (f : CoreS → CoreS) : ({ s.updCore k f with cores := s.cores } : State) = s := rfl

@[simp] theorem State.updBound_boundAt (s : State) (k : Nat) (f : Option (W32 × W32) → Option (W32 × W32)) : (s.updBound k f).boundAt k = f (s.boundAt k) :=
  Tab.cur_putBy _ _ _ _ _
theorem State.updBound_boundAt_ne (s : State) (k j : Nat) (f : Option (W32 × W32) → Option (W32 × W32)) (h : j ≠ k) : (s.updBound k f).boundAt j = s.boundAt j :=
  Tab.cur_putBy_ne _ _ _ _ _ _ h
@[simp] theorem State.updBound_comBound (s : State) (k j : Nat) (f : Option (W32 × W32) → Option (W32 × W32)) : (s.updBound k f).comBound j = s.comBound j :=
  Tab.comAt_putBy _ _ _ _ _ _
@[simp] theorem State.updBound_frame (s : State) (k : Nat) (f : Option (W32 × W32) → Option (W32 × W32)) : ({ s.updBound k f with bounds := s.bounds } : State) = s := rfl

@[simp] theorem State.updActBound_actBoundAt (s : State) (k : Nat) (f : Option (W32 × W32) → Option (W32 × W32)) : (s.updActBound k f).actBoundAt k = f (s.actBoundAt k) :=
  Tab.cur_putBy _ _ _ _ _
theorem State.updActBound_actBoundAt_ne (s : State) (k j : Nat) (f : Option (W32 × W32) → Option (W32 × W32)) (h : j ≠ k) : (s.updActBound k f).actBoundAt j = s.actBoundAt j :=
  Tab.cur_putBy_ne _ _ _ _ _ _ h
@[simp] theorem State.updActBound_comActBound (s : State) (k j : Nat) (f : Option (W32 × W32) → Option (W32 × W32)) : (s.updActBound k f).comActBound j = s.comActBound j :=
  Tab.comAt_putBy _ _ _ _ _ _
@[simp] theorem State.updActBound_frame (s : State) (k : Nat) (f : Option (W32 × W32) → Option (W32 × W32)) : ({ s.updActBound k f with actBounds := s.actBounds } : State) = s := rfl

@[simp] theorem State.updBridge_bridge (s : State) (k : Nat) (f : Bridge → Bridge) : (s.updBridge k f).bridge k = f (s.bridge k) :=
  Tab.cur_putBy _ _ _ _ _
theorem State.updBridge_bridge_ne (s : State) (k j : Nat) (f : Bridge → Bridge) (h : j ≠ k) : (s.updBridge k f).bridge j = s.bridge j :=
  Tab.cur_putBy_ne _ _ _ _ _ _ h
@[simp] theorem State.updBridge_comBridge (s : State) (k j : Nat) (f : Bridge → Bridge) : (s.updBridge k f).comBridge j = s.comBridge j :=
  Tab.comAt_putBy _ _ _ _ _ _
@[simp] theorem State.updBridge_frame (s : State) (k : Nat) (f : Bridge → Bridge) : ({ s.updBridge k f with bridges := s.bridges } : State) = s := rfl

@[simp] theorem State.updStream_stream (s : State) (k : Nat) (f : Stream → Stream) : (s.updStream k f).stream k = f (s.stream k) :=
  Tab.cur_putBy _ _ _ _ _
theorem State.updStream_stream_ne (s : State) (k j : Nat) (f : Stream → Stream) (h : j ≠ k) : (s.updStream k f).stream j = s.stream j :=
  Tab.cur_putBy_ne _ _ _ _ _ _ h
@[simp] theorem State.updStream_comStream (s : State) (k j : Nat) (f : Stream → Stream) : (s.updStream k f).comStream j = s.comStream j :=
  Tab.comAt_putBy _ _ _ _ _ _
@[simp] theorem State.updStream_frame (s : State) (k : Nat) (f : Stream → Stream) : ({ s.updStream k f with streams := s.streams } : State) = s := rfl

@[simp] theorem State.updPSet_psetAt (s : State) (k : Nat) (f : PortSet → PortSet) : (s.updPSet k f).psetAt k = f (s.psetAt k) :=
  Tab.cur_putBy _ _ _ _ _
theorem State.updPSet_psetAt_ne (s : State) (k j : Nat) (f : PortSet → PortSet) (h : j ≠ k) : (s.updPSet k f).psetAt j = s.psetAt j :=
  Tab.cur_putBy_ne _ _ _ _ _ _ h
@[simp] theorem State.updPSet_comPSet (s : State) (k j : Nat) (f : PortSet → PortSet) : (s.updPSet k f).comPSet j = s.comPSet j :=
  Tab.comAt_putBy _ _ _ _ _ _
@[simp] theorem State.updPSet_frame (s : State) (k : Nat) (f : PortSet → PortSet) : ({ s.updPSet k f with pset := s.pset } : State) = s := rfl

@[simp] theorem State.updLink_link (s : State) (k : Nat) (f : LinkS → LinkS) : (s.updLink k f).link k = f (s.link k) :=
  Tab.get_upd _ _ _ _
theorem State.updLink_link_ne (s : State) (k j : Nat) (f : LinkS → LinkS) (h : j ≠ k) : (s.updLink k f).link j = s.link j :=
  Tab.get_upd_ne _ _ _ _ _ h
@[simp] theorem State.updLink_frame (s : State) (k : Nat) (f : LinkS → LinkS) : ({ s.updLink k f with links := s.links } : State) = s := rfl

@[simp] theorem State.updSliceX_sliceXAt (s : State) (k : Nat) (f : SliceX → SliceX) : (s.updSliceX k f).sliceXAt k = f (s.sliceXAt k) :=
  Tab.get_upd _ _ _ _
theorem State.updSliceX_sliceXAt_ne (s : State) (k j : Nat) (f : SliceX → SliceX) (h : j ≠ k) : (s.updSliceX k f).sliceXAt j = s.sliceXAt j :=
  Tab.get_upd_ne _ _ _ _ _ h
@[simp] theorem State.updSliceX_frame (s : State) (k : Nat) (f : SliceX → SliceX) : ({ s.updSliceX k f with sliceX := s.sliceX } : State) = s := rfl

@[simp] theorem State.updSrc_src (s : State) (k : Nat) (f : Src → Src) : (s.updSrc k f).src k = f (s.src k) :=
  Tab.get_upd _ _ _ _
theorem State.updSrc_src_ne (s : State) (k j : Nat) (f : Src → Src) (h : j ≠ k) : (s.updSrc k f).src j = s.src j :=
  Tab.get_upd_ne _ _ _ _ _ h
@[simp] theorem State.updSrc_frame (s : State) (k : Nat) (f : Src → Src) : ({ s.updSrc k f with srcs := s.srcs } : State) = s := rfl

@[simp] theorem State.updEq_eq (s : State) (k : Nat) (f : EqS → EqS) : (s.updEq k f).eq k = f (s.eq k) :=
  Tab.get_upd _ _ _ _
theorem State.updEq_eq_ne (s : State) (k j : Nat) (f : EqS → EqS) (h : j ≠ k) : (s.updEq k f).eq j = s.eq j :=
  Tab.get_upd_ne _ _ _ _ _ h
@[simp] theorem State.updEq_frame (s : State) (k : Nat) (f : EqS → EqS) : ({ s.updEq k f with eqs := s.eqs } : State) = s := rfl

@[simp] theorem State.updPort_port (s : State) (k : Nat) (f : PortL → PortL) : (s.updPort k f).port k = f (s.port k) :=
  Tab.get_upd _ _ _ _
theorem State.updPort_port_ne (s : State) (k j : Nat) (f : PortL → PortL) (h : j ≠ k) : (s.updPort k f).port j = s.port j :=
  Tab.get_upd_ne _ _ _ _ _ h
@[simp] theorem State.updPort_frame (s : State) (k : Nat) (f : PortL → PortL) : ({ s.updPort k f with ports := s.ports } : State) = s := rfl

@[simp] theorem State.updThread_thread (s : State) (k : Nat) (f : Thread → Thread) : (s.updThread k f).thread k = f (s.thread k) :=
  Tab.get_upd _ _ _ _
theorem State.updThread_thread_ne (s : State) (k j : Nat) (f : Thread → Thread) (h : j ≠ k) : (s.updThread k f).thread j = s.thread j :=
  Tab.get_upd_ne _ _ _ _ _ h
@[simp] theorem State.updThread_frame (s : State) (k : Nat) (f : Thread → Thread) : ({ s.updThread k f with threads := s.threads } : State) = s := rfl

@[simp] theorem State.updShuttle_shuttle (s : State) (k : Nat) (f : Shuttle → Shuttle) : (s.updShuttle k f).shuttle k = f (s.shuttle k) :=
  Tab.get_upd _ _ _ _
theorem State.updShuttle_shuttle_ne (s : State) (k j : Nat) (f : Shuttle → Shuttle) (h : j ≠ k) : (s.updShuttle k f).shuttle j = s.shuttle j :=
  Tab.get_upd_ne _ _ _ _ _ h
@[simp] theorem State.updShuttle_frame (s : State) (k : Nat) (f : Shuttle → Shuttle) : ({ s.updShuttle k f with shuttles := s.shuttles } : State) = s := rfl

@[simp] theorem State.updHalf_half (s : State) (k : Nat) (f : Halves → Halves) : (s.updHalf k f).half k = f (s.half k) :=
  Tab.get_upd _ _ _ _
theorem State.updHalf_half_ne (s : State) (k j : Nat) (f : Halves → Halves) (h : j ≠ k) : (s.updHalf k f).half j = s.half j :=
  Tab.get_upd_ne _ _ _ _ _ h
@[simp] theorem State.updHalf_frame (s : State) (k : Nat) (f : Halves → Halves) : ({ s.updHalf k f with halves := s.halves } : State) = s := rfl

@[simp] theorem State.updChanX_chanXAt (s : State) (k : Nat) (f : ChX → ChX) : (s.updChanX k f).chanXAt k = f (s.chanXAt k) :=
  Tab.get_upd _ _ _ _
theorem State.updChanX_chanXAt_ne (s : State) (k j : Nat) (f : ChX → ChX) (h : j ≠ k) : (s.updChanX k f).chanXAt j = s.chanXAt j :=
  Tab.get_upd_ne _ _ _ _ _ h
@[simp] theorem State.updChanX_frame (s : State) (k : Nat) (f : ChX → ChX) : ({ s.updChanX k f with chanX := s.chanX } : State) = s := rfl

@[simp] theorem State.updFuse_fuse (s : State) (k : Nat) (f : PortP → PortP) : (s.updFuse k f).fuse k = f (s.fuse k) :=
  Tab.get_upd _ _ _ _
theorem State.updFuse_fuse_ne (s : State) (k j : Nat) (f : PortP → PortP) (h : j ≠ k) : (s.updFuse k f).fuse j = s.fuse j :=
  Tab.get_upd_ne _ _ _ _ _ h
@[simp] theorem State.updFuse_frame (s : State) (k : Nat) (f : PortP → PortP) : ({ s.updFuse k f with power := s.power } : State) = s := rfl

@[simp] theorem State.updDom_dom (s : State) (k : Nat) (f : DomS → DomS) : (s.updDom k f).dom k = f (s.dom k) :=
  Tab.get_upd _ _ _ _
theorem State.updDom_dom_ne (s : State) (k j : Nat) (f : DomS → DomS) (h : j ≠ k) : (s.updDom k f).dom j = s.dom j :=
  Tab.get_upd_ne _ _ _ _ _ h
@[simp] theorem State.updDom_frame (s : State) (k : Nat) (f : DomS → DomS) : ({ s.updDom k f with doms := s.doms } : State) = s := rfl

@[simp] theorem State.updRaw_raw (s : State) (k : Nat) (f : RawS → RawS) : (s.updRaw k f).raw k = f (s.raw k) :=
  Tab.get_upd _ _ _ _
theorem State.updRaw_raw_ne (s : State) (k j : Nat) (f : RawS → RawS) (h : j ≠ k) : (s.updRaw k f).raw j = s.raw j :=
  Tab.get_upd_ne _ _ _ _ _ h
@[simp] theorem State.updRaw_frame (s : State) (k : Nat) (f : RawS → RawS) : ({ s.updRaw k f with raws := s.raws } : State) = s := rfl

@[simp] theorem State.updDet_det (s : State) (k : Nat) (f : DetS → DetS) : (s.updDet k f).det k = f (s.det k) :=
  Tab.get_upd _ _ _ _
theorem State.updDet_det_ne (s : State) (k j : Nat) (f : DetS → DetS) (h : j ≠ k) : (s.updDet k f).det j = s.det j :=
  Tab.get_upd_ne _ _ _ _ _ h
@[simp] theorem State.updDet_frame (s : State) (k : Nat) (f : DetS → DetS) : ({ s.updDet k f with dets := s.dets } : State) = s := rfl

@[simp] theorem State.updProbe_probe (s : State) (k : Nat) (f : ProbeS → ProbeS) : (s.updProbe k f).probe k = f (s.probe k) :=
  Tab.get_upd _ _ _ _
theorem State.updProbe_probe_ne (s : State) (k j : Nat) (f : ProbeS → ProbeS) (h : j ≠ k) : (s.updProbe k f).probe j = s.probe j :=
  Tab.get_upd_ne _ _ _ _ _ h
@[simp] theorem State.updProbe_frame (s : State) (k : Nat) (f : ProbeS → ProbeS) : ({ s.updProbe k f with probes := s.probes } : State) = s := rfl

@[simp] theorem State.updWarden_wardenNow (s : State) (f : Link → Link) : (s.updWarden f).wardenNow = f s.wardenNow := rfl
@[simp] theorem State.updWarden_frame (s : State) (f : Link → Link) : ({ s.updWarden f with warden := s.warden } : State) = s := rfl

@[simp] theorem State.updAdmission_admitting (s : State) (f : List AdmReq → List AdmReq) : (s.updAdmission f).admitting = f s.admitting := rfl
@[simp] theorem State.updAdmission_frame (s : State) (f : List AdmReq → List AdmReq) : ({ s.updAdmission f with admission := s.admission } : State) = s := rfl

@[simp] theorem State.updDrawn_drawCount (s : State) (f : Nat → Nat) : (s.updDrawn f).drawCount = f s.drawCount := rfl
@[simp] theorem State.updDrawn_frame (s : State) (f : Nat → Nat) : ({ s.updDrawn f with drawn := s.drawn } : State) = s := rfl

@[simp] theorem State.updGChanges_gchange (s : State) (f : List (BitVec 48 × GChange) → List (BitVec 48 × GChange)) : (s.updGChanges f).gchange = f s.gchange := rfl
@[simp] theorem State.updGChanges_frame (s : State) (f : List (BitVec 48 × GChange) → List (BitVec 48 × GChange)) : ({ s.updGChanges f with gchanges := s.gchanges } : State) = s := rfl

@[simp] theorem State.updPolicy_policyNow (s : State) (f : PolicyS → PolicyS) : (s.updPolicy f).policyNow = f s.policyNow := rfl
@[simp] theorem State.updPolicy_frame (s : State) (f : PolicyS → PolicyS) : ({ s.updPolicy f with policy := s.policy } : State) = s := rfl

@[simp] theorem State.updShedOrder_shedNow (s : State) (f : List (BitVec 4) → List (BitVec 4)) : (s.updShedOrder f).shedNow = f s.shedNow := rfl
@[simp] theorem State.updShedOrder_frame (s : State) (f : List (BitVec 4) → List (BitVec 4)) : ({ s.updShedOrder f with shedOrder := s.shedOrder } : State) = s := rfl

@[simp] theorem State.updMetPub_metNow (s : State) (f : MetPub → MetPub) : (s.updMetPub f).metNow = f s.metNow := rfl
@[simp] theorem State.updMetPub_frame (s : State) (f : MetPub → MetPub) : ({ s.updMetPub f with metPub := s.metPub } : State) = s := rfl

@[simp] theorem State.updSliceActs_sliceActsNow (s : State) (f : List SliceAct → List SliceAct) : (s.updSliceActs f).sliceActsNow = f s.sliceActsNow := rfl
@[simp] theorem State.updSliceActs_frame (s : State) (f : List SliceAct → List SliceAct) : ({ s.updSliceActs f with sliceActs := s.sliceActs } : State) = s := rfl

@[simp] theorem State.updKept_kept (s : State) (f : List (Nat × W32 × W64) → List (Nat × W32 × W64)) : (s.updKept f).kept = f s.kept := rfl
@[simp] theorem State.updKept_frame (s : State) (f : List (Nat × W32 × W64) → List (Nat × W32 × W64)) : ({ s.updKept f with keptCtx := s.keptCtx } : State) = s := rfl

end Sys2Proof.Machine
end

