-- ==== Sys2Proof/Laws/Ops.lean ====
section
/-! SUPPORT. The operations that the meanings share: what each gives, and that nothing else changes. -/
namespace Sys2Proof.Machine

open Sys2Proof

/-! ## Counts, bytes and fields -/

theorem satInc_toNat {w : Nat} (x : BitVec w) : (satInc x).toNat = min (x.toNat + 1) (2 ^ w - 1) := by
  unfold satInc
  have := x.isLt
  split
  · subst_vars; simp [BitVec.toNat_allOnes]
  · have h : x.toNat ≠ 2 ^ w - 1 := fun h => ‹¬x = _› (BitVec.eq_of_toNat_eq (by simpa [BitVec.toNat_allOnes] using h))
    cases w with
    | zero => exact absurd (by omega) h
    | succ n =>
      have : 2 ≤ 2 ^ (n + 1) := by rw [Nat.pow_succ]; have := Nat.two_pow_pos n; omega
      have one : (1 : BitVec (n + 1)).toNat = 1 := by simp
      rw [BitVec.toNat_add, one, Nat.mod_eq_of_lt (by omega), Nat.min_eq_left (by omega)]

theorem satAdd_toNat {w : Nat} (x : BitVec w) (n : Nat) : (satAdd x n).toNat = min (x.toNat + n) (2 ^ w - 1) := by
  have : 0 < 2 ^ w := Nat.two_pow_pos w
  simp only [satAdd, BitVec.toNat_ofNat]
  exact Nat.mod_eq_of_lt (by omega)

@[simp] theorem leBytes_length (n v : Nat) : (leBytes n v).length = n := by
  induction n generalizing v with
  | zero => rfl
  | succ n ih => simp [leBytes, ih]

/-- A number cut to `n` bytes reads back modulo 256 ^ n. -/
theorem leNat_leBytes (n v : Nat) : leNat (leBytes n v) = v % 256 ^ n := by
  induction n generalizing v with
  | zero => simp [leBytes, leNat, Nat.mod_one]
  | succ n ih =>
    rw [leBytes, leNat, ih, BitVec.toNat_ofNat, Nat.pow_succ 256 n, Nat.mul_comm _ 256, Nat.mod_mul]

@[simp] theorem padTo_length (n : Nat) (bs : List Byte) : (padTo n bs).length = n := by
  simp [padTo, List.length_take]; omega

theorem fld_lt (w : W64) (hi lo : Nat) : fld w hi lo < 2 ^ (hi + 1 - lo) := Nat.mod_lt _ (Nat.two_pow_pos _)

/-! ## What the module sends, logs and raises -/

@[simp] theorem State.emit_out (s : State) (o : Out) : (s.emit o).out = s.out ++ [o] := rfl
@[simp] theorem State.emit_frame (s : State) (o : Out) : ({ s.emit o with out := s.out } : State) = s := rfl
@[simp] theorem State.emit_tick (s : State) (o : Out) : (s.emit o).tick = s.tick := rfl
@[simp] theorem State.useFree_frame (s : State) : ({ s.useFree with freeCount := s.freeCount } : State) = s := rfl
@[simp] theorem State.useFree_tick (s : State) : s.useFree.tick = s.tick := rfl
@[simp] theorem State.logAon_frame (s : State) (code unit : Nat) (v : W32) :
    ({ s.logAon code unit v with aonLog := s.aonLog, aonNext := s.aonNext } : State) = s := rfl
@[simp] theorem State.logAon_next (s : State) (code unit : Nat) (v : W32) : (s.logAon code unit v).aonNext = s.aonNext + 1 := rfl
@[simp] theorem State.logAon_tick (s : State) (code unit : Nat) (v : W32) : (s.logAon code unit v).tick = s.tick := rfl
@[simp] theorem State.countLine_frame (s : State) (p k : Nat) : ({ s.countLine p k with tickCounts := s.tickCounts } : State) = s := rfl
@[simp] theorem State.occur_raised (s : State) (key : Nat) (v : W64) (keep : Bool) :
    (s.occur key v keep).raised = s.raised ++ [{ src := key, payload := v, keep := keep }] := rfl
@[simp] theorem State.occur_frame (s : State) (key : Nat) (v : W64) (keep : Bool) :
    ({ s.occur key v keep with raised := s.raised } : State) = s := rfl
@[simp] theorem State.occur_tick (s : State) (key : Nat) (v : W64) (keep : Bool) : (s.occur key v keep).tick = s.tick := rfl

/-- What every member of a list keeps, their sequence keeps. -/
theorem State.forAll_keeps {α : Type} (P : State → Prop) (f : State → α → State) (l : List α)
    (h : ∀ s a, P s → P (f s a)) (s : State) (hs : P s) : P (s.forAll f l) := by
  unfold State.forAll
  induction l generalizing s with
  | nil => exact hs
  | cons a l ih => exact ih (f s a) (h s a hs)

/-! ## Domains -/

/-- Waking domains changes domains alone. -/
@[simp] theorem State.wake_frame (s : State) (d cause clk : Nat) : ({ s.wake d cause clk with doms := s.doms } : State) = s := by
  unfold State.wake
  have : ∀ (l : List Nat) (t : State), ({ t with doms := s.doms } : State) = s →
      ({ l.foldl (fun t r => t.updDom r (wakeOne 2 true clk)) t with doms := s.doms } : State) = s := by
    intro l
    induction l with
    | nil => exact fun t h => h
    | cons a l ih => exact fun t h => ih _ h
  exact this _ _ rfl

@[simp] theorem State.wakeRet_frame (s : State) (d cause clk : Nat) : ({ s.wakeRet d cause clk with doms := s.doms } : State) = s := by
  unfold State.wakeRet
  split
  · split
    · rfl
    · exact State.wake_frame s d cause clk
  · exact State.wake_frame s d cause clk
  · rfl

/-! ## Registers and predicates of a Coresh unit (R190) -/

@[simp] theorem Thread.reg_zero (x : Thread) : x.reg 0 = 0 := rfl
@[simp] theorem Thread.setReg_zero (x : Thread) (v : W32) : x.setReg 0 v = x := rfl

theorem Thread.reg_setReg (x : Thread) (d r : Reg) (v : W32) :
    (x.setReg d v).reg r = if r = d ∧ d ≠ 0 then v else x.reg r := by
  by_cases hd : d = 0
  · rw [if_neg (fun h : r = d ∧ d ≠ 0 => h.2 hd), Thread.setReg, if_pos hd]
  · by_cases hr : r = 0
    · rw [if_neg (fun h : r = d ∧ d ≠ 0 => hd (h.1 ▸ hr)), Thread.reg, Thread.reg, if_pos hr, if_pos hr]
    · rw [Thread.setReg, if_neg hd, Thread.reg, Thread.reg, if_neg hr, if_neg hr, Tab.get_set_cases]
      by_cases h : r = d
      · rw [if_pos (congrArg _ h), if_pos ⟨h, hd⟩]
      · rw [if_neg (fun e : r.toNat = d.toNat => h (BitVec.eq_of_toNat_eq e)), if_neg (fun e : r = d ∧ d ≠ 0 => h e.1)]

@[simp] theorem Thread.setReg_frame (x : Thread) (d : Reg) (v : W32) : ({ x.setReg d v with g := x.g } : Thread) = x := by
  unfold Thread.setReg; split <;> rfl

@[simp] theorem Thread.setPred_frame (x : Thread) (i : Pred) (v : Bool) : ({ x.setPred i v with p := x.p } : Thread) = x := by
  unfold Thread.setPred; split <;> rfl

theorem Thread.pred_setPred (x : Thread) (i j : Pred) (v : Bool) :
    (x.setPred i v).pred j = if j = i ∧ i ≠ 0 then v else x.pred j := by
  have key : ∀ (p : BitVec 4) (i j : Pred) (v : Bool), i ≠ 0 →
      (j == 0 || (if v then setBit p i.toNat else clrBit p i.toNat).getLsbD j.toNat) =
        if j = i then v else (j == 0 || p.getLsbD j.toNat) := by decide
  by_cases hi : i = 0
  · subst hi; simp [Thread.setPred]
  · simp only [Thread.setPred, hi, if_false, Thread.pred, ne_eq, not_false_eq_true, and_true]
    exact key x.p i j v hi

/-! ## Going on after an instruction -/

/-- Back edges change the counters, the place and the cycle of a thread alone. -/
theorem settle_frame (l : List LoopS) (pc : Nat) (x : Thread) :
    ({ settle l pc x with g := x.g, pc := x.pc, cycle := x.cycle, loops := x.loops } : Thread) = x := by
  induction l generalizing x with
  | nil => rfl
  | cons a l ih =>
    simp only [settle]
    split
    · split
      · simp only [Thread.setReg]; split <;> rfl
      · have := ih { x with cycle := x.cycle + 1 }
        exact congrArg (fun y : Thread => { y with cycle := x.cycle }) this
    · rfl

/-- A loom thread that goes on changes nothing but itself. -/
theorem State.goOn_loom_frame (s : State) (p : Port) (pc cyc : Nat) : ({ s.goOn (.loom p) pc cyc with threads := s.threads } : State) = s := by
  simp only [State.goOn]; split <;> rfl

/-- All that a Coresh instruction can do: the fault of an encoding that no unit runs, nothing while its unit is elsewhere, its
effect, nothing while it waits, or what it does when its guard fails. -/
theorem State.coresh_cases (s : State) (u : CUnit) (i : Instr) (gd : Guard) (wait : Bool) (f skip : Nat → State → State) :
    (i.coreshWf = false ∧ s.coresh u i gd wait f skip = .fault .notAdmitted) ∨
    (i.coreshWf = true ∧ (s.atInstr u i = false ∨ (s.thread (unitKey u)).holds gd = true ∧
      (wait = true ∨ s.regsPend (unitKey u) (coreshRegs i) = true)) ∧ s.coresh u i gd wait f skip = .next s) ∨
    (i.coreshWf = true ∧ s.atInstr u i = true ∧ (s.thread (unitKey u)).holds gd = true ∧ wait = false ∧
      s.regsPend (unitKey u) (coreshRegs i) = false ∧
      s.coresh u i gd wait f skip = .next (f ((s.thread (unitKey u)).readyAt ((coreshRegs i).map (·.toNat))) s)) ∨
    (i.coreshWf = true ∧ s.atInstr u i = true ∧ (s.thread (unitKey u)).holds gd = false ∧
      s.coresh u i gd wait f skip = .next (skip (s.thread (unitKey u)).cycle s)) := by
  cases h1 : i.coreshWf <;> cases h2 : s.atInstr u i <;> cases h3 : (s.thread (unitKey u)).holds gd <;> cases h4 : wait <;>
    cases h5 : s.regsPend (unitKey u) (coreshRegs i) <;> simp [State.coresh, h1, h2, h3, h5]

/-! ## Work queues and admin commands (R281, R286) -/

/-- The consumer index and the list of complete entries are all that passing complete entries changes. -/
theorem QueueS.advance_frame (n : Nat) (q : QueueS) : ({ QueueS.advance n q with cons := q.cons, doneAt := q.doneAt } : QueueS) = q := by
  induction n generalizing q with
  | zero => rfl
  | succ n ih =>
    simp only [QueueS.advance]
    split
    · exact congrArg (fun z : QueueS => { z with cons := q.cons, doneAt := q.doneAt }) (ih _)
    · rfl

theorem QueueS.advance_entries (n : Nat) (q : QueueS) : (QueueS.advance n q).entries = q.entries := by
  have := congrArg QueueS.entries (QueueS.advance_frame n q)
  simpa using this

/-- What reads queues sees the queues alone. -/
theorem State.queue_congr {s t : State} (h : s.queues = t.queues) (k : Nat) : s.queue k = t.queue k := by
  simp only [State.queue, h]

/-- A completion changes its queue, and adds its record and its occurrence. -/
theorem State.complete_frame (s : State) (sl q : Nat) (e : Entry) (status moved : Nat) (c2 c3 : W64) :
    ({ s.complete sl q e status moved c2 c3 with queues := s.queues, cplPend := s.cplPend, raised := s.raised } : State) = s := by
  simp only [State.complete]; split <;> (try split) <;> rfl

/-- A completion changes its queue alone of the queues: its entry leaves the entries, or what is left of the time before a restart. -/
theorem State.complete_queues (s : State) (sl q : Nat) (e : Entry) (status moved : Nat) (c2 c3 : W64) :
    ∃ f : QueueS → QueueS,
      (∀ x, (f x).entries = if x.isOld e then x.entries else x.entries.filter (fun y => y.pos != e.pos)) ∧
      (s.complete sl q e status moved c2 c3).queues = (s.updQueue (qKey sl q) f).queues := by
  refine ⟨fun x => if x.isOld e then { x with old := x.old.filter (fun y => !y.same e) }
    else QueueS.advance (x.doneAt ++ [(e.pos, x.stride e.units)]).length
      { x with entries := x.entries.filter (fun y => y.pos != e.pos), doneAt := x.doneAt ++ [(e.pos, x.stride e.units)] },
    fun x => ?_, ?_⟩
  · by_cases h : x.isOld e
    · simp only [h, if_true]
    · simp only [h, if_false]; exact QueueS.advance_entries _ _
  · simp only [State.complete]
    split <;> (try split) <;> rfl

theorem State.complete_queue_ne (s : State) (sl q k : Nat) (e : Entry) (status moved : Nat) (c2 c3 : W64) (h : k ≠ qKey sl q) :
    (s.complete sl q e status moved c2 c3).queue k = s.queue k := by
  obtain ⟨f, -, hf⟩ := s.complete_queues sl q e status moved c2 c3
  rw [State.queue_congr hf, State.updQueue_queue_ne s _ _ _ h]

theorem State.complete_entries (s : State) (sl q : Nat) (e : Entry) (status moved : Nat) (c2 c3 : W64) :
    ((s.complete sl q e status moved c2 c3).queue (qKey sl q)).entries =
      if (s.queue (qKey sl q)).isOld e then (s.queue (qKey sl q)).entries
      else (s.queue (qKey sl q)).entries.filter (fun y => y.pos != e.pos) := by
  obtain ⟨f, he, hf⟩ := s.complete_queues sl q e status moved c2 c3
  rw [State.queue_congr hf, State.updQueue_queue, he]

/-- An admin command of another operation, of a slice whose work rests, or outside the tick's work does nothing. -/
theorem State.admin_cases (s : State) (sl op : Nat) (s0only : Bool) (f : Entry → State → State) :
    (s.admin sl op s0only f = s ∧ (s.adminEntry sl op = none ∨ s.works sl = false ∨ s.working = false)) ∨
    ∃ e, s.adminEntry sl op = some e ∧ s.works sl = true ∧ s.working = true ∧
      ((s0only = true ∧ sl ≠ 0 ∧ s.admin sl op s0only f = s.adminDone sl e stNotPermitted) ∨
       ((s0only = false ∨ sl = 0) ∧ s.admin sl op s0only f = f e s)) := by
  unfold State.admin
  cases h : s.adminEntry sl op with
  | none => exact .inl ⟨rfl, .inl rfl⟩
  | some e =>
    cases h1 : s.works sl <;> cases h2 : s.working <;> simp
    · cases s0only <;> simp; by_cases h3 : sl = 0 <;> simp [h3]

/-- The entry of an admin command is the first of its queue that is not complete, of that operation and not begun. -/
theorem State.adminEntry_some {s : State} {sl op : Nat} {e : Entry} (h : s.adminEntry sl op = some e) :
    s.adminHead sl = some e ∧ e.op = op ∧ e.begun = false := by
  unfold State.adminEntry at h
  split at h
  · split at h
    · cases h; simp_all
    · cases h
  · cases h

end Sys2Proof.Machine
end

