-- ==== Sys2Proof/Laws/PerInstr.lean ====
section
/-! SUPPORT. A law of every command as syntax, one lemma a constructor: it is an instruction of the loom and the steward exactly when it
has a word and when it has a unit and a guard; such a command is well formed exactly when its encoding is, and is no admin command. -/

open Sys2Proof
open Sys2Proof.Safety

/-- What kind of command a constructor is. -/
def Sys2Proof.Laws.Kinds.Statement (i : Instr) : Prop :=
  (encodeCoresh i).isSome = i.isCoresh ∧ (unitGuard i).isSome = i.isCoresh ∧
  (i.isCoresh = true → i.wf = i.coreshWf ∧ adminOp i = none)

theorem Sys2Proof.Laws.Kinds.tickBegin : Sys2Proof.Laws.Kinds.Statement (.tickBegin) := ⟨rfl, rfl, nofun⟩
theorem Sys2Proof.Laws.Kinds.overrunCheck : Sys2Proof.Laws.Kinds.Statement (.overrunCheck) := ⟨rfl, rfl, nofun⟩
theorem Sys2Proof.Laws.Kinds.segmentEndCheck (p : Port) (k : BitVec 3) : Sys2Proof.Laws.Kinds.Statement (.segmentEndCheck p k) := ⟨rfl, rfl, nofun⟩
theorem Sys2Proof.Laws.Kinds.detectorReport (d : Detector) (unit : Byte) (injected : Bool) (lost : LostItem) (cyc : Cycle) : Sys2Proof.Laws.Kinds.Statement (.detectorReport d unit injected lost cyc) := ⟨rfl, rfl, nofun⟩
theorem Sys2Proof.Laws.Kinds.selvage (split : Bool) (meas : List Meas) : Sys2Proof.Laws.Kinds.Statement (.selvage split meas) := ⟨rfl, rfl, nofun⟩
theorem Sys2Proof.Laws.Kinds.commitEscalated (d : Detector) : Sys2Proof.Laws.Kinds.Statement (.commitEscalated d) := ⟨rfl, rfl, nofun⟩
theorem Sys2Proof.Laws.Kinds.moduleRestart : Sys2Proof.Laws.Kinds.Statement (.moduleRestart) := ⟨rfl, rfl, nofun⟩
theorem Sys2Proof.Laws.Kinds.foldSweep : Sys2Proof.Laws.Kinds.Statement (.foldSweep) := ⟨rfl, rfl, nofun⟩
theorem Sys2Proof.Laws.Kinds.recordWriterFlush : Sys2Proof.Laws.Kinds.Statement (.recordWriterFlush) := ⟨rfl, rfl, nofun⟩
theorem Sys2Proof.Laws.Kinds.journalDurable : Sys2Proof.Laws.Kinds.Statement (.journalDurable) := ⟨rfl, rfl, nofun⟩
theorem Sys2Proof.Laws.Kinds.clockFallback (tcxo pll : Bool) : Sys2Proof.Laws.Kinds.Statement (.clockFallback tcxo pll) := ⟨rfl, rfl, nofun⟩
theorem Sys2Proof.Laws.Kinds.ppsEdge (cyc : Cycle) (falling : Bool) : Sys2Proof.Laws.Kinds.Statement (.ppsEdge cyc falling) := ⟨rfl, rfl, nofun⟩
theorem Sys2Proof.Laws.Kinds.ppsHoldover (cyc : Cycle) : Sys2Proof.Laws.Kinds.Statement (.ppsHoldover cyc) := ⟨rfl, rfl, nofun⟩
theorem Sys2Proof.Laws.Kinds.tickLoRead (l : Link) (qword : Bool) : Sys2Proof.Laws.Kinds.Statement (.tickLoRead l qword) := ⟨rfl, rfl, nofun⟩
theorem Sys2Proof.Laws.Kinds.registerWrite (l : Link) (off : BarOff) (v : W32) (hi : Option W32) : Sys2Proof.Laws.Kinds.Statement (.registerWrite l off v hi) := ⟨rfl, rfl, nofun⟩
theorem Sys2Proof.Laws.Kinds.debounceEnter (p : Port) (a b : Level) : Sys2Proof.Laws.Kinds.Statement (.debounceEnter p a b) := ⟨rfl, rfl, nofun⟩
theorem Sys2Proof.Laws.Kinds.presenceDeclared (p : Port) : Sys2Proof.Laws.Kinds.Statement (.presenceDeclared p) := ⟨rfl, rfl, nofun⟩
theorem Sys2Proof.Laws.Kinds.invalidReturn (p : Port) : Sys2Proof.Laws.Kinds.Statement (.invalidReturn p) := ⟨rfl, rfl, nofun⟩
theorem Sys2Proof.Laws.Kinds.pwrWaitEnd (p : Port) : Sys2Proof.Laws.Kinds.Statement (.pwrWaitEnd p) := ⟨rfl, rfl, nofun⟩
theorem Sys2Proof.Laws.Kinds.rstPhaseEnd (p : Port) : Sys2Proof.Laws.Kinds.Statement (.rstPhaseEnd p) := ⟨rfl, rfl, nofun⟩
theorem Sys2Proof.Laws.Kinds.chirpDRecognised (p : Port) (held : Bool) : Sys2Proof.Laws.Kinds.Statement (.chirpDRecognised p held) := ⟨rfl, rfl, nofun⟩
theorem Sys2Proof.Laws.Kinds.resetEnd (p : Port) : Sys2Proof.Laws.Kinds.Statement (.resetEnd p) := ⟨rfl, rfl, nofun⟩
theorem Sys2Proof.Laws.Kinds.recoveryEnd (p : Port) : Sys2Proof.Laws.Kinds.Statement (.recoveryEnd p) := ⟨rfl, rfl, nofun⟩
theorem Sys2Proof.Laws.Kinds.detach (p : Port) : Sys2Proof.Laws.Kinds.Statement (.detach p) := ⟨rfl, rfl, nofun⟩
theorem Sys2Proof.Laws.Kinds.linkReset (l : Link) (p : Port) (v : W32) : Sys2Proof.Laws.Kinds.Statement (.linkReset l p v) := ⟨rfl, rfl, nofun⟩
theorem Sys2Proof.Laws.Kinds.linkSuspend (l : Link) (p : Port) (v : W32) : Sys2Proof.Laws.Kinds.Statement (.linkSuspend l p v) := ⟨rfl, rfl, nofun⟩
theorem Sys2Proof.Laws.Kinds.linkResume (l : Link) (p : Port) (v : W32) : Sys2Proof.Laws.Kinds.Statement (.linkResume l p v) := ⟨rfl, rfl, nofun⟩
theorem Sys2Proof.Laws.Kinds.linkDisable (l : Link) (p : Port) (v : W32) : Sys2Proof.Laws.Kinds.Statement (.linkDisable l p v) := ⟨rfl, rfl, nofun⟩
theorem Sys2Proof.Laws.Kinds.linkEnable (l : Link) (p : Port) (v : W32) : Sys2Proof.Laws.Kinds.Statement (.linkEnable l p v) := ⟨rfl, rfl, nofun⟩
theorem Sys2Proof.Laws.Kinds.suspendComplete (p : Port) : Sys2Proof.Laws.Kinds.Statement (.suspendComplete p) := ⟨rfl, rfl, nofun⟩
theorem Sys2Proof.Laws.Kinds.rsmEnd (p : Port) : Sys2Proof.Laws.Kinds.Statement (.rsmEnd p) := ⟨rfl, rfl, nofun⟩
theorem Sys2Proof.Laws.Kinds.wkp (p : Port) (cyc : Cycle) : Sys2Proof.Laws.Kinds.Statement (.wkp p cyc) := ⟨rfl, rfl, nofun⟩
theorem Sys2Proof.Laws.Kinds.surge (p : Port) (peak : W16) (cyc : Cycle) : Sys2Proof.Laws.Kinds.Statement (.surge p peak cyc) := ⟨rfl, rfl, nofun⟩
theorem Sys2Proof.Laws.Kinds.rxRelock (p : Port) : Sys2Proof.Laws.Kinds.Statement (.rxRelock p) := ⟨rfl, rfl, nofun⟩
theorem Sys2Proof.Laws.Kinds.responseTimeout (p : Port) (cyc : Cycle) : Sys2Proof.Laws.Kinds.Statement (.responseTimeout p cyc) := ⟨rfl, rfl, nofun⟩
theorem Sys2Proof.Laws.Kinds.wireSequenceEnd (p : Port) (reply : List RxPkt) (cyc : Cycle) : Sys2Proof.Laws.Kinds.Statement (.wireSequenceEnd p reply cyc) := ⟨rfl, rfl, nofun⟩
theorem Sys2Proof.Laws.Kinds.powerNotice (p : Port) : Sys2Proof.Laws.Kinds.Statement (.powerNotice p) := ⟨rfl, rfl, nofun⟩
theorem Sys2Proof.Laws.Kinds.treeService (p : Port) (reply : List RxPkt) (cyc : Cycle) : Sys2Proof.Laws.Kinds.Statement (.treeService p reply cyc) := ⟨rfl, rfl, nofun⟩
theorem Sys2Proof.Laws.Kinds.hubPortResetDue (p : Port) : Sys2Proof.Laws.Kinds.Statement (.hubPortResetDue p) := ⟨rfl, rfl, nofun⟩
theorem Sys2Proof.Laws.Kinds.deferTimeout (c : CtxIdx) : Sys2Proof.Laws.Kinds.Statement (.deferTimeout c) := ⟨rfl, rfl, nofun⟩
theorem Sys2Proof.Laws.Kinds.stagingList : Sys2Proof.Laws.Kinds.Statement (.stagingList) := ⟨rfl, rfl, nofun⟩
theorem Sys2Proof.Laws.Kinds.contextFillDone (c : CtxIdx) : Sys2Proof.Laws.Kinds.Statement (.contextFillDone c) := ⟨rfl, rfl, nofun⟩
theorem Sys2Proof.Laws.Kinds.entryEligible (sl : Slice) (q : QNum) (pos : BitVec 17) : Sys2Proof.Laws.Kinds.Statement (.entryEligible sl q pos) := ⟨rfl, rfl, nofun⟩
theorem Sys2Proof.Laws.Kinds.entryBind (sl : Slice) (q : QNum) (pos : BitVec 17) : Sys2Proof.Laws.Kinds.Statement (.entryBind sl q pos) := ⟨rfl, rfl, nofun⟩
theorem Sys2Proof.Laws.Kinds.deviceRelease (d : DevId) : Sys2Proof.Laws.Kinds.Statement (.deviceRelease d) := ⟨rfl, rfl, nofun⟩
theorem Sys2Proof.Laws.Kinds.lostIdRelease (d : DevId) : Sys2Proof.Laws.Kinds.Statement (.lostIdRelease d) := ⟨rfl, rfl, nofun⟩
theorem Sys2Proof.Laws.Kinds.programEntry (p : Port) (k : BitVec 3) : Sys2Proof.Laws.Kinds.Statement (.programEntry p k) := ⟨rfl, rfl, nofun⟩
theorem Sys2Proof.Laws.Kinds.nop (u : CUnit) (gd : Guard) : Sys2Proof.Laws.Kinds.Statement (.nop u gd) := ⟨rfl, rfl, fun _ => ⟨rfl, rfl⟩⟩
theorem Sys2Proof.Laws.Kinds.endRun (u : CUnit) (gd : Guard) : Sys2Proof.Laws.Kinds.Statement (.endRun u gd) := ⟨rfl, rfl, fun _ => ⟨rfl, rfl⟩⟩
theorem Sys2Proof.Laws.Kinds.add (u : CUnit) (gd : Guard) (d a b : Reg) : Sys2Proof.Laws.Kinds.Statement (.add u gd d a b) := ⟨rfl, rfl, fun _ => ⟨rfl, rfl⟩⟩
theorem Sys2Proof.Laws.Kinds.sub (u : CUnit) (gd : Guard) (d a b : Reg) : Sys2Proof.Laws.Kinds.Statement (.sub u gd d a b) := ⟨rfl, rfl, fun _ => ⟨rfl, rfl⟩⟩
theorem Sys2Proof.Laws.Kinds.and (u : CUnit) (gd : Guard) (d a b : Reg) : Sys2Proof.Laws.Kinds.Statement (.and u gd d a b) := ⟨rfl, rfl, fun _ => ⟨rfl, rfl⟩⟩
theorem Sys2Proof.Laws.Kinds.or (u : CUnit) (gd : Guard) (d a b : Reg) : Sys2Proof.Laws.Kinds.Statement (.or u gd d a b) := ⟨rfl, rfl, fun _ => ⟨rfl, rfl⟩⟩
theorem Sys2Proof.Laws.Kinds.xor (u : CUnit) (gd : Guard) (d a b : Reg) : Sys2Proof.Laws.Kinds.Statement (.xor u gd d a b) := ⟨rfl, rfl, fun _ => ⟨rfl, rfl⟩⟩
theorem Sys2Proof.Laws.Kinds.shl (u : CUnit) (gd : Guard) (d a b : Reg) : Sys2Proof.Laws.Kinds.Statement (.shl u gd d a b) := ⟨rfl, rfl, fun _ => ⟨rfl, rfl⟩⟩
theorem Sys2Proof.Laws.Kinds.shr (u : CUnit) (gd : Guard) (d a b : Reg) : Sys2Proof.Laws.Kinds.Statement (.shr u gd d a b) := ⟨rfl, rfl, fun _ => ⟨rfl, rfl⟩⟩
theorem Sys2Proof.Laws.Kinds.sar (u : CUnit) (gd : Guard) (d a b : Reg) : Sys2Proof.Laws.Kinds.Statement (.sar u gd d a b) := ⟨rfl, rfl, fun _ => ⟨rfl, rfl⟩⟩
theorem Sys2Proof.Laws.Kinds.min (u : CUnit) (gd : Guard) (d a b : Reg) : Sys2Proof.Laws.Kinds.Statement (.min u gd d a b) := ⟨rfl, rfl, fun _ => ⟨rfl, rfl⟩⟩
theorem Sys2Proof.Laws.Kinds.max (u : CUnit) (gd : Guard) (d a b : Reg) : Sys2Proof.Laws.Kinds.Statement (.max u gd d a b) := ⟨rfl, rfl, fun _ => ⟨rfl, rfl⟩⟩
theorem Sys2Proof.Laws.Kinds.mul (u : CUnit) (gd : Guard) (d a b : Reg) : Sys2Proof.Laws.Kinds.Statement (.mul u gd d a b) := ⟨rfl, rfl, fun _ => ⟨rfl, rfl⟩⟩
theorem Sys2Proof.Laws.Kinds.addi (u : CUnit) (gd : Guard) (d a : Reg) (imm : BitVec 15) : Sys2Proof.Laws.Kinds.Statement (.addi u gd d a imm) := ⟨rfl, rfl, fun _ => ⟨rfl, rfl⟩⟩
theorem Sys2Proof.Laws.Kinds.andi (u : CUnit) (gd : Guard) (d a : Reg) (imm : BitVec 15) : Sys2Proof.Laws.Kinds.Statement (.andi u gd d a imm) := ⟨rfl, rfl, fun _ => ⟨rfl, rfl⟩⟩
theorem Sys2Proof.Laws.Kinds.ori (u : CUnit) (gd : Guard) (d a : Reg) (imm : BitVec 15) : Sys2Proof.Laws.Kinds.Statement (.ori u gd d a imm) := ⟨rfl, rfl, fun _ => ⟨rfl, rfl⟩⟩
theorem Sys2Proof.Laws.Kinds.xori (u : CUnit) (gd : Guard) (d a : Reg) (imm : BitVec 15) : Sys2Proof.Laws.Kinds.Statement (.xori u gd d a imm) := ⟨rfl, rfl, fun _ => ⟨rfl, rfl⟩⟩
theorem Sys2Proof.Laws.Kinds.shli (u : CUnit) (gd : Guard) (d a : Reg) (imm : BitVec 15) : Sys2Proof.Laws.Kinds.Statement (.shli u gd d a imm) := ⟨rfl, rfl, fun _ => ⟨rfl, rfl⟩⟩
theorem Sys2Proof.Laws.Kinds.shri (u : CUnit) (gd : Guard) (d a : Reg) (imm : BitVec 15) : Sys2Proof.Laws.Kinds.Statement (.shri u gd d a imm) := ⟨rfl, rfl, fun _ => ⟨rfl, rfl⟩⟩
theorem Sys2Proof.Laws.Kinds.movi (u : CUnit) (gd : Guard) (d : Reg) (imm : W16) : Sys2Proof.Laws.Kinds.Statement (.movi u gd d imm) := ⟨rfl, rfl, fun _ => ⟨rfl, rfl⟩⟩
theorem Sys2Proof.Laws.Kinds.movhi (u : CUnit) (gd : Guard) (d : Reg) (imm : W16) : Sys2Proof.Laws.Kinds.Statement (.movhi u gd d imm) := ⟨rfl, rfl, fun _ => ⟨rfl, rfl⟩⟩
theorem Sys2Proof.Laws.Kinds.cmp (u : CUnit) (gd : Guard) (pd : Pred) (cond : BitVec 3) (a b : Reg) : Sys2Proof.Laws.Kinds.Statement (.cmp u gd pd cond a b) := ⟨rfl, rfl, fun _ => ⟨rfl, rfl⟩⟩
theorem Sys2Proof.Laws.Kinds.cmpi (u : CUnit) (gd : Guard) (pd : Pred) (cond : BitVec 3) (a : Reg) (imm : BitVec 14) : Sys2Proof.Laws.Kinds.Statement (.cmpi u gd pd cond a imm) := ⟨rfl, rfl, fun _ => ⟨rfl, rfl⟩⟩
theorem Sys2Proof.Laws.Kinds.plog (u : CUnit) (gd : Guard) (pd pa pb : Pred) (fn : BitVec 2) : Sys2Proof.Laws.Kinds.Statement (.plog u gd pd pa pb fn) := ⟨rfl, rfl, fun _ => ⟨rfl, rfl⟩⟩
theorem Sys2Proof.Laws.Kinds.rds (u : CUnit) (gd : Guard) (d : Reg) (sel : BitVec 4) : Sys2Proof.Laws.Kinds.Statement (.rds u gd d sel) := ⟨rfl, rfl, fun _ => ⟨rfl, rfl⟩⟩
theorem Sys2Proof.Laws.Kinds.br (u : CUnit) (gd : Guard) (off : W16) : Sys2Proof.Laws.Kinds.Statement (.br u gd off) := ⟨rfl, rfl, fun _ => ⟨rfl, rfl⟩⟩
theorem Sys2Proof.Laws.Kinds.loop (u : CUnit) (gd : Guard) (d : Reg) (n : Byte) (len : BitVec 11) : Sys2Proof.Laws.Kinds.Statement (.loop u gd d n len) := ⟨rfl, rfl, fun _ => ⟨rfl, rfl⟩⟩
theorem Sys2Proof.Laws.Kinds.await (u : CUnit) (gd : Guard) (mode : BitVec 2) (a : Reg) (cyc : BitVec 14) : Sys2Proof.Laws.Kinds.Statement (.await u gd mode a cyc) := ⟨rfl, rfl, fun _ => ⟨rfl, rfl⟩⟩
theorem Sys2Proof.Laws.Kinds.raise (u : CUnit) (gd : Guard) (op : RaiseOp) : Sys2Proof.Laws.Kinds.Statement (.raise u gd op) := by cases op <;> exact ⟨rfl, rfl, fun _ => ⟨rfl, rfl⟩⟩
theorem Sys2Proof.Laws.Kinds.selc (p : Port) (idx : CtxIdx) : Sys2Proof.Laws.Kinds.Statement (.selc p idx) := ⟨rfl, rfl, fun _ => ⟨rfl, rfl⟩⟩
theorem Sys2Proof.Laws.Kinds.selcr (p : Port) (gd : Guard) (off : W16) : Sys2Proof.Laws.Kinds.Statement (.selcr p gd off) := ⟨rfl, rfl, fun _ => ⟨rfl, rfl⟩⟩
theorem Sys2Proof.Laws.Kinds.ldc (u : CUnit) (gd : Guard) (d : Reg) (word : BitVec 4) (h : Bool) : Sys2Proof.Laws.Kinds.Statement (.ldc u gd d word h) := ⟨rfl, rfl, fun _ => ⟨rfl, rfl⟩⟩
theorem Sys2Proof.Laws.Kinds.stc (u : CUnit) (gd : Guard) (a : Reg) (word : BitVec 4) (h : Bool) : Sys2Proof.Laws.Kinds.Statement (.stc u gd a word h) := ⟨rfl, rfl, fun _ => ⟨rfl, rfl⟩⟩
theorem Sys2Proof.Laws.Kinds.poll (p : Port) (gd : Guard) (d : Reg) (cnt : BitVec 3) (rty : BitVec 2) (e : Reg) : Sys2Proof.Laws.Kinds.Statement (.poll p gd d cnt rty e) := ⟨rfl, rfl, fun _ => ⟨rfl, rfl⟩⟩
theorem Sys2Proof.Laws.Kinds.take (p : Port) (gd : Guard) (d : Reg) (cnt : BitVec 3) (rty : BitVec 2) (e : Reg) : Sys2Proof.Laws.Kinds.Statement (.take p gd d cnt rty e) := ⟨rfl, rfl, fun _ => ⟨rfl, rfl⟩⟩
theorem Sys2Proof.Laws.Kinds.give (p : Port) (gd : Guard) (d : Reg) (cnt : BitVec 3) (rty : BitVec 2) (e : Reg) : Sys2Proof.Laws.Kinds.Statement (.give p gd d cnt rty e) := ⟨rfl, rfl, fun _ => ⟨rfl, rfl⟩⟩
theorem Sys2Proof.Laws.Kinds.setup (p : Port) (gd : Guard) (d : Reg) (cnt : BitVec 3) (rty : BitVec 2) (e : Reg) : Sys2Proof.Laws.Kinds.Statement (.setup p gd d cnt rty e) := ⟨rfl, rfl, fun _ => ⟨rfl, rfl⟩⟩
theorem Sys2Proof.Laws.Kinds.ping (p : Port) (gd : Guard) (d : Reg) (cnt : BitVec 3) (rty : BitVec 2) (e : Reg) : Sys2Proof.Laws.Kinds.Statement (.ping p gd d cnt rty e) := ⟨rfl, rfl, fun _ => ⟨rfl, rfl⟩⟩
theorem Sys2Proof.Laws.Kinds.defer (p : Port) (gd : Guard) (d : Reg) (cnt : BitVec 3) (rty : BitVec 2) (e : Reg) : Sys2Proof.Laws.Kinds.Statement (.defer p gd d cnt rty e) := ⟨rfl, rfl, fun _ => ⟨rfl, rfl⟩⟩
theorem Sys2Proof.Laws.Kinds.suspend (p : Port) (gd : Guard) (d : Reg) (cnt : BitVec 3) (rty : BitVec 2) (e : Reg) : Sys2Proof.Laws.Kinds.Statement (.suspend p gd d cnt rty e) := ⟨rfl, rfl, fun _ => ⟨rfl, rfl⟩⟩
theorem Sys2Proof.Laws.Kinds.resume (p : Port) (gd : Guard) (d : Reg) (cnt : BitVec 3) (rty : BitVec 2) (e : Reg) : Sys2Proof.Laws.Kinds.Statement (.resume p gd d cnt rty e) := ⟨rfl, rfl, fun _ => ⟨rfl, rfl⟩⟩
theorem Sys2Proof.Laws.Kinds.probe (p : Port) (gd : Guard) (d : Reg) (val : BitVec 14) : Sys2Proof.Laws.Kinds.Statement (.probe p gd d val) := ⟨rfl, rfl, fun _ => ⟨rfl, rfl⟩⟩
theorem Sys2Proof.Laws.Kinds.weave (p : Port) (gd : Guard) (d : Reg) (val : BitVec 14) : Sys2Proof.Laws.Kinds.Statement (.weave p gd d val) := ⟨rfl, rfl, fun _ => ⟨rfl, rfl⟩⟩
theorem Sys2Proof.Laws.Kinds.snap (c : Core) (gd : Guard) (d : Reg) (item : W16) : Sys2Proof.Laws.Kinds.Statement (.snap c gd d item) := ⟨rfl, rfl, fun _ => ⟨rfl, rfl⟩⟩
theorem Sys2Proof.Laws.Kinds.bound (c : Core) (gd : Guard) (d a : Reg) (bnd : BitVec 11) : Sys2Proof.Laws.Kinds.Statement (.bound c gd d a bnd) := ⟨rfl, rfl, fun _ => ⟨rfl, rfl⟩⟩
theorem Sys2Proof.Laws.Kinds.ema (c : Core) (gd : Guard) (d a : Reg) (k : BitVec 5) : Sys2Proof.Laws.Kinds.Statement (.ema c gd d a k) := ⟨rfl, rfl, fun _ => ⟨rfl, rfl⟩⟩
theorem Sys2Proof.Laws.Kinds.act (c : Core) (gd : Guard) (a : Reg) (actr : BitVec 15) : Sys2Proof.Laws.Kinds.Statement (.act c gd a actr) := ⟨rfl, rfl, fun _ => ⟨rfl, rfl⟩⟩
theorem Sys2Proof.Laws.Kinds.timer (c : Core) (gd : Guard) (t : Task) (flag : BitVec 5) (a : Reg) : Sys2Proof.Laws.Kinds.Statement (.timer c gd t flag a) := ⟨rfl, rfl, fun _ => ⟨rfl, rfl⟩⟩
theorem Sys2Proof.Laws.Kinds.flow (c : Core) (gd : Guard) (f : Flow) (a : Reg) : Sys2Proof.Laws.Kinds.Statement (.flow c gd f a) := ⟨rfl, rfl, fun _ => ⟨rfl, rfl⟩⟩
theorem Sys2Proof.Laws.Kinds.trace (c : Core) (gd : Guard) (a : Reg) : Sys2Proof.Laws.Kinds.Statement (.trace c gd a) := ⟨rfl, rfl, fun _ => ⟨rfl, rfl⟩⟩
theorem Sys2Proof.Laws.Kinds.taskDispatch (c : Core) : Sys2Proof.Laws.Kinds.Statement (.taskDispatch c) := ⟨rfl, rfl, nofun⟩
theorem Sys2Proof.Laws.Kinds.flowRelease (f : Flow) (cyc : Cycle) : Sys2Proof.Laws.Kinds.Statement (.flowRelease f cyc) := ⟨rfl, rfl, nofun⟩
theorem Sys2Proof.Laws.Kinds.timerFire (t : Task) (flag : BitVec 5) : Sys2Proof.Laws.Kinds.Statement (.timerFire t flag) := ⟨rfl, rfl, nofun⟩
theorem Sys2Proof.Laws.Kinds.portIsolation (p : Port) : Sys2Proof.Laws.Kinds.Statement (.portIsolation p) := ⟨rfl, rfl, nofun⟩
theorem Sys2Proof.Laws.Kinds.pollBackoff (p : Port) (handle : BitVec 23) : Sys2Proof.Laws.Kinds.Statement (.pollBackoff p handle) := ⟨rfl, rfl, nofun⟩
theorem Sys2Proof.Laws.Kinds.powerShedding : Sys2Proof.Laws.Kinds.Statement (.powerShedding) := ⟨rfl, rfl, nofun⟩
theorem Sys2Proof.Laws.Kinds.thermalDerating (p : Port) : Sys2Proof.Laws.Kinds.Statement (.thermalDerating p) := ⟨rfl, rfl, nofun⟩
theorem Sys2Proof.Laws.Kinds.contextPinning (c : CtxIdx) : Sys2Proof.Laws.Kinds.Statement (.contextPinning c) := ⟨rfl, rfl, nofun⟩
theorem Sys2Proof.Laws.Kinds.radioPacing (b : BitVec 6) : Sys2Proof.Laws.Kinds.Statement (.radioPacing b) := ⟨rfl, rfl, nofun⟩
theorem Sys2Proof.Laws.Kinds.loadShedNotice (sl : Slice) (f : BitVec 2) : Sys2Proof.Laws.Kinds.Statement (.loadShedNotice sl f) := ⟨rfl, rfl, nofun⟩
theorem Sys2Proof.Laws.Kinds.traceBlock (k : BitVec 3) : Sys2Proof.Laws.Kinds.Statement (.traceBlock k) := ⟨rfl, rfl, nofun⟩
theorem Sys2Proof.Laws.Kinds.admissionComplete : Sys2Proof.Laws.Kinds.Statement (.admissionComplete) := ⟨rfl, rfl, nofun⟩
theorem Sys2Proof.Laws.Kinds.switchTick (p : Option Port) : Sys2Proof.Laws.Kinds.Statement (.switchTick p) := ⟨rfl, rfl, nofun⟩
theorem Sys2Proof.Laws.Kinds.weaverGenerate (p : Port) (sl : Slice) : Sys2Proof.Laws.Kinds.Statement (.weaverGenerate p sl) := ⟨rfl, rfl, nofun⟩
theorem Sys2Proof.Laws.Kinds.queuePoll (sl : Slice) (q : QNum) (own : List Bool) : Sys2Proof.Laws.Kinds.Statement (.queuePoll sl q own) := ⟨rfl, rfl, nofun⟩
theorem Sys2Proof.Laws.Kinds.entryFetched (sl : Slice) (q : QNum) (raw : List W64) : Sys2Proof.Laws.Kinds.Statement (.entryFetched sl q raw) := ⟨rfl, rfl, nofun⟩
theorem Sys2Proof.Laws.Kinds.qprodWrite (l : Link) (w : BitVec 4) (q : QNum) (v : W32) : Sys2Proof.Laws.Kinds.Statement (.qprodWrite l w q v) := ⟨rfl, rfl, nofun⟩
theorem Sys2Proof.Laws.Kinds.adminCfgWrite (l : Link) (w : BitVec 4) (v : W32) : Sys2Proof.Laws.Kinds.Statement (.adminCfgWrite l w v) := ⟨rfl, rfl, nofun⟩
theorem Sys2Proof.Laws.Kinds.nopEntry (sl : Slice) (q : QNum) (pos : BitVec 17) : Sys2Proof.Laws.Kinds.Statement (.nopEntry sl q pos) := ⟨rfl, rfl, nofun⟩
theorem Sys2Proof.Laws.Kinds.transfer (sl : Slice) (q : QNum) (pos : BitVec 17) : Sys2Proof.Laws.Kinds.Statement (.transfer sl q pos) := ⟨rfl, rfl, nofun⟩
theorem Sys2Proof.Laws.Kinds.createQueue (sl : Slice) : Sys2Proof.Laws.Kinds.Statement (.createQueue sl) := ⟨rfl, rfl, nofun⟩
theorem Sys2Proof.Laws.Kinds.destroyQueue (sl : Slice) : Sys2Proof.Laws.Kinds.Statement (.destroyQueue sl) := ⟨rfl, rfl, nofun⟩
theorem Sys2Proof.Laws.Kinds.queueMode (sl : Slice) : Sys2Proof.Laws.Kinds.Statement (.queueMode sl) := ⟨rfl, rfl, nofun⟩
theorem Sys2Proof.Laws.Kinds.queueModeSwitch (sl : Slice) (q : QNum) : Sys2Proof.Laws.Kinds.Statement (.queueModeSwitch sl q) := ⟨rfl, rfl, nofun⟩
theorem Sys2Proof.Laws.Kinds.queueSet (sl : Slice) : Sys2Proof.Laws.Kinds.Statement (.queueSet sl) := ⟨rfl, rfl, nofun⟩
theorem Sys2Proof.Laws.Kinds.admitWarp (sl : Slice) (words : List W32) : Sys2Proof.Laws.Kinds.Statement (.admitWarp sl words) := ⟨rfl, rfl, nofun⟩
theorem Sys2Proof.Laws.Kinds.withdrawWarp (sl : Slice) : Sys2Proof.Laws.Kinds.Statement (.withdrawWarp sl) := ⟨rfl, rfl, nofun⟩
theorem Sys2Proof.Laws.Kinds.admitGraph (sl : Slice) (image : List W64) : Sys2Proof.Laws.Kinds.Statement (.admitGraph sl image) := ⟨rfl, rfl, nofun⟩
theorem Sys2Proof.Laws.Kinds.withdrawGraph (sl : Slice) : Sys2Proof.Laws.Kinds.Statement (.withdrawGraph sl) := ⟨rfl, rfl, nofun⟩
theorem Sys2Proof.Laws.Kinds.registerPeriodic (sl : Slice) : Sys2Proof.Laws.Kinds.Statement (.registerPeriodic sl) := ⟨rfl, rfl, nofun⟩
theorem Sys2Proof.Laws.Kinds.withdrawPeriodic (sl : Slice) : Sys2Proof.Laws.Kinds.Statement (.withdrawPeriodic sl) := ⟨rfl, rfl, nofun⟩
theorem Sys2Proof.Laws.Kinds.setWeftMin (sl : Slice) : Sys2Proof.Laws.Kinds.Statement (.setWeftMin sl) := ⟨rfl, rfl, nofun⟩
theorem Sys2Proof.Laws.Kinds.setPortSched (sl : Slice) (segs : List W32) : Sys2Proof.Laws.Kinds.Statement (.setPortSched sl segs) := ⟨rfl, rfl, nofun⟩
theorem Sys2Proof.Laws.Kinds.setTktTimeout (sl : Slice) : Sys2Proof.Laws.Kinds.Statement (.setTktTimeout sl) := ⟨rfl, rfl, nofun⟩
theorem Sys2Proof.Laws.Kinds.setAddrPlan (sl : Slice) : Sys2Proof.Laws.Kinds.Statement (.setAddrPlan sl) := ⟨rfl, rfl, nofun⟩
theorem Sys2Proof.Laws.Kinds.pin (sl : Slice) : Sys2Proof.Laws.Kinds.Statement (.pin sl) := ⟨rfl, rfl, nofun⟩
theorem Sys2Proof.Laws.Kinds.unpin (sl : Slice) : Sys2Proof.Laws.Kinds.Statement (.unpin sl) := ⟨rfl, rfl, nofun⟩
theorem Sys2Proof.Laws.Kinds.readDevice (sl : Slice) : Sys2Proof.Laws.Kinds.Statement (.readDevice sl) := ⟨rfl, rfl, nofun⟩
theorem Sys2Proof.Laws.Kinds.resetSegment (sl : Slice) : Sys2Proof.Laws.Kinds.Statement (.resetSegment sl) := ⟨rfl, rfl, nofun⟩
theorem Sys2Proof.Laws.Kinds.setChannel (sl : Slice) : Sys2Proof.Laws.Kinds.Statement (.setChannel sl) := ⟨rfl, rfl, nofun⟩
theorem Sys2Proof.Laws.Kinds.go (l : Link) (w : BitVec 4) (c : Chan) (v : W32) : Sys2Proof.Laws.Kinds.Statement (.go l w c v) := ⟨rfl, rfl, nofun⟩
theorem Sys2Proof.Laws.Kinds.goChain (l : Link) (w : BitVec 4) (c : Chan) (v : W32) : Sys2Proof.Laws.Kinds.Statement (.goChain l w c v) := ⟨rfl, rfl, nofun⟩
theorem Sys2Proof.Laws.Kinds.stop (l : Link) (w : BitVec 4) (c : Chan) (v : W32) : Sys2Proof.Laws.Kinds.Statement (.stop l w c v) := ⟨rfl, rfl, nofun⟩
theorem Sys2Proof.Laws.Kinds.kill (l : Link) (w : BitVec 4) (c : Chan) (v : W32) : Sys2Proof.Laws.Kinds.Statement (.kill l w c v) := ⟨rfl, rfl, nofun⟩
theorem Sys2Proof.Laws.Kinds.shadowWrite (l : Link) (w : BitVec 4) (c : Chan) (k : BitVec 3) (v : W32) : Sys2Proof.Laws.Kinds.Statement (.shadowWrite l w c k v) := ⟨rfl, rfl, nofun⟩
theorem Sys2Proof.Laws.Kinds.cqConsWrite (l : Link) (w : BitVec 4) (c : Chan) (v : W32) : Sys2Proof.Laws.Kinds.Statement (.cqConsWrite l w c v) := ⟨rfl, rfl, nofun⟩
theorem Sys2Proof.Laws.Kinds.burstIssue (c : Chan) (d : Dir) (cyc : Cycle) : Sys2Proof.Laws.Kinds.Statement (.burstIssue c d cyc) := ⟨rfl, rfl, nofun⟩
theorem Sys2Proof.Laws.Kinds.dmaReadCompletion (c : Chan) (q : QNum) (pos : BitVec 17) (data : List Byte) : Sys2Proof.Laws.Kinds.Statement (.dmaReadCompletion c q pos data) := ⟨rfl, rfl, nofun⟩
theorem Sys2Proof.Laws.Kinds.chainFetch (c : Chan) (d : Option (List W64)) : Sys2Proof.Laws.Kinds.Statement (.chainFetch c d) := ⟨rfl, rfl, nofun⟩
theorem Sys2Proof.Laws.Kinds.descriptorEnd (c : Chan) : Sys2Proof.Laws.Kinds.Statement (.descriptorEnd c) := ⟨rfl, rfl, nofun⟩
theorem Sys2Proof.Laws.Kinds.dmaReadError (c : Chan) (q : QNum) (pos : BitVec 17) (err : ReadError) : Sys2Proof.Laws.Kinds.Statement (.dmaReadError c q pos err) := ⟨rfl, rfl, nofun⟩
theorem Sys2Proof.Laws.Kinds.setBound (sl : Slice) : Sys2Proof.Laws.Kinds.Statement (.setBound sl) := ⟨rfl, rfl, nofun⟩
theorem Sys2Proof.Laws.Kinds.setActBound (sl : Slice) : Sys2Proof.Laws.Kinds.Statement (.setActBound sl) := ⟨rfl, rfl, nofun⟩
theorem Sys2Proof.Laws.Kinds.graphCtl (sl : Slice) : Sys2Proof.Laws.Kinds.Statement (.graphCtl sl) := ⟨rfl, rfl, nofun⟩
theorem Sys2Proof.Laws.Kinds.setFlag (sl : Slice) : Sys2Proof.Laws.Kinds.Statement (.setFlag sl) := ⟨rfl, rfl, nofun⟩
theorem Sys2Proof.Laws.Kinds.readTask (sl : Slice) : Sys2Proof.Laws.Kinds.Statement (.readTask sl) := ⟨rfl, rfl, nofun⟩
theorem Sys2Proof.Laws.Kinds.readSnapshot (sl : Slice) : Sys2Proof.Laws.Kinds.Statement (.readSnapshot sl) := ⟨rfl, rfl, nofun⟩
theorem Sys2Proof.Laws.Kinds.traceExport (sl : Slice) : Sys2Proof.Laws.Kinds.Statement (.traceExport sl) := ⟨rfl, rfl, nofun⟩
theorem Sys2Proof.Laws.Kinds.readTraceStat (sl : Slice) : Sys2Proof.Laws.Kinds.Statement (.readTraceStat sl) := ⟨rfl, rfl, nofun⟩
theorem Sys2Proof.Laws.Kinds.defineSlice (sl : Slice) (record : List W64) (entropy : Bool) : Sys2Proof.Laws.Kinds.Statement (.defineSlice sl record entropy) := ⟨rfl, rfl, nofun⟩
theorem Sys2Proof.Laws.Kinds.resizeSlice (sl : Slice) (record : List W64) : Sys2Proof.Laws.Kinds.Statement (.resizeSlice sl record) := ⟨rfl, rfl, nofun⟩
theorem Sys2Proof.Laws.Kinds.bindSlice (sl : Slice) : Sys2Proof.Laws.Kinds.Statement (.bindSlice sl) := ⟨rfl, rfl, nofun⟩
theorem Sys2Proof.Laws.Kinds.unbindSlice (sl : Slice) : Sys2Proof.Laws.Kinds.Statement (.unbindSlice sl) := ⟨rfl, rfl, nofun⟩
theorem Sys2Proof.Laws.Kinds.freezeSlice (sl : Slice) : Sys2Proof.Laws.Kinds.Statement (.freezeSlice sl) := ⟨rfl, rfl, nofun⟩
theorem Sys2Proof.Laws.Kinds.thawSlice (sl : Slice) : Sys2Proof.Laws.Kinds.Statement (.thawSlice sl) := ⟨rfl, rfl, nofun⟩
theorem Sys2Proof.Laws.Kinds.releaseSlice (sl : Slice) : Sys2Proof.Laws.Kinds.Statement (.releaseSlice sl) := ⟨rfl, rfl, nofun⟩
theorem Sys2Proof.Laws.Kinds.setAttach (sl : Slice) : Sys2Proof.Laws.Kinds.Statement (.setAttach sl) := ⟨rfl, rfl, nofun⟩
theorem Sys2Proof.Laws.Kinds.setImageKek (sl : Slice) (data : List Byte) : Sys2Proof.Laws.Kinds.Statement (.setImageKek sl data) := ⟨rfl, rfl, nofun⟩
theorem Sys2Proof.Laws.Kinds.saveImage (sl : Slice) (entropy : Bool) : Sys2Proof.Laws.Kinds.Statement (.saveImage sl entropy) := ⟨rfl, rfl, nofun⟩
theorem Sys2Proof.Laws.Kinds.loadImage (sl : Slice) : Sys2Proof.Laws.Kinds.Statement (.loadImage sl) := ⟨rfl, rfl, nofun⟩
theorem Sys2Proof.Laws.Kinds.imageVerify : Sys2Proof.Laws.Kinds.Statement (.imageVerify) := ⟨rfl, rfl, nofun⟩
theorem Sys2Proof.Laws.Kinds.restoreImage (sl : Slice) (entropy : Bool) : Sys2Proof.Laws.Kinds.Statement (.restoreImage sl entropy) := ⟨rfl, rfl, nofun⟩
theorem Sys2Proof.Laws.Kinds.readSlice (sl : Slice) : Sys2Proof.Laws.Kinds.Statement (.readSlice sl) := ⟨rfl, rfl, nofun⟩
theorem Sys2Proof.Laws.Kinds.linkDown (l : Link) (reset : Bool) : Sys2Proof.Laws.Kinds.Statement (.linkDown l reset) := ⟨rfl, rfl, nofun⟩
theorem Sys2Proof.Laws.Kinds.linkUp (l : Link) (gts width : Nat) : Sys2Proof.Laws.Kinds.Statement (.linkUp l gts width) := ⟨rfl, rfl, nofun⟩
theorem Sys2Proof.Laws.Kinds.pasidEnable (l : Link) (on : Bool) : Sys2Proof.Laws.Kinds.Statement (.pasidEnable l on) := ⟨rfl, rfl, nofun⟩
theorem Sys2Proof.Laws.Kinds.pageFill (pg : W16) : Sys2Proof.Laws.Kinds.Statement (.pageFill pg) := ⟨rfl, rfl, nofun⟩
theorem Sys2Proof.Laws.Kinds.eccScrub (lines : W16) (corrected : W16) : Sys2Proof.Laws.Kinds.Statement (.eccScrub lines corrected) := ⟨rfl, rfl, nofun⟩
theorem Sys2Proof.Laws.Kinds.channelRelease (c : Chan) : Sys2Proof.Laws.Kinds.Statement (.channelRelease c) := ⟨rfl, rfl, nofun⟩
theorem Sys2Proof.Laws.Kinds.setSource (sl : Slice) : Sys2Proof.Laws.Kinds.Statement (.setSource sl) := ⟨rfl, rfl, nofun⟩
theorem Sys2Proof.Laws.Kinds.routeSource (sl : Slice) : Sys2Proof.Laws.Kinds.Statement (.routeSource sl) := ⟨rfl, rfl, nofun⟩
theorem Sys2Proof.Laws.Kinds.eqConsWrite (l : Link) (w : BitVec 4) (v : W32) : Sys2Proof.Laws.Kinds.Statement (.eqConsWrite l w v) := ⟨rfl, rfl, nofun⟩
theorem Sys2Proof.Laws.Kinds.eqCfgWrite (l : Link) (w : BitVec 4) (v : W32) : Sys2Proof.Laws.Kinds.Statement (.eqCfgWrite l w v) := ⟨rfl, rfl, nofun⟩
theorem Sys2Proof.Laws.Kinds.eqCtlWrite (l : Link) (w : BitVec 4) (v : W32) : Sys2Proof.Laws.Kinds.Statement (.eqCtlWrite l w v) := ⟨rfl, rfl, nofun⟩
theorem Sys2Proof.Laws.Kinds.grpMaskWrite (l : Link) (w : BitVec 4) (v : W32) : Sys2Proof.Laws.Kinds.Statement (.grpMaskWrite l w v) := ⟨rfl, rfl, nofun⟩
theorem Sys2Proof.Laws.Kinds.fbAck (l : Link) (v : W32) : Sys2Proof.Laws.Kinds.Statement (.fbAck l v) := ⟨rfl, rfl, nofun⟩
theorem Sys2Proof.Laws.Kinds.fbCfgWrite (l : Link) (v : W32) : Sys2Proof.Laws.Kinds.Statement (.fbCfgWrite l v) := ⟨rfl, rfl, nofun⟩
theorem Sys2Proof.Laws.Kinds.d3hotEntry (l : Link) (pmeEn : Bool) : Sys2Proof.Laws.Kinds.Statement (.d3hotEntry l pmeEn) := ⟨rfl, rfl, nofun⟩
theorem Sys2Proof.Laws.Kinds.d0Return (l : Link) : Sys2Proof.Laws.Kinds.Statement (.d0Return l) := ⟨rfl, rfl, nofun⟩
theorem Sys2Proof.Laws.Kinds.setPortProfile (sl : Slice) : Sys2Proof.Laws.Kinds.Statement (.setPortProfile sl) := ⟨rfl, rfl, nofun⟩
theorem Sys2Proof.Laws.Kinds.setPortDirect (sl : Slice) : Sys2Proof.Laws.Kinds.Statement (.setPortDirect sl) := ⟨rfl, rfl, nofun⟩
theorem Sys2Proof.Laws.Kinds.portPower (sl : Slice) : Sys2Proof.Laws.Kinds.Statement (.portPower sl) := ⟨rfl, rfl, nofun⟩
theorem Sys2Proof.Laws.Kinds.portRearm (sl : Slice) : Sys2Proof.Laws.Kinds.Statement (.portRearm sl) := ⟨rfl, rfl, nofun⟩
theorem Sys2Proof.Laws.Kinds.passClear (sl : Slice) : Sys2Proof.Laws.Kinds.Statement (.passClear sl) := ⟨rfl, rfl, nofun⟩
theorem Sys2Proof.Laws.Kinds.gateRamp (p : Port) : Sys2Proof.Laws.Kinds.Statement (.gateRamp p) := ⟨rfl, rfl, nofun⟩
theorem Sys2Proof.Laws.Kinds.limit (p : Port) (amps vout vbus : W16) (cyc : Cycle) : Sys2Proof.Laws.Kinds.Statement (.limit p amps vout vbus cyc) := ⟨rfl, rfl, nofun⟩
theorem Sys2Proof.Laws.Kinds.rampEnd (p : Port) (vout vbus : W16) (cyc : Cycle) : Sys2Proof.Laws.Kinds.Statement (.rampEnd p vout vbus cyc) := ⟨rfl, rfl, nofun⟩
theorem Sys2Proof.Laws.Kinds.powerGood (p : Port) (vout vbus : W16) (cyc : Cycle) : Sys2Proof.Laws.Kinds.Statement (.powerGood p vout vbus cyc) := ⟨rfl, rfl, nofun⟩
theorem Sys2Proof.Laws.Kinds.pgTimeout (p : Port) (cyc : Cycle) : Sys2Proof.Laws.Kinds.Statement (.pgTimeout p cyc) := ⟨rfl, rfl, nofun⟩
theorem Sys2Proof.Laws.Kinds.faultTimer (p : Port) (cyc : Cycle) : Sys2Proof.Laws.Kinds.Statement (.faultTimer p cyc) := ⟨rfl, rfl, nofun⟩
theorem Sys2Proof.Laws.Kinds.shortTrip (p : Port) (amps ns : W16) (cyc : Cycle) : Sys2Proof.Laws.Kinds.Statement (.shortTrip p amps ns cyc) := ⟨rfl, rfl, nofun⟩
theorem Sys2Proof.Laws.Kinds.overload (p : Port) (cyc : Cycle) : Sys2Proof.Laws.Kinds.Statement (.overload p cyc) := ⟨rfl, rfl, nofun⟩
theorem Sys2Proof.Laws.Kinds.thermal (p : Port) (sensor board : W16) (amps vout vbus us : W16) (cyc : Cycle) : Sys2Proof.Laws.Kinds.Statement (.thermal p sensor board amps vout vbus us cyc) := ⟨rfl, rfl, nofun⟩
theorem Sys2Proof.Laws.Kinds.passFail (p : Port) (vout : W16) (us : W16) (cyc : Cycle) : Sys2Proof.Laws.Kinds.Statement (.passFail p vout us cyc) := ⟨rfl, rfl, nofun⟩
theorem Sys2Proof.Laws.Kinds.retry (p : Port) : Sys2Proof.Laws.Kinds.Statement (.retry p) := ⟨rfl, rfl, nofun⟩
theorem Sys2Proof.Laws.Kinds.retryCountClear (p : Port) : Sys2Proof.Laws.Kinds.Statement (.retryCountClear p) := ⟨rfl, rfl, nofun⟩
theorem Sys2Proof.Laws.Kinds.overloadShed (cyc : Cycle) : Sys2Proof.Laws.Kinds.Statement (.overloadShed cyc) := ⟨rfl, rfl, nofun⟩
theorem Sys2Proof.Laws.Kinds.mainsShed (bus : W16) (cyc : Cycle) : Sys2Proof.Laws.Kinds.Statement (.mainsShed bus cyc) := ⟨rfl, rfl, nofun⟩
theorem Sys2Proof.Laws.Kinds.mainsLost (bulk : Bool) : Sys2Proof.Laws.Kinds.Statement (.mainsLost bulk) := ⟨rfl, rfl, nofun⟩
theorem Sys2Proof.Laws.Kinds.lastGasp : Sys2Proof.Laws.Kinds.Statement (.lastGasp) := ⟨rfl, rfl, nofun⟩
theorem Sys2Proof.Laws.Kinds.mainsBack : Sys2Proof.Laws.Kinds.Statement (.mainsBack) := ⟨rfl, rfl, nofun⟩
theorem Sys2Proof.Laws.Kinds.powerDown : Sys2Proof.Laws.Kinds.Statement (.powerDown) := ⟨rfl, rfl, nofun⟩
theorem Sys2Proof.Laws.Kinds.bankFault : Sys2Proof.Laws.Kinds.Statement (.bankFault) := ⟨rfl, rfl, nofun⟩
theorem Sys2Proof.Laws.Kinds.coldStart : Sys2Proof.Laws.Kinds.Statement (.coldStart) := ⟨rfl, rfl, nofun⟩
theorem Sys2Proof.Laws.Kinds.pdRequest (l : Link) (d : Dom) (v : W32) : Sys2Proof.Laws.Kinds.Statement (.pdRequest l d v) := ⟨rfl, rfl, nofun⟩
theorem Sys2Proof.Laws.Kinds.pdReset (l : Link) (d : Dom) (v : W32) : Sys2Proof.Laws.Kinds.Statement (.pdReset l d v) := ⟨rfl, rfl, nofun⟩
theorem Sys2Proof.Laws.Kinds.clearQ (l : Link) (d : Dom) (v : W32) : Sys2Proof.Laws.Kinds.Statement (.clearQ l d v) := ⟨rfl, rfl, nofun⟩
theorem Sys2Proof.Laws.Kinds.domainWake (d : Dom) (cause : BitVec 3) (cyc : Cycle) : Sys2Proof.Laws.Kinds.Statement (.domainWake d cause cyc) := ⟨rfl, rfl, nofun⟩
theorem Sys2Proof.Laws.Kinds.domainPowerGood (d : Dom) (cyc : Cycle) : Sys2Proof.Laws.Kinds.Statement (.domainPowerGood d cyc) := ⟨rfl, rfl, nofun⟩
theorem Sys2Proof.Laws.Kinds.wakeAttemptFail (d : Dom) (clock : Bool) (cyc : Cycle) : Sys2Proof.Laws.Kinds.Statement (.wakeAttemptFail d clock cyc) := ⟨rfl, rfl, nofun⟩
theorem Sys2Proof.Laws.Kinds.domainRestored (d : Dom) : Sys2Proof.Laws.Kinds.Statement (.domainRestored d) := ⟨rfl, rfl, nofun⟩
theorem Sys2Proof.Laws.Kinds.autoRetention (d : Dom) (l1 : Bool) : Sys2Proof.Laws.Kinds.Statement (.autoRetention d l1) := ⟨rfl, rfl, nofun⟩
theorem Sys2Proof.Laws.Kinds.metroFrame (bytes : List Byte) : Sys2Proof.Laws.Kinds.Statement (.metroFrame bytes) := ⟨rfl, rfl, nofun⟩
theorem Sys2Proof.Laws.Kinds.cartridgePresent : Sys2Proof.Laws.Kinds.Statement (.cartridgePresent) := ⟨rfl, rfl, nofun⟩
theorem Sys2Proof.Laws.Kinds.cartridgeAbsent : Sys2Proof.Laws.Kinds.Statement (.cartridgeAbsent) := ⟨rfl, rfl, nofun⟩
theorem Sys2Proof.Laws.Kinds.p16Transfer (sl : Slice) (q : QNum) (pos : BitVec 17) : Sys2Proof.Laws.Kinds.Statement (.p16Transfer sl q pos) := ⟨rfl, rfl, nofun⟩
theorem Sys2Proof.Laws.Kinds.rawCtlWrite (l : Link) (w : BitVec 4) (v : W32) : Sys2Proof.Laws.Kinds.Statement (.rawCtlWrite l w v) := ⟨rfl, rfl, nofun⟩
theorem Sys2Proof.Laws.Kinds.rawBlock (sl : Slice) : Sys2Proof.Laws.Kinds.Statement (.rawBlock sl) := ⟨rfl, rfl, nofun⟩
theorem Sys2Proof.Laws.Kinds.indDataAccess (l : Link) (w : Option W32) : Sys2Proof.Laws.Kinds.Statement (.indDataAccess l w) := ⟨rfl, rfl, nofun⟩
theorem Sys2Proof.Laws.Kinds.unsupportedRequest (a : BarAccess) : Sys2Proof.Laws.Kinds.Statement (.unsupportedRequest a) := ⟨rfl, rfl, nofun⟩
theorem Sys2Proof.Laws.Kinds.clearOnRead (l : Link) (off : BarOff) (qword : Bool) : Sys2Proof.Laws.Kinds.Statement (.clearOnRead l off qword) := ⟨rfl, rfl, nofun⟩
theorem Sys2Proof.Laws.Kinds.injCtlWrite (l : Link) (d : Detector) (v : W32) : Sys2Proof.Laws.Kinds.Statement (.injCtlWrite l d v) := ⟨rfl, rfl, nofun⟩
theorem Sys2Proof.Laws.Kinds.injection (d : Detector) : Sys2Proof.Laws.Kinds.Statement (.injection d) := ⟨rfl, rfl, nofun⟩
theorem Sys2Proof.Laws.Kinds.tdrProbe (p : Port) (slot : Option (BitVec 14)) (res : TdrEnd) (cyc : Cycle) : Sys2Proof.Laws.Kinds.Statement (.tdrProbe p slot res cyc) := ⟨rfl, rfl, nofun⟩
theorem Sys2Proof.Laws.Kinds.irResult (p : Port) (kohm : W32) : Sys2Proof.Laws.Kinds.Statement (.irResult p kohm) := ⟨rfl, rfl, nofun⟩
theorem Sys2Proof.Laws.Kinds.surgeMains (v : W16) : Sys2Proof.Laws.Kinds.Statement (.surgeMains v) := ⟨rfl, rfl, nofun⟩
theorem Sys2Proof.Laws.Kinds.watchmanRequest (bytes : List Byte) : Sys2Proof.Laws.Kinds.Statement (.watchmanRequest bytes) := ⟨rfl, rfl, nofun⟩
theorem Sys2Proof.Laws.Kinds.lockoutEnd : Sys2Proof.Laws.Kinds.Statement (.lockoutEnd) := ⟨rfl, rfl, nofun⟩
theorem Sys2Proof.Laws.Kinds.byteGapTimeout : Sys2Proof.Laws.Kinds.Statement (.byteGapTimeout) := ⟨rfl, rfl, nofun⟩
theorem Sys2Proof.Laws.Kinds.getSeq : Sys2Proof.Laws.Kinds.Statement (.getSeq) := ⟨rfl, rfl, nofun⟩
theorem Sys2Proof.Laws.Kinds.readDigest : Sys2Proof.Laws.Kinds.Statement (.readDigest) := ⟨rfl, rfl, nofun⟩
theorem Sys2Proof.Laws.Kinds.powerCyclePort : Sys2Proof.Laws.Kinds.Statement (.powerCyclePort) := ⟨rfl, rfl, nofun⟩
theorem Sys2Proof.Laws.Kinds.powerCycleRestore (p : Port) : Sys2Proof.Laws.Kinds.Statement (.powerCycleRestore p) := ⟨rfl, rfl, nofun⟩
theorem Sys2Proof.Laws.Kinds.resetDomain : Sys2Proof.Laws.Kinds.Statement (.resetDomain) := ⟨rfl, rfl, nofun⟩
theorem Sys2Proof.Laws.Kinds.wardenLink : Sys2Proof.Laws.Kinds.Statement (.wardenLink) := ⟨rfl, rfl, nofun⟩
theorem Sys2Proof.Laws.Kinds.readLog : Sys2Proof.Laws.Kinds.Statement (.readLog) := ⟨rfl, rfl, nofun⟩
theorem Sys2Proof.Laws.Kinds.commission : Sys2Proof.Laws.Kinds.Statement (.commission) := ⟨rfl, rfl, nofun⟩
theorem Sys2Proof.Laws.Kinds.rekey : Sys2Proof.Laws.Kinds.Statement (.rekey) := ⟨rfl, rfl, nofun⟩
theorem Sys2Proof.Laws.Kinds.powerApplied : Sys2Proof.Laws.Kinds.Statement (.powerApplied) := ⟨rfl, rfl, nofun⟩
theorem Sys2Proof.Laws.Kinds.inputQualified (ok dc : Bool) : Sys2Proof.Laws.Kinds.Statement (.inputQualified ok dc) := ⟨rfl, rfl, nofun⟩
theorem Sys2Proof.Laws.Kinds.bankReady : Sys2Proof.Laws.Kinds.Statement (.bankReady) := ⟨rfl, rfl, nofun⟩
theorem Sys2Proof.Laws.Kinds.limiterRelease (p : Port) (amps vout vbus : W16) (cyc : Cycle) : Sys2Proof.Laws.Kinds.Statement (.limiterRelease p amps vout vbus cyc) := ⟨rfl, rfl, nofun⟩
theorem Sys2Proof.Laws.Kinds.codeViolation (p : Port) : Sys2Proof.Laws.Kinds.Statement (.codeViolation p) := ⟨rfl, rfl, nofun⟩
theorem Sys2Proof.Laws.Kinds.completionTimeout (l : Link) : Sys2Proof.Laws.Kinds.Statement (.completionTimeout l) := ⟨rfl, rfl, nofun⟩
theorem Sys2Proof.Laws.Kinds.ecrcFailure (l : Link) : Sys2Proof.Laws.Kinds.Statement (.ecrcFailure l) := ⟨rfl, rfl, nofun⟩
theorem Sys2Proof.Laws.Kinds.poisonedWrite (l : Link) : Sys2Proof.Laws.Kinds.Statement (.poisonedWrite l) := ⟨rfl, rfl, nofun⟩
end

