-- ==== Sys2Proof/Laws/Wire.lean ====
section
/-! SUPPORT. What goes over the line and over the host links: the line codes, sending and receiving packets (04), bursts, reads outstanding
and planes (09), and the page owner's check (11). -/
namespace Sys2Proof.Machine

open Sys2Proof

/-! ## Line codes (R106) -/

/-- No two nibbles share a code group. -/
theorem group4b5b_inj : ∀ a < 16, ∀ b < 16, group4b5b a = group4b5b b → a = b := by decide

/-- A character of Cabinet speed has four to six ones, and the disparity turns with each that has not five. -/
theorem cabinetByte_ones : ∀ (rd : Bool) (b : Byte),
    4 ≤ ones (cabinetByte rd b).1 ∧ ones (cabinetByte rd b).1 ≤ 6 ∧
    ((cabinetByte rd b).2 = rd ↔ ones (cabinetByte rd b).1 = 5) := by decide +kernel

/-- At negative disparity a character has five or six ones, at positive disparity five or four. -/
theorem cabinetByte_bounded : ∀ b : Byte, 5 ≤ ones (cabinetByte false b).1 ∧ ones (cabinetByte true b).1 ≤ 5 := by decide +kernel

theorem charsOf_length (rd : Bool) (l : List (Bool → BitVec 10 × Bool)) : (charsOf rd l).1.length = l.length := by
  induction l generalizing rd with
  | nil => rfl
  | cons f t ih => simp [charsOf, ih]

/-! ## Sending and receiving packets (R105, R107) -/

theorem State.sendPacket_out (s : State) (p : Nat) (bs : List Byte) :
    (s.sendPacket p bs).out = s.out ++ [.wire (BitVec.ofNat 4 p) bs (packetSyms (s.port p).speed (s.port p).rd bs).1] := rfl

/-- Sending a packet changes what the module has sent, and its port. -/
theorem State.sendPacket_frame (s : State) (p : Nat) (bs : List Byte) :
    ({ s.sendPacket p bs with out := s.out, ports := s.ports } : State) = s := rfl

/-- Sending packets changes what the module has sent, its port and its shuttle. -/
theorem State.transmit_frame (s : State) (p t0 : Nat) (pks : List (List Byte)) :
    ({ s.transmit p t0 pks with out := s.out, ports := s.ports, shuttles := s.shuttles } : State) = s := by
  have h := State.forAll_keeps (fun t => ({ t with out := s.out, ports := s.ports, shuttles := s.shuttles } : State) = s)
    (fun t b => t.sendPacket p b) pks (fun t b h => h) s rfl
  exact h

/-- Packets go out in their order, each with its bytes. -/
theorem State.transmit_out (s : State) (p t0 : Nat) (pks : List (List Byte)) :
    ∃ ls : List (List LineSym), ls.length = pks.length ∧
      (s.transmit p t0 pks).out = s.out ++ (pks.zip ls).map (fun x => .wire (BitVec.ofNat 4 p) x.1 x.2) := by
  have key : ∀ (l : List (List Byte)) (t : State), ∃ ls : List (List LineSym), ls.length = l.length ∧
      (t.forAll (fun t b => t.sendPacket p b) l).out = t.out ++ (l.zip ls).map (fun x => .wire (BitVec.ofNat 4 p) x.1 x.2) := by
    intro l
    induction l with
    | nil => exact fun t => ⟨[], rfl, by simp [State.forAll]⟩
    | cons b l ih =>
      intro t
      obtain ⟨ls, hl, ho⟩ := ih (t.sendPacket p b)
      refine ⟨(packetSyms (t.port p).speed (t.port p).rd b).1 :: ls, by simp [hl], ?_⟩
      rw [State.sendPacket_out] at ho
      simpa [State.forAll] using ho
  exact key pks s

/-- A packet received while the receiver was blanked, or without its ED, is damaged. -/
theorem decodeRx_damaged (lim : Nat) (blanked : Bool) (x : RxPkt) (h : blanked = true ∨ x.fin ≠ .ed) :
    ∃ hs, decodeRx lim blanked x = .bad hs := by
  have hb : (blanked || decide (x.fin ≠ .ed)) = true := by rcases h with h | h <;> simp [h]
  unfold decodeRx
  cases x.bytes with
  | nil => exact ⟨_, rfl⟩
  | cons b rest =>
    dsimp only
    by_cases h1 : b ≠ pid (b.setWidth 5)
    · exact ⟨_, if_pos h1⟩
    · exact ⟨_, by rw [if_neg h1, if_pos hb]⟩

/-- A test that a packet fails where it does not yield data. -/
theorem of_ite_data {c : Prop} [Decidable c] {a : Rx} {b : Bool} {y : Pkt} (h : (if c then a else Rx.bad b) = .data y) :
    c ∧ a = .data y := by
  by_cases hc : c
  · exact ⟨hc, by rwa [if_pos hc] at h⟩
  · rw [if_neg hc] at h; cases h

/-- No payload of a packet taken as data exceeds the limit of its speed. -/
theorem decodeRx_data {lim : Nat} {blanked : Bool} {x : RxPkt} {y : Pkt} (h : decodeRx lim blanked x = .data y) :
    y.data.length ≤ lim := by
  unfold decodeRx at h
  cases hx : x.bytes with
  | nil => rw [hx] at h; cases h
  | cons b rest =>
    rw [hx] at h
    dsimp only at h
    by_cases h1 : b ≠ pid (b.setWidth 5)
    · rw [if_pos h1] at h; cases h
    by_cases h2 : (blanked || decide (x.fin ≠ .ed)) = true
    · rw [if_neg h1, if_pos h2] at h; cases h
    by_cases h3 : hsType (b.setWidth 5) = true
    · rw [if_neg h1, if_neg h2, if_pos h3] at h
      split at h <;> cases h
    rw [if_neg h1, if_neg h2, if_neg h3] at h
    obtain ⟨hd, h⟩ := of_ite_data (of_ite_data h).2
    cases h
    exact Nat.le_trans (Nat.le_of_eq hd.2.1) hd.1

/-! ## Bursts and reads outstanding (R297, R298) -/

/-- A burst ends with its data or at the next 512-byte boundary, and makes progress. -/
theorem burstLen_le (a : W64) (n : Nat) : burstLen a n ≤ n := Nat.min_le_left ..
theorem burstLen_bound (a : W64) (n : Nat) : a.toNat % 512 + burstLen a n ≤ 512 := by unfold burstLen; omega
theorem burstLen_pos (a : W64) {n : Nat} (h : 0 < n) : 0 < burstLen a n := by unfold burstLen; omega

/-- Bursts of reads and writes are sent, and nothing else changes. -/
theorem State.readBurst_frame (s : State) (sl : Nat) (a : W64) (n : Nat) : ({ s.readBurst sl a n with out := s.out } : State) = s := by
  have h := State.forAll_keeps (fun t => ({ t with out := s.out } : State) = s) (fun t (x : W64 × Nat) => t.sendRead sl x.1 x.2)
    (tlps (s.link (s.comSlice sl).link.toNat).mrrs 8 a n) (fun _ _ h => h) s rfl
  exact h
theorem State.writeBurst_frame (s : State) (sl : Nat) (a : W64) (bs : List Byte) :
    ({ s.writeBurst sl a bs with out := s.out } : State) = s := by
  have h := State.forAll_keeps (fun t => ({ t with out := s.out } : State) = s)
    (fun t (x : W64 × Nat) => t.sendBytes sl x.1 ((bs.drop (x.1 - a).toNat).take x.2))
    (tlps (s.link (s.comSlice sl).link.toNat).mps 8 a bs.length) (fun _ _ h => h) s rfl
  exact h

/-- The read that a return is for is one of those outstanding that the return may be for, and one that is complete leaves them. -/
theorem takeReq_some {f : ReadReq → Bool} {n : Nat} {l rest : List ReadReq} {r : ReadReq} (h : takeReq f n l = some (r, rest)) :
    r ∈ l ∧ f r = true ∧ rest.length = (if r.n ≤ n then l.length - 1 else l.length) := by
  induction l generalizing rest with
  | nil => cases h
  | cons a l ih =>
    unfold takeReq at h
    split at h
    · cases h; split <;> simp_all
    · simp only [Option.map_eq_some_iff] at h
      obtain ⟨⟨b, t⟩, hb, he⟩ := h
      cases he
      obtain ⟨h1, h2, h3⟩ := ih hb
      have : 0 < l.length := List.length_pos_of_mem h1
      refine ⟨List.mem_cons_of_mem _ h1, h2, ?_⟩
      simp only [List.length_cons, h3]; split <;> omega

theorem takeReq_none {f : ReadReq → Bool} {n : Nat} {l : List ReadReq} : takeReq f n l = none ↔ ∀ r ∈ l, f r = false := by
  induction l with
  | nil => simp [takeReq]
  | cons a l ih => cases h : f a <;> simp [takeReq, h, ih]

/-! ## Planes (R303, R306) -/

/-- The plane that goes on is one that is not whole, and none has had less. -/
theorem leastPlane_some {l : List Nat} {size k : Nat} (h : leastPlane l size = some k) :
    k < l.length ∧ l.getD k 0 < size ∧ ∀ j < l.length, l.getD j 0 < size → l.getD k 0 ≤ l.getD j 0 := by
  have key : ∀ (t : List Nat) (m : Nat) (P : Nat → Prop), P m → (∀ j ∈ t, P j) →
      let r := t.foldl (fun m j => if l.getD j 0 < l.getD m 0 then j else m) m
      P r ∧ l.getD r 0 ≤ l.getD m 0 ∧ ∀ j ∈ t, l.getD r 0 ≤ l.getD j 0 := by
    intro t
    induction t with
    | nil => intro m P hm _; exact ⟨hm, Nat.le_refl _, nofun⟩
    | cons a t ih =>
      intro m P hm ht
      have ha := ht a (List.mem_cons_self ..)
      have hn : P (if l.getD a 0 < l.getD m 0 then a else m) := by split <;> assumption
      obtain ⟨h1, h2, h3⟩ := ih _ P hn (fun j hj => ht j (List.mem_cons_of_mem _ hj))
      refine ⟨h1, ?_, ?_⟩
      · refine Nat.le_trans h2 ?_; split <;> omega
      · intro j hj
        rcases List.mem_cons.1 hj with rfl | hj
        · refine Nat.le_trans h2 ?_; split <;> omega
        · exact h3 j hj
  unfold leastPlane at h
  split at h
  · cases h
  · rename_i a t he
    have hm : ∀ j, j ∈ a :: t ↔ j < l.length ∧ l.getD j 0 < size := fun j => by rw [← he]; simp
    obtain ⟨h1, h2, h3⟩ := key t a (fun j => j < l.length ∧ l.getD j 0 < size) ((hm a).1 (List.mem_cons_self ..))
      (fun j hj => (hm j).1 (List.mem_cons_of_mem _ hj))
    cases h
    refine ⟨h1.1, h1.2, fun j hj hs => ?_⟩
    rcases List.mem_cons.1 ((hm j).2 ⟨hj, hs⟩) with rfl | hj
    · exact h2
    · exact h3 j hj

theorem mem_distinct {α : Type} [BEq α] [LawfulBEq α] (l : List α) (a : α) : a ∈ distinct l ↔ a ∈ l := by
  have key : ∀ (l acc : List α), a ∈ l.foldl (fun acc x => if acc.contains x then acc else acc ++ [x]) acc ↔ a ∈ acc ∨ a ∈ l := by
    intro l
    induction l with
    | nil => simp
    | cons b l ih =>
      intro acc
      rw [List.foldl_cons, ih]
      by_cases hb : acc.contains b = true
      · rw [if_pos hb]
        have hc : b ∈ acc := by simpa using hb
        simp only [List.mem_cons]
        exact ⟨fun h => h.elim .inl (fun h => .inr (.inr h)), fun h => h.elim .inl (fun h => h.elim (fun h => .inl (h ▸ hc)) .inr)⟩
      · rw [if_neg hb]; simp [or_assoc]
  have := key l []
  simpa only [distinct, List.not_mem_nil, false_or] using this

/-! ## The page owner's check (R372) -/

/-- An access goes on where every page is the slice's, and is otherwise reported. -/
theorem State.dramAccess_cases (s : State) (sl : Nat) (ps : List Nat) (go : State → State) :
    ((∀ p ∈ ps, s.dramOk sl p = true) ∧ s.dramAccess sl ps go = go s) ∨
    ((∃ p ∈ ps, s.dramOk sl p = false) ∧ s.dramAccess sl ps go = s.detect 85 0 false s.wireNow) := by
  unfold State.dramAccess
  cases h : ps.all (s.dramOk sl)
  · refine .inr ⟨?_, by simp⟩
    simpa using h
  · exact .inl ⟨by simpa using h, by simp⟩

end Sys2Proof.Machine
end

