-- ==== Sys2Proof/Tests/Slice0.lean ====
section
/-! SUPPORT. Tests of the model: a well-formedness smoke test, words of the instruction set decoded, worked examples of the spec, and
for each statement states and operands that meet its hypotheses, clause by clause (`witness_<statement>`). -/

open Sys2Proof
open Sys2Proof.Machine
open Sys2Proof.Safety

set_option Elab.async false

/-! ## Small states -/

/-- The module at work in tick 100: every domain on, the supply normal. -/
def wBase : State := { State.reset with
  tick := { n := 100, epochA := 5, epochB := 5 }
  supply := { st := .normal, inputOk := true, bankReady := true }
  doms := (List.range' 1 12).map (fun d => (d, { st := .on, shown := .on })) }

/-- The module at work with one port of the given state. -/
def wPort (p : Nat) (x : PortL) : State := { wBase with ports := [(p, x)] }

/-- Device 2 of slice 0 at P3, its endpoint 1 an IN endpoint with the transfer of an entry of queue 5 in progress. -/
def wCtx : Ctx := { handle := 33, port := 3, speed := 2, typ := 2, dirIn := true, mps := 64, st := .active, queue := 5, entry := 0,
                    remain := 64, seq := 15 }
def wEntry : Entry := { pos := 0, units := 1, q0 := 0x0001001200000021, q1 := 0x0000004000000000, q2 := 0x1000, q3 := 0, tick := 97
                        frags := [(0x1000, 64)], staged := true, st := .bound }
def wBus (c : Ctx) (q : QueueS) (sh : List WSeq) : State := { wBase with
  ports := [(3, { st := .active, speed := .plant })]
  devs := [(2, .of { base := 100, nep := 1, st := .assigned })]
  ctxs := [(100, .of { handle := 32, port := 3, speed := 2, mps := 64, st := .active }), (101, .of c)]
  queues := [(5, .of q)]
  cache := [(wayKey 100 0, { tag := 0, claimCur := true }), (wayKey 101 0, { tag := 0, claimCur := true })]
  shuttles := [(3, { seqs := sh })]
  threads := [(3, { running := true, cycle := 50 })] }
def wQueue (e : Entry) : QueueS := { live := true, own := false, port := 3, errLimit := 3, run := true, entries := [e] }
def wSeq (k : WKind) (f : Attempt) : WSeq := { kind := k, ctx := 101, d := 4, e := 0, cnt := 0, retries := 1, form := f, started := true }

/-- An admin entry of an operation for a handle, with words 1 and 2. -/
def wCmd (op handle : Nat) (q1 : W64 := 0) (q2 : W64 := 0) : Entry :=
  { pos := 0, units := 1, q0 := BitVec.ofNat 64 (op * 2 ^ 48 + 2 ^ 32 + handle), q1 := q1, q2 := q2, q3 := 0, tick := 99 }

/-- The entry at the head of the admin queue of slice `sl`; device 2 at P3, and S0's slice 4 and 5 defined. -/
def wAdmin (sl : Slice) (e : Entry) : State := { wBus { wCtx with queue := 0, slice := sl } {} [] with
  slices := [(0, .of sliceS0)] ++ (if sl = 0 then [] else [(sl.toNat, .of { st := .running, bound := true, link := 1, res := { queues := 3, pinWays := 1 } })])
  devs := [(2, .of { base := 100, nep := 1, st := .assigned, slice := sl })]
  queues := [(qKey sl.toNat 0, .of { live := true, entries := [e] })]
  threads := [] }

/-- P3 works at Plant speed, and the weaver's program for S0 on it. -/
def wWeave : State := wPort 3 { st := .active, speed := .plant, shownSpeed := .plant, shown := .active }
def wWoven : Woven := wWeave.weaveProg 3 0 0 (wWeave.schedAt 3).later 0
def wWovenProg : Prog :=
  { slice := 0, code := [0x60080000, 0x58244000, 0x64800002, 0xa8002e57, 0x04000000], period := 0, speed := .plant, named := []
    phases := [[]], loom := 9818, finish := 12000, wire := 9805 }

/-- The same segment with the weaver's program already held, and what the weaver makes for it. -/
def wWeaveHeld : State := { wWeave with sched := [(3, .of { progs := [(0, wWovenProg)] })] }
def wWovenHeld : Woven := wWeaveHeld.weaveProg 3 0 0 (wWeaveHeld.schedAt 3).later 0

/-- Unit `u` is about to execute `i`, with three NOPs behind it. -/
def wRun (u : CUnit) (i : Instr) (x : Thread) : State := { wBus { wCtx with queue := 0 } {} [] with
  threads := [(unitKey u, { x with running := true, code := [(encodeCoresh i).getD 0, 0, 0, 0] })] }
/-- Registers and predicates of a unit. -/
def wThread : Thread := { g := [(1, 0x80000001), (2, 0xFFFFFFFF), (4, 35)], p := 2, cycle := 500, slice := 3, period := 3, cx := some 101 }
def wGuard : Guard := { neg := true, pr := 2 }

/-- A packet as the receiver delivers it, from cycle `a`. -/
def wRx (b : List Byte) (a : Cycle := 600) : RxPkt := { bytes := b, fin := .ed, first := a, till := a + 100 }
/-- A handshake packet. -/
def wHs (t : BitVec 5) (v : W16 := 0) : List Byte := checked t (beBytes 2 v.toNat)
/-- Pages of the DRAM pool owned by a slice. -/
def wOwned (sl : Slice) (ps : List Nat) (s : State) : State := { s with pot := ps.map (fun p => (p, .of { st := .owned, sl := sl })) }
/-- A lead for tree service on P3, and the hub and bridge of `wBus` with polls due. -/
def wHub (ps : List Poll) : State := { wBus { wCtx with queue := 0 } {} [] with
  devs := [(2, .of { base := 100, nep := 2, st := .assigned })]
  ctxs := [(100, .of { handle := 32, port := 3, speed := 2, mps := 64, st := .active }), (101, .of { wCtx with queue := 0 }),
           (102, .of { wCtx with handle := 34, queue := 0 })]
  trees := [(3, .of { polls := ps })], shuttles := [(3, { lead := 9000 })] }
def wPoll (ep : BitVec 4) : Poll := { dev := 2, ep := ep, due := 100 }
def wStage : OwnX := { req := [0x45, 0, 0x80, 1, 0, 0, 0, 16] }
/-- P3 is about to execute a WEAVE, with an eligible entry of queue 5 of S0. -/
def wWeft : State := { wRun (.loom 3) (.weave 3 wGuard 5 0x2EE0) { wThread with slice := 0, cx := none } with
  queues := [(5, .of (wQueue { wEntry with st := .eligible }))] }
/-- The key data, KEK and wrapped key of RFC 3394, 4.6. -/
def wKek : List Byte := (List.range 32).map (BitVec.ofNat 8)
def wKey : List Byte := (List.range 16).map (fun i => BitVec.ofNat 8 (i * 0x11)) ++ (List.range 16).map (BitVec.ofNat 8)
def wWrapped : List Byte := beOf 40 0x28C9F404C4B810F4CBCCB35CFB87F8263F5786E2D80ED326CBC7F0E71A99F43BFB988B9B7A02DD21
/-- An image of one word under that key. -/
def wHdr : List Byte := [0x4E, 0x53, 0x49, 0x34, 1, 0, 63, 0] ++ List.replicate 16 0 ++ leBytes 8 8 ++ List.replicate 16 0 ++ leBytes 8 0x55 ++ wWrapped
def wImage : List Byte := wHdr ++ beOf 8 5357648495707055999 ++ beOf 16 332063135876650970405070670634318518622
/-- A frame of the cartridge, its samples 0, under a SYNC. -/
def wBody : List Byte := leBytes 2 0x10 ++ leBytes 2 3 ++ List.replicate 174 0
def wFrame (sync : Byte) : List Byte := [0x47, sync] ++ wBody ++ leBytes 4 806647544
/-- A request of the watchman's master, with a MAC. -/
def wReq (typ : Byte) (pl : List Byte) : WmFrame := { addr := 1, typ := typ, payload := pl, seq := 8, mac := [], crc := 0 }
def wAsk (addr typ : Byte) (pl : List Byte) : WmFrame := wmClose (List.replicate 8 0) { wReq typ pl with addr := addr }
def wSigned (typ : Byte) (pl : List Byte) : WmFrame := wmClose (wmMac [] (wReq typ pl)) (wReq typ pl)
def wForged (typ : Byte) (pl : List Byte) : WmFrame := wmClose ((wmMac [] (wReq typ pl)).map (~~~·)) (wReq typ pl)


/-- The guard that always holds (R193). -/
def wAlways : Guard := { neg := false, pr := 0 }

/-! ## Well-formedness -/

/-- The wrong units, conditions, selections, word numbers, shift amounts and operand bits of Coresh instructions are refused (R194 to
R197, R202, R203, R206). -/
theorem smoke_coresh_refused :
    [Instr.shli (.loom 3) wAlways 1 2 32, .shri (.core 3) wAlways 1 2 32, .cmp (.loom 3) wAlways 1 6 2 3, .cmpi (.loom 3) wAlways 1 7 2 0,
     .rds (.loom 3) wAlways 1 6, .rds (.core 3) wAlways 1 3, .rds (.core 3) wAlways 1 8, .await (.loom 3) wAlways 2 1 0, .await (.core 3) wAlways 1 1 0,
     .raise (.loom 3) wAlways (.flag 4 5), .raise (.core 3) wAlways (.event 4 5), .ldc (.loom 3) wAlways 1 8 false, .stc (.core 3) wAlways 1 2 true,
     .poll 3 wAlways 1 1 0 2, .ping 3 wAlways 1 0 1 2, .suspend 3 wAlways 1 2 0 2, .resume 3 wAlways 1 0 2 2].map Instr.wf = List.replicate 17 false := by decide

/-- A cycle beyond 12,499 is refused (R7). -/
theorem smoke_cycles_refused :
    [Instr.ppsEdge 12500 true, .ppsHoldover 12500, .wkp 3 12500, .surge 3 0 12500, .flowRelease 1 12500, .responseTimeout 3 12500,
     .wireSequenceEnd 3 [] 12500, .treeService 3 [] 12500, .detectorReport 1 0 false .none 12500, .burstIssue 1 .read 12500,
     .limit 3 0 0 0 12500, .rampEnd 3 0 0 12500, .powerGood 3 0 0 12500, .pgTimeout 3 12500, .faultTimer 3 12500,
     .shortTrip 3 0 0 12500, .overload 3 12500, .thermal 3 0 0 0 0 0 0 12500, .passFail 3 0 0 12500, .overloadShed 12500,
     .mainsShed 0 12500, .limiterRelease 3 0 0 0 12500, .tdrProbe 3 none .busy 12500, .domainWake .pd2 0 12500,
     .domainPowerGood .pd2 12500, .wakeAttemptFail .pd2 false 12500].map Instr.wf = List.replicate 26 false := by decide

/-- A register write whose named bit is not set is another command, and a record of another length is none. -/
theorem smoke_writes_and_records_refused :
    [Instr.linkReset 1 3 0, .linkSuspend 1 3 1, .linkResume 1 3 2, .linkDisable 1 3 0, .linkEnable 1 3 0x20, .go 1 0 2 2, .goChain 1 0 2 1,
     .stop 1 0 2 8, .kill 1 0 2 4, .pdReset 1 .pd2 0, .clearQ 1 .pd2 8, .defineSlice 3 [0] true, .resizeSlice 3 [], .setPortSched 3 [0],
     .chainFetch 2 (some [1, 2]), .setImageKek 0 [1]].map Instr.wf = List.replicate 16 false := by decide

/-- Their well-formed neighbours are taken. -/
theorem smoke_accepted :
    [Instr.shli (.loom 3) wAlways 1 2 31, .cmp (.core 3) wAlways 1 5 2 3, .rds (.loom 3) wAlways 1 5, .rds (.core 3) wAlways 1 7, .await (.core 3) wAlways 2 1 0,
     .raise (.loom 3) wAlways (.event 4 5), .raise (.core 3) wAlways (.flag 4 5), .ldc (.loom 3) wAlways 1 7 true, .poll 3 wAlways 1 0 0 2, .ppsEdge 12499 false,
     .linkReset 1 3 1, .linkEnable 1 3 0x1F, .kill 1 0 2 8, .clearQ 1 .pd2 0x10, .chainFetch 2 (some [1, 2, 3, 4])].map Instr.wf =
      List.replicate 15 true := by decide

/-! ## Words of the instruction set, each field written out from R193 to R195 -/

/-- Formats R, I, M, C and P, under the guard of p2 negated. -/
theorem test_words_of_arithmetic :
    decodeCoresh (.loom 5) (0x02#6 ++ 1#1 ++ 2#2 ++ 7#4 ++ 8#4 ++ 9#4 ++ 0#11) = some (.add (.loom 5) wGuard 7 8 9) ∧
    decodeCoresh (.core 3) (0x0C#6 ++ 0#3 ++ 15#4 ++ 1#4 ++ 2#4 ++ 0#11) = some (.mul (.core 3) wAlways 15 1 2) ∧
    decodeCoresh (.core 3) (0x0D#6 ++ 0#3 ++ 4#4 ++ 5#4 ++ 0x7FFF#15) = some (.addi (.core 3) wAlways 4 5 0x7FFF) ∧
    decodeCoresh (.loom 5) (0x14#6 ++ 0#3 ++ 4#4 ++ 0#3 ++ 0xFFFF#16) = some (.movhi (.loom 5) wAlways 4 0xFFFF) ∧
    decodeCoresh (.loom 5) (0x15#6 ++ 0#3 ++ 3#2 ++ 5#3 ++ 6#4 ++ 7#4 ++ 0#10) = some (.cmp (.loom 5) wAlways 3 5 6 7) ∧
    decodeCoresh (.core 3) (0x16#6 ++ 0#3 ++ 1#2 ++ 2#3 ++ 6#4 ++ 0x3FFE#14) = some (.cmpi (.core 3) wAlways 1 2 6 0x3FFE) ∧
    decodeCoresh (.core 3) (0x17#6 ++ 0#3 ++ 1#2 ++ 2#2 ++ 3#2 ++ 2#2 ++ 0#15) = some (.plog (.core 3) wAlways 1 2 3 2) := by decide

/-- Formats S, J, L, W, X, K and E. -/
theorem test_words_of_control :
    decodeCoresh (.core 3) (0x18#6 ++ 0#3 ++ 5#4 ++ 0#15 ++ 7#4) = some (.rds (.core 3) wAlways 5 7) ∧
    decodeCoresh (.loom 5) (0x19#6 ++ 1#1 ++ 2#2 ++ 0#7 ++ 300#16) = some (.br (.loom 5) wGuard 300) ∧
    decodeCoresh (.core 3) (0x1A#6 ++ 0#3 ++ 6#4 ++ 200#8 ++ 1030#11) = some (.loop (.core 3) wAlways 6 200 1030) ∧
    decodeCoresh (.core 3) (0x1B#6 ++ 0#3 ++ 2#2 ++ 0#2 ++ 9#4 ++ 0#1 ++ 0#14) = some (.await (.core 3) wAlways 2 9 0) ∧
    decodeCoresh (.loom 5) (0x1D#6 ++ 0#3 ++ 0x00A061#23) = some (.selc 5 0xA061) ∧
    decodeCoresh (.loom 5) (0x1E#6 ++ 0#3 ++ 0#7 ++ 0xFFFF#16) = some (.selcr 5 wAlways 0xFFFF) ∧
    decodeCoresh (.loom 5) (0x1F#6 ++ 0#3 ++ 2#4 ++ 0#12 ++ 7#4 ++ 1#1 ++ 0#2) = some (.ldc (.loom 5) wAlways 2 7 true) ∧
    decodeCoresh (.core 3) (0x20#6 ++ 0#3 ++ 0#4 ++ 4#4 ++ 0#8 ++ 15#4 ++ 0#1 ++ 0#2) = some (.stc (.core 3) wAlways 4 15 false) ∧
    decodeCoresh (.core 3) (0x1C#6 ++ 0#3 ++ 4095#12 ++ 31#5 ++ 0#6) = some (.raise (.core 3) wAlways (.flag 4095 31)) ∧
    decodeCoresh (.loom 5) (0x1C#6 ++ 0#3 ++ 0x21#8 ++ 4#4 ++ 0#11) = some (.raise (.loom 5) wAlways (.event 0x21 4)) := by decide

/-- Formats B, T and G. -/
theorem test_words_of_bus_and_steward :
    decodeCoresh (.loom 5) (0x22#6 ++ 0#3 ++ 1#4 ++ 7#3 ++ 3#2 ++ 2#4 ++ 0#10) = some (.take 5 wAlways 1 7 3 2) ∧
    decodeCoresh (.loom 5) (0x2A#6 ++ 0#3 ++ 1#4 ++ 0#5 ++ 12000#14) = some (.weave 5 wAlways 1 12000) ∧
    decodeCoresh (.core 3) (0x30#6 ++ 0#3 ++ 1#4 ++ 0#3 ++ 0x8001#16) = some (.snap 3 wAlways 1 0x8001) ∧
    decodeCoresh (.core 3) (0x31#6 ++ 0#3 ++ 1#4 ++ 2#4 ++ 0#4 ++ 2047#11) = some (.bound 3 wAlways 1 2 2047) ∧
    decodeCoresh (.core 3) (0x32#6 ++ 0#3 ++ 0#4 ++ 4#4 ++ 0x0123#15) = some (.act 3 wAlways 4 0x0123) ∧
    decodeCoresh (.core 3) (0x34#6 ++ 0#3 ++ 77#12 ++ 31#5 ++ 4#4 ++ 0#2) = some (.timer 3 wAlways 77 31 4) ∧
    decodeCoresh (.core 3) (0x36#6 ++ 0#3 ++ 0#4 ++ 4#4 ++ 0#15) = some (.trace 3 wAlways 4) := by decide

/-- Reserved opcodes, a nonzero bit where R194 shows 0, and an instruction of the other unit have no instruction. -/
theorem test_words_refused :
    [0x2B, 0x2F, 0x37, 0x3F].map (fun op => decodeCoresh (.loom 5) (BitVec.ofNat 32 (op * 2 ^ 26))) = List.replicate 4 none ∧
    decodeCoresh (.loom 5) 0x08000001 = none ∧ decodeCoresh (.core 3) (0x22#6 ++ 0#26) = none ∧
    decodeCoresh (.loom 5) (0x30#6 ++ 0#26) = none ∧ decodeTableWord 32 0 = none := by decide

/-! ## Single steps -/

/-- A command at the front of the queue runs, and TICK_BEGIN at reset begins nothing before the module works. -/
theorem test_queue_moves : ∀ t, step { State.reset with pending := [.tickBegin, .coldStart] } = .next t → t.pending = [.coldStart] := by
  intro t h; cases h; rfl

/-- What thread 3 or 18 holds after an instruction under `gd`: register `r`, the cycle and the place. -/
def wAfter (u : CUnit) (i : Instr) (r : Reg) : Option (W32 × Nat × Nat) :=
  match exec i (wRun u i wThread) with
  | .next t => some ((t.thread (unitKey u)).reg r, (t.thread (unitKey u)).cycle, (t.thread (unitKey u)).pc)
  | _ => none

/-- ADD wraps modulo 2^32 with its destination as a source, and costs one cycle (R190, R195). -/
theorem test_add_wraps : wAfter (.loom 3) (.add (.loom 3) wAlways 1 1 1) 1 = some (2, 501, 1) := by decide

/-- SAR copies the sign and takes bits [4:0] of its amount: 35 shifts by 3 (R195). -/
theorem test_sar_sign : wAfter (.core 2) (.sar (.core 2) wAlways 3 1 4) 3 = some (0xF0000000, 501, 1) := by decide

/-- A guard that does not hold leaves the register and costs one cycle, MUL's three or not (R193). -/
theorem test_guard_fails : wAfter (.loom 3) (.mul (.loom 3) { neg := false, pr := 2 } 1 2 2) 1 = some (0x80000001, 501, 1) := by decide

/-- An ill-formed instruction is refused by its fault. -/
theorem test_not_admitted : exec (.shli (.loom 3) wAlways 1 2 32) wBase = .fault .notAdmitted := rfl

/-! ## Instructions ready to run, for the statements that give their results -/

/-- Each register instruction of RegisterArithmetic is ready to run in a state of its own, on a loom and on a core. -/
theorem witness_RegisterArithmetic : ∀ u ∈ [CUnit.loom 3, CUnit.core 2],
    ∀ i ∈ [Instr.nop u wGuard, .add u wGuard 5 1 2, .sub u wGuard 1 1 1, .and u wGuard 5 1 2, .or u wGuard 5 1 2, .xor u wGuard 5 1 2,
      .shl u wGuard 5 2 4, .shr u wGuard 5 1 4, .sar u wGuard 5 1 4, .min u wGuard 5 1 2, .max u wGuard 15 1 2, .mul u wGuard 0 1 2],
      Ready (wRun u i wThread) u i wGuard := by
  dsimp only [Ready]; decide

/-- The same for ImmediatesAndPredicates, shifts by an immediate below 32 among them. -/
theorem witness_ImmediatesAndPredicates : ∀ u ∈ [CUnit.loom 3, CUnit.core 2],
    ∀ i ∈ [Instr.addi u wGuard 5 1 0x7FFF, .andi u wGuard 5 1 0x7FFF, .ori u wGuard 5 1 0x4000, .xori u wGuard 5 1 1, .shli u wGuard 5 1 31,
      .shri u wGuard 5 1 0, .movi u wGuard 5 0xFFFF, .movhi u wGuard 1 0x8000, .cmp u wGuard 3 0 1 2, .cmp u wGuard 2 5 1 2,
      .cmpi u wGuard 1 2 1 0x3FFF, .cmpi u wGuard 1 4 1 0x2000, .plog u wGuard 2 2 1 3],
      Ready (wRun u i wThread) u i wGuard := by
  dsimp only [Ready]; decide

/-- An instruction of a unit that is well formed, and a word that decodes. -/
theorem witness_CoreshDecodeEncode :
    (unitGuard (.weave 5 wGuard 15 12000) = some (.loom 5, wGuard) ∧ (Instr.weave 5 wGuard 15 12000).coreshWf = true) ∧
    decodeCoresh (.loom 5) 0x6C00080A = some (.await (.loom 5) wAlways 0 0 2058) := by decide

/-- Two words that decode, an instruction whose guard fails, and a branch whose guard holds. -/
theorem witness_GuardOfAnInstruction :
    (decodeCoresh (.loom 5) 0x6C00080A = some (.await (.loom 5) wAlways 0 0 2058) ∧
      decodeCoresh (.loom 5) 0x7400A061 = some (.selc 5 0xA061)) ∧
    (let gd : Guard := { neg := false, pr := 2 }
     let i : Instr := .loop (.loom 3) gd 5 3 2
     unitGuard i = some (.loom 3, gd) ∧ i.coreshWf = true ∧ (wRun (.loom 3) i wThread).atInstr (.loom 3) i = true ∧
     ((wRun (.loom 3) i wThread).thread 3).holds gd = false) ∧
    (let i : Instr := .br (.core 2) wGuard 1
     Ready (wRun (.core 2) i wThread) (.core 2) i wGuard ∧ Inside ((wRun (.core 2) i wThread).thread 18) 2) := by
  dsimp only [Ready, Inside]; decide

/-! ## Ciphers, the worked examples of their standards -/

/-- AES-256 (FIPS 197, C.3). -/
theorem test_aes_fips197 : aesEncrypt wKek (beOf 16 0x00112233445566778899AABBCCDDEEFF) = beOf 16 0x8EA2B7CA516745BFEAFC49904B496089 := by
  decide +kernel

/-- Key unwrap (RFC 3394, 4.6). -/
theorem test_key_unwrap_rfc3394 : keyUnwrap wKek wWrapped = some wKey := by decide +kernel

/-- GCM with AES-256 (McGrew and Viega, test case 14). -/
theorem test_gcm_case14 :
    gcmCrypt (List.replicate 32 0) (List.replicate 12 0) (List.replicate 16 0) = beOf 16 0xCEA7403D4D606B6E074EC5D3BAF39D18 ∧
    gcmTag (List.replicate 32 0) (List.replicate 12 0) [] (beOf 16 0xCEA7403D4D606B6E074EC5D3BAF39D18) =
      beOf 16 0xD0D1C8A799996BF0265B98B5D48AB919 := by decide +kernel

/-- SHA-256 (FIPS 180-4, the example of one block). -/
theorem test_sha256_abc : sha256 [0x61, 0x62, 0x63] = beOf 32 0xBA7816BF8F01CFEA414140DE5DAE2223B00361A396177A9CB410FF61F20015AD := by
  decide +kernel

/-! ## The frame of the cartridge -/

theorem wBody_parts : wBody = wBody.take 45 ++ ((wBody.drop 45).take 45 ++ ((wBody.drop 90).take 45 ++ wBody.drop 135)) := by decide +kernel
theorem wBody_crc1 : (wBody.take 45).foldl crc32Byte 0xFFFFFFFF = 3381121048 := by decide +kernel
theorem wBody_crc2 : ((wBody.drop 45).take 45).foldl crc32Byte 3381121048 = 2381669151 := by decide +kernel
theorem wBody_crc3 : ((wBody.drop 90).take 45).foldl crc32Byte 2381669151 = 2698718931 := by decide +kernel
theorem wBody_crc4 : (wBody.drop 135).foldl crc32Byte 2698718931 = 3488319751 := by decide +kernel
theorem wBody_crc : crc32 wBody = 806647544 := by
  rw [crc32, wBody_parts, List.foldl_append, List.foldl_append, List.foldl_append, wBody_crc1, wBody_crc2, wBody_crc3, wBody_crc4]
  decide

/-! ## Wrapped keys and images -/

theorem unwrap_wWrapped (x : WatchS) (h : x.commissioned = true) (hk : x.key = wKek) : x.unwrap wWrapped = some wKey := by
  rw [WatchS.unwrap, if_pos h, hk]; exact test_key_unwrap_rfc3394

theorem wImage_key : headerKey (wImage.take 96) (some 0x55) wKek = some wKey := by
  rw [headerKey, if_pos (by decide +kernel), show ((wImage.take 96).drop 56).take 40 = wWrapped by decide +kernel]
  exact test_key_unwrap_rfc3394

theorem wImage_check : imageCheck (some 0x55) wKek wImage = some (some [1]) := by
  rw [imageCheck, if_neg (by decide +kernel)]; simp only [wImage_key]; decide +kernel


/-! ## Witnesses of the hypotheses -/

/-- The entry at the head of an admin queue is about to run when nothing of its queue waits. -/
theorem adminRuns_of {s : State} {sl : Slice} {op : Nat} {e : Entry}
    (h : s.adminHead sl.toNat = some e ∧ e.op = op ∧ e.begun = false ∧ s.working = true ∧
      s.works sl.toNat = true ∧ ∀ r ∈ s.cplPend, ¬(r.slice = sl ∧ r.queue = 0)) : AdminRuns s sl op e := h

/-- What the weaver makes for P3, with and without the program already held. -/
theorem weave_new : wWeave.weaveProg (3 : Port).toNat (0 : Slice).toNat (fld (wCmd 0 0).q1 58 56) (wWeave.schedAt (3 : Port).toNat).later 0 =
    wWoven := rfl
theorem weave_held : wWeaveHeld.weaveProg (3 : Port).toNat (0 : Slice).toNat (fld (wCmd 0 0).q1 58 56)
    (wWeaveHeld.schedAt (3 : Port).toNat).later 0 = wWovenHeld := rfl
theorem weave_new_prog : wWoven.prog = some wWovenProg := by decide +kernel
theorem weave_held_prog : wWovenHeld.prog = some wWovenProg := by decide +kernel
theorem weave_new_seg : wWeave.weaverSeg (3 : Port).toNat (0 : Slice).toNat (wWeave.schedAt (3 : Port).toNat).later =
    some (fld (wCmd 0 0).q1 58 56) := by decide +kernel
theorem weave_held_seg : wWeaveHeld.weaverSeg (3 : Port).toNat (0 : Slice).toNat (wWeaveHeld.schedAt (3 : Port).toNat).later =
    some (fld (wCmd 0 0).q1 58 56) := by decide +kernel
theorem weave_held_find : (wWeaveHeld.schedAt (3 : Port).toNat).later.progs.find (fld (wCmd 0 0).q1 58 56) = some wWovenProg := by
  decide +kernel

/-- States and operands that meet the hypotheses of StepTakesFrontCommand. -/
theorem witness_StepTakesFrontCommand :
  (let s : State := wBase
   s.pending = []) := by
  decide

/-- States and operands that meet the hypotheses of TickNumberCounts. -/
theorem witness_TickNumberCounts :
  (let cause : Nat := 1
   let s : State := State.reset
   s.supply.release = some cause ∧ s.supply.bankFault = false) := by
  decide

/-- States and operands that meet the hypotheses of TickBeginStartsTick. -/
theorem witness_TickBeginStartsTick :
  (let s : State := { wBase with tick := { n := 0xFFFFFFFFFFFF, selvage := true, late := [{ det := 3, unit := 2, injected := false }] } }
   s.tick.selvage = true) ∧
  (let s : State := wBase
   s.tick.selvage = false) := by
  refine ⟨?_, ?_⟩
  · decide
  · decide

/-- States and operands that meet the hypotheses of SelvageAbandonsReportedTick. -/
theorem witness_SelvageAbandonsReportedTick :
  (let s : State := { wBase with
     tick := { n := 100, epochA := 5, epochB := 5, consec := 63, stopped := true, reports := [{ det := 3, unit := 2, injected := false }] }
     ctxs := [(7, { com := {st := .active}, pend := some (5, {st := .halted}) }), (9, { com := {st := .active}, pend := some (4, {st := .halted}) })]
     slices := [(0, .of sliceS0), (4, { com := {}, pend := some (5, {st := .defined}) })] }
   s.ticking = true ∧ s.tick.selvage = false ∧ s.isDown = false ∧ s.tick.reports ≠ []) := by
  decide

/-- States and operands that meet the hypotheses of SelvageCommitsCleanTick. -/
theorem witness_SelvageCommitsCleanTick :
  (let s : State := { wBase with
     shedOrder := { com := [1,2], pend := some (5, [2,1]) }
     drawn := { com := 3, pend := some (5, 4) }
     ctxs := [(7, { com := {st := .active}, pend := some (5, {st := .halted}) })] }
   s.ticking = true ∧ s.tick.selvage = false ∧ s.isDown = false ∧ s.tick.reports = []) := by
  decide

/-- States and operands that meet the hypotheses of OverrunChecksReportBusyPort. -/
theorem witness_OverrunChecksReportBusyPort :
  (let p : Port := 15
   let s : State := { wBase with threads := [(15, { running := true })] }
   let k : BitVec 3 := 0
   let e : Nat := 12000
   s.working = true ∧ (s.thread p.toNat).running = true ∧ ((∀ q, q < p.toNat → s.portBusy q 12000 = false)) ∧
     endOf (s.segsOf p.toNat) k.toNat = some e ∧ (s.thread p.toNat).seg = k) ∧
  (let s : State := wBase
   s.working = true ∧ s.threads = [] ∧ s.shuttles = []) := by
  refine ⟨?_, ?_⟩
  · decide
  · decide

/-- States and operands that meet the hypotheses of EscalationAndRestart. -/
theorem witness_EscalationAndRestart :
  (let d : Detector := 3
   let u : Byte := 7
   let s : State := { wBase with tick := { wBase.tick with escalate := [(3, 7)] } }
   s.tick.escalate = [(d.toNat, u)] ∧ detClass d.toNat u.toNat = .module) ∧
  (let s : State := { wBase with tick := { wBase.tick with restartDue := true, consec := 64 } }
   s.tick.restartDue = true ∧ 64 ≤ s.tick.consec) ∧
  (let cause : Nat := 1
   let s : State := State.reset
   s.supply.release = some cause ∧ s.supply.bankFault = false) ∧
  (let s : State := { State.reset with supply := { st := .start } }
   s.supply.st = .start) := by
  refine ⟨?_, ?_, ?_, ?_⟩
  · decide
  · decide
  · decide
  · decide

/-- States and operands that meet the hypotheses of FoldingAndJournal. -/
theorem witness_FoldingAndJournal :
  (let s : State := { wBase with
     ctxs := [(7, { com := {st := .active}, pend := some (5, {st := .halted}) }), (9, { com := {st := .active}, pend := some (4, {st := .halted}) })]
     jwait := [(3, {warden := 1})] }
   let e : W32 := 3
   let j : Journal := { warden := 1 }
   let rest : List (W32 × Journal) := []
   s.jwait = (e, j) :: rest ∧ s.domOn 9 = true) := by
  decide

/-- States and operands that meet the hypotheses of ClockAndPps. -/
theorem witness_ClockAndPps :
  (let tcxo : Bool := true
   let pll : Bool := false
   let s : State := { wBase with tick := { epochA := 0 }, supply := { restoring := true, release := none } }
   s.supply.release = none ∧ s.supply.restoring = true ∧ s.tick.n = 0 ∧ (tcxo || pll) = true ∧ s.tick.degraded = false) ∧
  (let s : State := { wBase with tick := { n := 100, ppsCtl := 1 } }
   s.tick.ppsCtl.getLsbD 0 = true ∧ s.tick.ppsLast = none) ∧
  (let cyc : Cycle := 12499
   let s : State := { wBase with tick := { n := 100, ppsCtl := 1, ppsLast := some 0 } }
   let c : Nat := 0
   s.tick.ppsCtl.getLsbD 0 = true ∧ s.tick.ppsLast = some c ∧ s.tick.degraded = false ∧ s.now * 12500 + cyc.toNat + 20000 < c + 100000000) ∧
  (let falling : Bool := true
   let s : State := wBase
   falling ≠ s.tick.ppsCtl.getLsbD 1) ∧
  (let cyc : Cycle := 0
   let s : State := { wBase with tick := { n := 12000, ppsCtl := 1, ppsLast := some 0 } }
   let c : Nat := 0
   s.tick.ppsCtl.getLsbD 0 = true ∧ s.tick.ppsLast = some c ∧ c + 150000000 ≤ s.now * 12500 + cyc.toNat) := by
  refine ⟨?_, ?_, ?_, ?_, ?_⟩
  · decide
  · decide
  · decide
  · decide
  · decide

/-- States and operands that meet the hypotheses of PresenceMovesPort. -/
theorem witness_PresenceMovesPort :
  (let p : Port := 3
   let s : State := wPort 3 { st := .detached }
   (s.port p.toNat).st = .detached) ∧
  (let p : Port := 3
   let s : State := wPort 3 { st := .debounce, dbCount := 5 }
   (s.port p.toNat).st = .debounce) ∧
  (let p : Port := 15
   let s : State := wPort 15 { st := .debounce, dbCount := 800, decode := .plant }
   (s.port p.toNat).st = .debounce ∧ (s.port p.toNat).dbCount = 800 ∧ (s.port p.toNat).decode = .plant ∧ s.supply.st = .normal ∧
     (s.comPSet p.toNat).on = true) ∧
  (let p : Port := 0
   let s : State := wPort 0 { st := .debounce, dbCount := 800, decode := .invalid }
   (s.port p.toNat).st = .debounce ∧ (s.port p.toNat).dbCount = 800 ∧ (s.port p.toNat).decode = .invalid) ∧
  (let p : Port := 0
   let s : State := wPort 0 { st := .invalid, absent := 800 }
   (s.port p.toNat).st = .invalid ∧ 800 ≤ (s.port p.toNat).absent ∧ s.relay.getLsbD p.toNat = false) := by
  refine ⟨?_, ?_, ?_, ?_, ?_⟩
  · decide
  · decide
  · decide
  · decide
  · decide

/-- States and operands that meet the hypotheses of ResetTakesPortToActive. -/
theorem witness_ResetTakesPortToActive :
  (let p : Port := 9
   let s : State := wPort 9 { st := .powerWait, pwrWait := 0, since := 84 }
   (s.port p.toNat).st = .powerWait ∧ s.portDue p.toNat (max 16 (s.port p.toNat).pwrWait.toNat) = true ∧ s.frontOn p.toNat = true) ∧
  (let p : Port := 9
   let s : State := wPort 9 { st := .resetting, since := 84 }
   (s.port p.toNat).st = .resetting ∧ (s.port p.toNat).rstDone = false ∧ s.portDue p.toNat 16 = true) ∧
  (let p : Port := 9
   let s : State := wPort 9 { st := .resetting, since := 69, rstDone := true, declared := .plant }
   (s.port p.toNat).st = .resetting ∧ (s.port p.toNat).rstDone = true ∧ (s.port p.toNat).chirp = .none ∧
     (s.port p.toNat).declared = .plant ∧ (s.port p.toNat).cabEn = true ∧ s.now < (s.port p.toNat).since.toNat + 32) ∧
  (let p : Port := 9
   let s : State := wPort 9 { st := .resetting, since := 20 }
   (s.port p.toNat).st = .resetting ∧ s.portDue p.toNat 80 = true) ∧
  (let p : Port := 9
   let s : State := wPort 9 { st := .recovery, since := 84 }
   (s.port p.toNat).st = .recovery ∧ s.portDue p.toNat 16 = true) := by
  refine ⟨?_, ?_, ?_, ?_, ?_⟩
  · decide
  · decide
  · decide
  · decide
  · decide

/-- States and operands that meet the hypotheses of SuspendResumeWake. -/
theorem witness_SuspendResumeWake :
  (let p : Port := 9
   let s : State := wPort 9 { st := .suspending, since := 73 }
   (s.port p.toNat).st = .suspending ∧ s.portDue p.toNat 27 = true) ∧
  (let p : Port := 9
   let s : State := wPort 9 { st := .resuming, since := 20 }
   (s.port p.toNat).st = .resuming ∧ (s.port p.toNat).accepted = none ∧ s.portDue p.toNat 80 = true) ∧
  (let p : Port := 9
   let s : State := wPort 9 { st := .suspended, wakeEn := true }
   (s.port p.toNat).st = .suspended) := by
  refine ⟨?_, ?_, ?_⟩
  · decide
  · decide
  · decide

/-- States and operands that meet the hypotheses of LineEventsAreCounted. -/
theorem witness_LineEventsAreCounted :
  (let p : Port := 5
   let s : State := { wPort 5 { st := .active, absent := 32, declared := .plant, speed := .plant } with power := [(5, { gate := true, pg := true, st := .on })] }
   let v : W16 := 201
   (s.port p.toNat).st = .active ∧ (s.port p.toNat).gone = false ∧ (((32 ≤ (s.port p.toNat).absent ∧
     (s.port p.toNat).declared = .plant) ∨ 160 ≤ (s.port p.toNat).under)) ∧ 200 < v.toNat ∧ s.frontOn p.toNat = true) ∧
  (let p : Nat := 5
   let s : State := { wPort 5 { st := .active, absent := 32, declared := .plant, speed := .plant } with power := [(5, { gate := true, pg := true, st := .on })] }
   let q : Nat := 0
   s.relay.getLsbD p = false ∧ q ≠ p) ∧
  (let p : Port := 5
   let s : State := wPort 5 { st := .active, relock := true, speed := .cabinet, rxRelock := 0xFFFF }
   (s.port p.toNat).relock = true ∧ (s.port p.toNat).speed = .cabinet) := by
  refine ⟨?_, ?_, ?_⟩
  · decide
  · decide
  · decide

/-- States and operands that meet the hypotheses of LinkCtlWriteIsHeld. -/
theorem witness_LinkCtlWriteIsHeld :
  (let c : Instr := Instr.linkReset 0 3 1
   let l : Link := 0
   let p : Port := 3
   let v : W32 := 1
   let s : State := wBase
   (((c = .linkReset l p v ∧ v.getLsbD 0 = true) ∨ (c = .linkSuspend l p v ∧ v.getLsbD 1 = true) ∨ (c = .linkResume l p v ∧
     v.getLsbD 2 = true) ∨ (c = .linkDisable l p v ∧ v.getLsbD 5 = true) ∨ (c = .linkEnable l p v ∧ v.getLsbD 5 = false))) ∧
     s.comWarden = l.toNat ∧ s.supply.st ≠ .powerDown ∧ (s.link l.toNat).buf.length < 256 ∧ (s.link l.toNat).withheld = []) ∧
  (let l : Link := 3
   let s : State := wBase
   s.comWarden ≠ l.toNat) := by
  refine ⟨?_, ?_⟩
  · decide
  · decide

/-- States and operands that meet the hypotheses of WireSequencesAndNotices. -/
theorem witness_WireSequencesAndNotices :
  (let s : State := wBus wCtx (wQueue wEntry) [wSeq .take (.inSheaf 1)]
   let p : Port := 3
   let cyc : Cycle := 3000
   let q : WSeq := wSeq .take (.inSheaf 1)
   let xs : List RxPkt := [wRx (wHs ptNak)]
   let qn : Nat := 5
   let e : Entry := wEntry
   let a : Attempt := Attempt.inSheaf 1
   let i := q.ctx.toNat
   let c := s.ctx i
   let replies (r : Reply) : Prop := q.form ≠ .slot ∧ s.inTime p.toNat q.sentAt cyc.toNat xs = true ∧ s.replyOf p.toNat (q.form.sheaf c.mps.toNat) xs = r
   let silent : Prop := s.working = true ∧ (s.shuttle p.toNat).seqs = [q] ∧ q.started = true ∧ (∀ us, q.kind ≠ .probe us) ∧ q.form ≠ .slot ∧ q.sentAt + toOf (s.port p.toNat).speed / 100 ≤ cyc.toNat ∧ cyc.toNat ≤ 12000
   ((∀ us, q.kind ≠ .probe us)) ∧ s.working = true ∧ (s.shuttle p.toNat).seqs = [q] ∧ q.started = true ∧ q.weft = false ∧ replies .nak ∧
     s.transferOf i = some (qn, e) ∧ (s.queue (qKey c.slice.toNat qn)).nakLimit = 0 ∧ silent ∧ q.attempts ≤ q.retries ∧
     s.planWire q.kind i q.cnt = some a) ∧
  (let s : State := wBus wCtx (wQueue wEntry) [wSeq .take (.inSheaf 1)]
   let p : Port := 3
   let cyc : Cycle := 3000
   let q : WSeq := wSeq .take (.inSheaf 1)
   let xs : List RxPkt := [wRx (wHs ptStall)]
   let qn : Nat := 5
   let e : Entry := wEntry
   let i := q.ctx.toNat
   let c := s.ctx i
   let replies (r : Reply) : Prop := q.form ≠ .slot ∧ s.inTime p.toNat q.sentAt cyc.toNat xs = true ∧ s.replyOf p.toNat (q.form.sheaf c.mps.toNat) xs = r
   ((∀ us, q.kind ≠ .probe us)) ∧ s.working = true ∧ (s.shuttle p.toNat).seqs = [q] ∧ q.started = true ∧ q.weft = false ∧
     replies .stall ∧ q.kind ≠ .poll ∧ s.transferOf i = some (qn, e) ∧ c.ep ≠ 0) ∧
  (let s : State := wBus { wCtx with queue := 0, dirIn := false } {} [wSeq .ping .ping]
   let p : Port := 3
   let cyc : Cycle := 3000
   let q : WSeq := wSeq .ping .ping
   let xs : List RxPkt := [wRx (wHs ptAck 0x7000)]
   let next : BitVec 4 := 7
   let i := q.ctx.toNat
   let c := s.ctx i
   let replies (r : Reply) : Prop := q.form ≠ .slot ∧ s.inTime p.toNat q.sentAt cyc.toNat xs = true ∧ s.replyOf p.toNat (q.form.sheaf c.mps.toNat) xs = r
   s.working = true ∧ (s.shuttle p.toNat).seqs = [q] ∧ q.started = true ∧ q.weft = false ∧ q.kind = .ping ∧ q.form = .ping ∧
     replies (.ack next) ∧ s.transferOf i = none) ∧
  (let s : State := wBus wCtx (wQueue wEntry) [wSeq .take (.inSheaf 1)]
   let p : Port := 3
   let cyc : Cycle := 3000
   let q : WSeq := wSeq .take (.inSheaf 1)
   let xs : List RxPkt := [wRx (dataPacket 15 true [1,2,3])]
   let qn : Nat := 5
   let e : Entry := wEntry
   let pk : Pkt := { seq := 15, last := true, data := [1,2,3] }
   let i := q.ctx.toNat
   let c := s.ctx i
   let replies (r : Reply) : Prop := q.form ≠ .slot ∧ s.inTime p.toNat q.sentAt cyc.toNat xs = true ∧ s.replyOf p.toNat (q.form.sheaf c.mps.toNat) xs = r
   s.working = true ∧ (s.shuttle p.toNat).seqs = [q] ∧ q.started = true ∧ q.weft = false ∧ q.kind = .take ∧ q.form = .inSheaf 1 ∧
     replies (.sheaf [pk] false false) ∧ s.transferOf i = some (qn, e) ∧ s.ctxOfHandle e.handle = some i ∧ c.typ ≠ 0 ∧
     c.deferred = false ∧ pk.seq = c.seq ∧ pk.data ≠ [] ∧ pk.data.length ≤ c.remain.toNat ∧ pk.data.length < c.mps.toNat ∧ e.qshuf = 0 ∧
     c.port.toNat < 16) ∧
  (let s : State := wBus wCtx (wQueue wEntry) [wSeq (.probe 10) .slot]
   let p : Port := 3
   let cyc : Cycle := 3000
   let q : WSeq := wSeq (.probe 10) .slot
   let us : Nat := 10
   s.working = true ∧ (s.shuttle p.toNat).seqs = [q] ∧ q.started = true ∧ q.weft = false ∧ q.kind = .probe us ∧ q.form = .slot ∧
     q.start + us * 100 ≤ cyc.toNat) ∧
  (let s : State := wBus wCtx (wQueue wEntry) [{ wSeq .take (.inSheaf 1) with sentAt := 601 }]
   let p : Port := 3
   let cyc : Cycle := 1000
   let q : WSeq := { wSeq .take (.inSheaf 1) with sentAt := 601 }
   let xs : List RxPkt := [wRx (wHs ptNak)]
   s.working = true ∧ (s.shuttle p.toNat).seqs = [q] ∧ q.started = true ∧ q.weft = false ∧ q.form ≠ .slot ∧
     s.inTime p.toNat q.sentAt cyc.toNat xs = false ∧ cyc.toNat < q.sentAt + toOf (s.port p.toNat).speed / 100) ∧
  (let s : State := wBus wCtx (wQueue wEntry) [{ wSeq .take (.inSheaf 1) with attempts := 2 }]
   let p : Port := 3
   let cyc : Cycle := 3000
   let q : WSeq := { wSeq .take (.inSheaf 1) with attempts := 2 }
   let qn : Nat := 5
   let e : Entry := wEntry
   let i := q.ctx.toNat
   let c := s.ctx i
   let silent : Prop := s.working = true ∧ (s.shuttle p.toNat).seqs = [q] ∧ q.started = true ∧ (∀ us, q.kind ≠ .probe us) ∧ q.form ≠ .slot ∧ q.sentAt + toOf (s.port p.toNat).speed / 100 ≤ cyc.toNat ∧ cyc.toNat ≤ 12000
   silent ∧ q.weft = false ∧ q.retries < q.attempts ∧ s.transferOf i = some (qn, e) ∧
     (satInc c.errRun).toNat < (s.queue (qKey c.slice.toNat qn)).errLimit.toNat) ∧
  (let s : State := { wBus wCtx (wQueue wEntry) [] with shuttles := [(3, { notice := some 99 })] }
   let p : Port := 3
   let n : W32 := 99
   (s.shuttle p.toNat).notice = some n ∧ s.noticeDue p.toNat = true ∧ (s.shuttle p.toNat).seqs = []) := by
  refine ⟨?_, ?_, ?_, ?_, ?_, ?_, ?_, ?_⟩
  · (dsimp only [Ready, Inside, OnIdleShuttle, PolicyRuns, TickInv]; repeat (first | decide +kernel | (intro us h; cases h) | apply And.intro))
  · (dsimp only [Ready, Inside, OnIdleShuttle, PolicyRuns, TickInv]; repeat (first | decide +kernel | (intro us h; cases h) | apply And.intro))
  · (dsimp only [Ready, Inside, OnIdleShuttle, PolicyRuns, TickInv]; decide +kernel)
  · (dsimp only [Ready, Inside, OnIdleShuttle, PolicyRuns, TickInv]; decide +kernel)
  · decide
  · decide
  · (dsimp only [Ready, Inside, OnIdleShuttle, PolicyRuns, TickInv]; repeat (first | decide +kernel | (intro us h; cases h) | apply And.intro))
  · decide

/-- States and operands that meet the hypotheses of StagingAndTransfers. -/
theorem witness_StagingAndTransfers :
  (let s : State := { wBus { wCtx with queue := 0 } (wQueue { wEntry with st := .waiting }) [] with sched := [(3, .of { progs := [(0, { slice := 0, code := [], period := 1, speed := .plant, named := [(101, 64)], phases := [[101],[7]], loom := 0, finish := 0, wire := 0 })] })], staging := [{ ctx := 102, warp := true }], pot := [(0, .of { st := .owned, sl := 0 }), (5120, .of { st := .owned, sl := 0 })] }
   let i : CtxIdx := 101
   s.domOn 7 = true ∧ s.domOn 9 = true ∧ s.tick.selvage = false ∧ ((∀ x ∈ s.staging, x.done = true ∨ x.warp = true)) ∧
     s.resident i.toNat = true) ∧
  (let i : CtxIdx := 102
   let k : Nat := wayKey 102 0
   let y : CWay := { tag := 0, claimNext := true, filling := true }
   let s : State := { wBus { wCtx with queue := 0 } (wQueue { wEntry with st := .waiting }) [] with sched := [(3, .of { progs := [(0, { slice := 0, code := [], period := 1, speed := .plant, named := [(101, 64)], phases := [[101],[7]], loom := 0, finish := 0, wire := 0 })] })], cache := [(wayKey 102 0, { tag := 0, claimNext := true, filling := true })], staging := [{ ctx := 102, warp := true }] }
   s.domOn 7 = true ∧ s.domOn 9 = true ∧ s.tick.selvage = false ∧ s.wayOf (i.toNat % 1024) (i.toNat / 1024) false = some k ∧
     s.cache.find k = some y ∧ y.filling = true) ∧
  (let s : State := { wBus { wCtx with queue := 0 } (wQueue { wEntry with st := .waiting }) [] with sched := [(3, .of { progs := [(0, { slice := 0, code := [], period := 1, speed := .plant, named := [(101, 64)], phases := [[101],[7]], loom := 0, finish := 0, wire := 0 })] })], staging := [{ ctx := 102, warp := true }], pot := [(0, .of { st := .owned, sl := 0 }), (5120, .of { st := .owned, sl := 0 })] }
   let sl : Slice := 0
   let q : QNum := 5
   let pos : BitVec 17 := 0
   let e : Entry := { wEntry with st := .waiting }
   let d : Entry := { wEntry with st := .waiting }
   let i : Nat := 101
   let k := qKey sl.toNat q.toNat
   (s.queue k).entryAt pos = some e ∧ s.working = true ∧ s.works sl.toNat = true ∧ (s.comQueue k).entryAt pos = some d ∧ q ≠ 0 ∧
     e.op = 1 ∧ e.st = .waiting ∧ d.staged = true ∧ e.tick.toNat + 2 ≤ s.now ∧ s.ctxOfHandle e.handle = some i ∧
     (s.ctx i).port = (s.queue k).port ∧ s.claimed i = true ∧ s.warpNames (s.queue k).port.toNat i = true) ∧
  (let s : State := { wBus { wCtx with queue := 0 } (wQueue { wEntry with st := .waiting }) [] with devs := [] }
   let sl : Slice := 0
   let q : QNum := 5
   let pos : BitVec 17 := 0
   let e : Entry := { wEntry with st := .waiting }
   let d : Entry := { wEntry with st := .waiting }
   let k := qKey sl.toNat q.toNat
   (s.queue k).entryAt pos = some e ∧ s.working = true ∧ s.works sl.toNat = true ∧ (s.comQueue k).entryAt pos = some d ∧ q ≠ 0 ∧
     e.op = 1 ∧ e.st = .waiting ∧ d.staged = true ∧ e.tick.toNat + 2 ≤ s.now ∧ s.ctxOfHandle e.handle = none ∧ (s.queue k).old = []) ∧
  (let s : State := { wBus { wCtx with queue := 0 } (wQueue { wEntry with st := .eligible }) [] with sched := [(3, .of { progs := [(0, { slice := 0, code := [], period := 1, speed := .plant, named := [(101, 64)], phases := [[101],[7]], loom := 0, finish := 0, wire := 0 })] })] }
   let sl : Slice := 0
   let q : QNum := 5
   let pos : BitVec 17 := 0
   let e : Entry := { wEntry with st := .eligible }
   let i : Nat := 101
   let k := qKey sl.toNat q.toNat
   (s.queue k).entryAt pos = some e ∧ s.working = true ∧ s.works sl.toNat = true ∧ e.st = .eligible ∧ s.ctxOfHandle e.handle = some i ∧
     s.claimed i = true ∧ s.ownBusy (s.queue k).port.toNat i = false ∧ s.warpNames (s.queue k).port.toNat i = true ∧
     (s.ctx i).queue = 0 ∧ (s.comCtx i).queue = 0 ∧ s.firstFor sl.toNat q.toNat e = true ∧ e.pos = pos) := by
  refine ⟨?_, ?_, ?_, ?_, ?_⟩
  · decide
  · decide
  · decide
  · decide
  · decide

/-- States and operands that meet the hypotheses of IdentifiersTicketsAndPrograms. -/
theorem witness_IdentifiersTicketsAndPrograms :
  (let s : State := { wBus { wCtx with queue := 0, st := .detached } { wQueue wEntry with entries := [] } [] with devX := [(2, .of { leaving := true })] }
   let d : DevId := 2
   s.working = true ∧ (s.comDevX d.toNat).leaving = true ∧ s.noWork d.toNat = true ∧ s.noCompletion d.toNat = true) ∧
  (let s : State := wHub [wPoll 1, wPoll 2]
   let d : DevId := 2
   (s.comDevX d.toNat).leaving = false) ∧
  (let s : State := { wBus { wCtx with queue := 0, st := .lost, tktValid := true, tktDeadline := 100 } {} [] with devs := [(2, .of { base := 100, nep := 1, st := .lost })], devX := [(2, .of { lostAt := some 20 })], tick := { wBase.tick with n := 8020 } }
   let d : DevId := 2
   let i : CtxIdx := 101
   let n : BitVec 48 := 20
   s.working = true ∧ (s.devXAt d.toNat).lostAt = some n ∧ (s.dev d.toNat).st = .lost ∧ n.toNat + 8000 ≤ s.now ∧
     (s.ctx i.toNat).tktValid = true ∧ (s.ctx i.toNat).tktDeadline.toNat ≤ s.now ∧ s.works (s.ctx i.toNat).slice.toNat = true ∧
     i ∉ s.timeouts) ∧
  (let s : State := { wBus { wCtx with queue := 0, tktValid := true, tktDeadline := 101 } {} [] with devX := [(2, .of { lostAt := some 20 })] }
   let d : DevId := 2
   let i : CtxIdx := 101
   let n : BitVec 48 := 20
   (s.devXAt d.toNat).lostAt = some n ∧ s.now < n.toNat + 8000 ∧ s.now < (s.ctx i.toNat).tktDeadline.toNat) ∧
  (let s : State := { wBase with
     sched := [(3, .of { progs := [(0, { slice := 0, code := [0x04000000], period := 1, speed := .plant, named := [(101, 64)], phases := [[101],[7]], loom := 0, finish := 0, wire := 0 })] })] }
   let p : Port := 3
   let k : BitVec 3 := 0
   let g : Prog := { slice := 0, code := [0x04000000], period := 1, speed := .plant, named := [(101, 64)], phases := [[101],[7]], loom := 0, finish := 0, wire := 0 }
   (s.schedAt p.toNat).progs.find k.toNat = some g ∧ g.code ≠ [] ∧ s.working = true ∧ s.domOn (if p.toNat < 8 then 3 else 4) = true ∧
     s.works g.slice.toNat = true ∧ (s.thread p.toNat).running = false ∧ (s.thread p.toNat).cycle ≤ s.entryOf p.toNat k.toNat) ∧
  (let s : State := wHub [wPoll 1, wPoll 2]
   let p : Port := 3
   let q : Poll := wPoll 1
   let xs : List RxPkt := [wRx (wHs ptNak)]
   let cyc : Cycle := 900
   let sent (pks : List (List Byte)) : Nat := s.sentBy p.toNat (s.shuttle p.toNat).treeAt pks
   let serves (x : TreeItem) : Prop := s.treeRuns p.toNat = true ∧ s.noticeDue p.toNat = false ∧ (s.treeItems p.toNat).head? = some x ∧ s.treeFits p.toNat x = true ∧ xs ≠ [] ∧ s.inTime p.toNat (sent (attemptPackets (s.itemCtx p.toNat x) x.req x.form)) cyc.toNat xs = true
   let replies (x : TreeItem) (a : Reply) : Prop := s.replyOf p.toNat (x.form.sheaf (s.itemSizes p.toNat x).2.2) xs = a
   (s.enum p.toNat).step = .idle ∧ (s.enum p.toNat).waiting = [] ∧ serves (.poll q) ∧ replies (.poll q) .nak) ∧
  (let s : State := wHub [wPoll 2]
   let p : Port := 3
   let q : Poll := wPoll 2
   let r : TicketRec := { ticket := 5, outcome := 0, dev := 2, ep := 1, len := 0 }
   let i : Nat := 101
   let xs : List RxPkt := [wRx (dataPacket 15 true [0,5,0,0,0,0x42,0,0])]
   let cyc : Cycle := 900
   let pk : Pkt := { seq := 15, last := true, data := [0,5,0,0,0,0x42,0,0] }
   let c := s.ctx (s.pollCtx q)
   let sent (pks : List (List Byte)) : Nat := s.sentBy p.toNat (s.shuttle p.toNat).treeAt pks
   let serves (x : TreeItem) : Prop := s.treeRuns p.toNat = true ∧ s.noticeDue p.toNat = false ∧ (s.treeItems p.toNat).head? = some x ∧ s.treeFits p.toNat x = true ∧ xs ≠ [] ∧ s.inTime p.toNat (sent (attemptPackets (s.itemCtx p.toNat x) x.req x.form)) cyc.toNat xs = true
   let replies (x : TreeItem) (a : Reply) : Prop := s.replyOf p.toNat (x.form.sheaf (s.itemSizes p.toNat x).2.2) xs = a
   (s.enum p.toNat).step = .idle ∧ (s.enum p.toNat).waiting = [] ∧ serves (.poll q) ∧ replies (.poll q) (.sheaf [pk] false false) ∧
     q.ep = 2 ∧ pk.seq = c.seq ∧ pk.data.length = 8 ∧ recordOf pk.data = r ∧ s.ctxOfHandle (handleOf r.dev.toNat r.ep.toNat) = some i ∧
     i ≠ s.pollCtx q ∧ (((s.ctx i).tktValid = false ∨ (s.ctx i).ticket ≠ r.ticket))) ∧
  (let s : State := { wHub [] with enums := [(3, .of { step := .ident, route := { port := 3, hops := [] } })] }
   let p : Port := 3
   let xs : List RxPkt := [wRx (wHs ptAck 0x1000)]
   let cyc : Cycle := 900
   let x : OwnX := wStage
   let next : BitVec 4 := 1
   let sent (pks : List (List Byte)) : Nat := s.sentBy p.toNat (s.shuttle p.toNat).treeAt pks
   let serves (x : TreeItem) : Prop := s.treeRuns p.toNat = true ∧ s.noticeDue p.toNat = false ∧ (s.treeItems p.toNat).head? = some x ∧ s.treeFits p.toNat x = true ∧ xs ≠ [] ∧ s.inTime p.toNat (sent (attemptPackets (s.itemCtx p.toNat x) x.req x.form)) cyc.toNat xs = true
   let replies (x : TreeItem) (a : Reply) : Prop := s.replyOf p.toNat (x.form.sheaf (s.itemSizes p.toNat x).2.2) xs = a
   (s.enum p.toNat).step ≠ .idle ∧ s.stageCost p.toNat ≤ s.leadRoom p.toNat ∧ x.stage = .setup ∧ serves (.enumerate x) ∧
     replies (.enumerate x) (.ack next)) ∧
  (let s : State := { wBus { wCtx with queue := 0, st := .detached } { wQueue wEntry with entries := [] } [] with devX := [(2, .of { leaving := true })] }
   let p : Port := 0
   s.treeRuns p.toNat = false) ∧
  (let s : State := { wBus wCtx {} [] with trees := [(3, .of { resets := [{ hub := 2, port := 3, due := 100 }, { hub := 2, port := 4, due := 100 }] })] }
   let p : Port := 3
   let h : HubReset := { hub := 2, port := 3, due := 100 }
   (s.tree p.toNat).resets.find? (fun x => decide (x.due.toNat ≤ s.now)) = some h ∧ s.working = true) := by
  refine ⟨?_, ?_, ?_, ?_, ?_, ?_, ?_, ?_, ?_, ?_⟩
  · decide
  · decide
  · decide
  · decide
  · decide
  · (dsimp only [Ready, Inside, OnIdleShuttle, PolicyRuns, TickInv]; decide +kernel)
  · (dsimp only [Ready, Inside, OnIdleShuttle, PolicyRuns, TickInv]; decide +kernel)
  · (dsimp only [Ready, Inside, OnIdleShuttle, PolicyRuns, TickInv]; decide +kernel)
  · decide
  · decide

/-- States and operands that meet the hypotheses of AdminCommandsTakeTurns. -/
theorem witness_AdminCommandsTakeTurns :
  (let c : Instr := Instr.setAttach 3
   let sl : Slice := 3
   let op : Nat := 0x87
   let s0 : Bool := true
   let s : State := wBase
   ((∀ e, ¬AdminRuns s sl op e)) ∧ adminOp c = some (sl, op, s0)) ∧
  (let c : Instr := Instr.setAttach 3
   let sl : Slice := 3
   let op : Nat := 0x87
   let s0 : Bool := true
   let s : State := { wBase with
     slices := [(0, .of sliceS0), (3, .of { st := .running })]
     queues := [(qKey 3 0, .of { live := true, entries := [{ wEntry with q0 := 0x0087000100000000 }] })] }
   let e : Entry := { wEntry with q0 := 0x0087000100000000 }
   AdminRuns s sl op e ∧ adminOp c = some (sl, op, s0) ∧ s0 = true ∧ sl ≠ 0) := by
  refine ⟨?_, ?_⟩
  · exact ⟨nofun, by decide⟩
  · (dsimp only [Ready, Inside, OnIdleShuttle, PolicyRuns, TickInv]; repeat (first | decide +kernel | (intro us h; cases h) | apply And.intro))

/-- States and operands that meet the hypotheses of EndpointCommands. -/
theorem witness_EndpointCommands :
  (let s : State := wAdmin 3 (wCmd 0x30 33 0x0000123400000000)
   let sl : Slice := 3
   let e : Entry := wCmd 0x30 33 0x0000123400000000
   let i : Nat := 101
   let h := e.handle
   let mine : Prop := s.ctxOfHandle h = some i ∧ (s.dev (h / 16)).slice = sl
   AdminRuns s sl 0x30 e ∧ mine) ∧
  (let s : State := wAdmin 3 (wCmd 0x32 33)
   let sl : Slice := 3
   let e : Entry := wCmd 0x32 33
   let i : Nat := 101
   let h := e.handle
   let mine : Prop := s.ctxOfHandle h = some i ∧ (s.dev (h / 16)).slice = sl
   AdminRuns s sl 0x32 e ∧ mine ∧ s.pinAt h = none ∧ s.pinFull sl.toNat i = false) ∧
  (let s : State := { wAdmin 3 (wCmd 0x32 33) with slices := [(3, .of { st := .running })] }
   let sl : Slice := 3
   let e : Entry := wCmd 0x32 33
   let i : Nat := 101
   let h := e.handle
   let mine : Prop := s.ctxOfHandle h = some i ∧ (s.dev (h / 16)).slice = sl
   AdminRuns s sl 0x32 e ∧ mine ∧ (s.ctx i).pin = false ∧ s.pinFull sl.toNat i = true) ∧
  (let s : State := wAdmin 3 (wCmd 0x33 33)
   let sl : Slice := 3
   let e : Entry := wCmd 0x33 33
   let i : Nat := 101
   let h := e.handle
   let mine : Prop := s.ctxOfHandle h = some i ∧ (s.dev (h / 16)).slice = sl
   AdminRuns s sl 0x33 e ∧ mine) ∧
  (let s : State := wAdmin 3 (wCmd 0x33 49)
   let sl : Slice := 3
   let e : Entry := wCmd 0x33 49
   let c : Instr := Instr.unpin 3
   let op : Nat := 0x33
   let h := e.handle
   AdminRuns s sl op e ∧ (((c = .setTktTimeout sl ∧ op = 0x30) ∨ (c = .pin sl ∧ op = 0x32) ∨ (c = .unpin sl ∧ op = 0x33))) ∧
     s.ctxOfHandle h = none) ∧
  (let s : State := { wAdmin 3 (wCmd 0x33 33) with devs := [(2, .of { base := 100, nep := 1, st := .assigned, slice := 0 })] }
   let sl : Slice := 3
   let e : Entry := wCmd 0x33 33
   let i : Nat := 101
   let c : Instr := Instr.unpin 3
   let op : Nat := 0x33
   let h := e.handle
   AdminRuns s sl op e ∧ (((c = .setTktTimeout sl ∧ op = 0x30) ∨ (c = .pin sl ∧ op = 0x32) ∨ (c = .unpin sl ∧ op = 0x33))) ∧
     s.ctxOfHandle h = some i ∧ (s.dev (h / 16)).slice ≠ sl) ∧
  (let s : State := wAdmin 0 (wCmd 0x31 0 0x8500000000000007)
   let sl : Slice := 0
   let e : Entry := wCmd 0x31 0 0x8500000000000007
   let p : Nat := 16
   let n : Nat := 5
   AdminRuns s sl 0x31 e ∧ fld e.q1 63 59 = p ∧ fld e.q1 58 56 = n ∧ p ≤ 16 ∧ n ≤ 5 ∧
     s.routeOwner p (hopsOf n (fld e.q1 55 31)) = sl.toNat) ∧
  (let s : State := wAdmin 3 (wCmd 0x34 33)
   let sl : Slice := 3
   let e : Entry := wCmd 0x34 33
   let i : Nat := 100
   let h := e.handle
   AdminRuns s sl 0x34 e ∧ s.ctxOfHandle (h / 16 * 16) = some i ∧ (s.dev (h / 16)).slice = sl) ∧
  (let s : State := wAdmin 0 (wCmd 0x35 33)
   let sl : Slice := 0
   let e : Entry := wCmd 0x35 33
   let i : Nat := 100
   let h := e.handle
   AdminRuns s sl 0x35 e ∧ s.ctxOfHandle (h / 16 * 16) = some i ∧ (s.routeOfDev (h / 16)).hops = [] ∧
     s.routeOwner (s.routeOfDev (h / 16)).port.toNat [] = sl.toNat) := by
  refine ⟨?_, ?_, ?_, ?_, ?_, ?_, ?_, ?_, ?_⟩
  · (dsimp only [Ready, Inside, OnIdleShuttle, PolicyRuns, TickInv]; repeat (first | decide +kernel | (intro us h; cases h) | apply And.intro))
  · (dsimp only [Ready, Inside, OnIdleShuttle, PolicyRuns, TickInv]; repeat (first | decide +kernel | (intro us h; cases h) | apply And.intro))
  · (dsimp only [Ready, Inside, OnIdleShuttle, PolicyRuns, TickInv]; repeat (first | decide +kernel | (intro us h; cases h) | apply And.intro))
  · (dsimp only [Ready, Inside, OnIdleShuttle, PolicyRuns, TickInv]; repeat (first | decide +kernel | (intro us h; cases h) | apply And.intro))
  · (dsimp only [Ready, Inside, OnIdleShuttle, PolicyRuns, TickInv]; repeat (first | decide +kernel | (intro us h; cases h) | apply And.intro))
  · (dsimp only [Ready, Inside, OnIdleShuttle, PolicyRuns, TickInv]; repeat (first | decide +kernel | (intro us h; cases h) | apply And.intro))
  · (dsimp only [Ready, Inside, OnIdleShuttle, PolicyRuns, TickInv]; repeat (first | decide +kernel | (intro us h; cases h) | apply And.intro))
  · (dsimp only [Ready, Inside, OnIdleShuttle, PolicyRuns, TickInv]; repeat (first | decide +kernel | (intro us h; cases h) | apply And.intro))
  · (dsimp only [Ready, Inside, OnIdleShuttle, PolicyRuns, TickInv]; repeat (first | decide +kernel | (intro us h; cases h) | apply And.intro))

/-- States and operands that meet the hypotheses of RegistersAndPassing. -/
theorem witness_RegistersAndPassing :
  (let r : Reg := (1 : Reg)
   let q : Reg := 2
   let i : Pred := 1
   let j : Pred := 2
   r ≠ 0 ∧ q ≠ r ∧ i ≠ 0 ∧ j ≠ i) ∧
  (let s : State := wRun (.loom 3) (.nop (.loom 3) wGuard) wThread
   let u : CUnit := .loom 3
   let pc : Nat := 3
   Inside (s.thread (unitKey u)) pc) ∧
  (let s : State := wRun (.loom 3) (.nop (.loom 3) wGuard) { wThread with loops := [{ first := 0, last := 1, ctr := 3, i := 0, n := 2 }] }
   let u : CUnit := .loom 3
   let pc : Nat := 3
   let l : LoopS := { first := 0, last := 1, ctr := 3, i := 0, n := 2 }
   let r : List LoopS := ([] : List LoopS)
   (s.thread (unitKey u)).loops = l :: r ∧ pc ≠ l.last + 1 ∧ pc < (s.thread (unitKey u)).code.length) ∧
  (let s : State := wRun (.loom 3) (.nop (.loom 3) wGuard) { wThread with loops := [{ first := 0, last := 1, ctr := 3, i := 0, n := 2 }] }
   let u : CUnit := .loom 3
   let pc : Nat := 2
   let l : LoopS := { first := 0, last := 1, ctr := 3, i := 0, n := 2 }
   let r : List LoopS := ([] : List LoopS)
   (s.thread (unitKey u)).loops = l :: r ∧ pc = l.last + 1 ∧ l.i + 1 < l.n ∧ l.first < (s.thread (unitKey u)).code.length) ∧
  (let s : State := wRun (.loom 3) (.nop (.loom 3) wGuard) { wThread with loops := [{ first := 0, last := 1, ctr := 3, i := 1, n := 2 }] }
   let u : CUnit := .loom 3
   let pc : Nat := 2
   let l : LoopS := { first := 0, last := 1, ctr := 3, i := 1, n := 2 }
   (s.thread (unitKey u)).loops = [l] ∧ pc = l.last + 1 ∧ l.n ≤ l.i + 1 ∧ pc < (s.thread (unitKey u)).code.length) ∧
  (let s : State := wRun (.loom 3) (.nop (.loom 3) wGuard) wThread
   let u : CUnit := .loom 3
   let pc : Nat := 4
   u.isLoom = true ∧ (s.thread (unitKey u)).loops = [] ∧ (s.thread (unitKey u)).code.length ≤ pc) := by
  refine ⟨?_, ?_, ?_, ?_, ?_, ?_⟩
  · decide
  · (dsimp only [Ready, Inside, OnIdleShuttle, PolicyRuns, TickInv]; decide)
  · decide
  · decide
  · decide
  · decide

/-- States and operands that meet the hypotheses of CoreshNotExecuted. -/
theorem witness_CoreshNotExecuted :
  (let i : Instr := .shli (.loom 3) wGuard 1 1 32
   let u : CUnit := .loom 3
   let gd : Guard := wGuard
   unitGuard i = some (u, gd) ∧ i.coreshWf = false) ∧
  (let i : Instr := .nop (.loom 3) wGuard
   let u : CUnit := .loom 3
   let gd : Guard := wGuard
   let s : State := wBase
   unitGuard i = some (u, gd) ∧ i.coreshWf = true ∧ s.atInstr u i = false) ∧
  (let i : Instr := .add (.loom 3) wGuard 5 4 4
   let u : CUnit := .loom 3
   let gd : Guard := wGuard
   let s : State := { wRun (.loom 3) (.add (.loom 3) wGuard 5 4 4) wThread with shuttles := [(3, { seqs := [wSeq .take (.inSheaf 1)] })] }
   unitGuard i = some (u, gd) ∧ i.coreshWf = true ∧ s.atInstr u i = true ∧ (s.thread (unitKey u)).holds gd = true ∧
     s.regsPend (unitKey u) (coreshRegs i) = true) ∧
  (let i : Instr := .loop (.loom 3) { neg := false, pr := 2 } 5 3 2
   let u : CUnit := .loom 3
   let gd : Guard := { neg := false, pr := 2 }
   let s : State := wRun (.loom 3) (.loop (.loom 3) { neg := false, pr := 2 } 5 3 2) wThread
   unitGuard i = some (u, gd) ∧ i.coreshWf = true ∧ s.atInstr u i = true ∧ (s.thread (unitKey u)).holds gd = false) := by
  refine ⟨?_, ?_, ?_, ?_⟩
  · decide
  · decide
  · decide
  · decide

/-- States and operands that meet the hypotheses of SpecialAndStewardValues. -/
theorem witness_SpecialAndStewardValues :
  (let s : State := wRun (.loom 3) (.rds (.loom 3) wGuard 5 0) wThread
   let u : CUnit := .loom 3
   let gd : Guard := wGuard
   let d : Reg := 5
   Ready s u (.rds u gd d 0) gd) ∧
  (let s : State := wRun (.loom 3) (.rds (.loom 3) wGuard 5 1) wThread
   let u : CUnit := .loom 3
   let gd : Guard := wGuard
   let d : Reg := 5
   Ready s u (.rds u gd d 1) gd) ∧
  (let s : State := wRun (.loom 3) (.rds (.loom 3) wGuard 5 2) wThread
   let u : CUnit := .loom 3
   let gd : Guard := wGuard
   let d : Reg := 5
   Ready s u (.rds u gd d 2) gd) ∧
  (let s : State := wRun (.loom 3) (.rds (.loom 3) wGuard 5 3) wThread
   let p : Port := 3
   let gd : Guard := wGuard
   let d : Reg := 5
   Ready s (.loom p) (.rds (.loom p) gd d 3) gd) ∧
  (let s : State := wRun (.loom 3) (.rds (.loom 3) wGuard 5 4) wThread
   let u : CUnit := .loom 3
   let gd : Guard := wGuard
   let d : Reg := 5
   Ready s u (.rds u gd d 4) gd) ∧
  (let s : State := wRun (.loom 3) (.rds (.loom 3) wGuard 5 5) wThread
   let p : Port := 3
   let gd : Guard := wGuard
   let d : Reg := 5
   Ready s (.loom p) (.rds (.loom p) gd d 5) gd) ∧
  (let s : State := wRun (.core 2) (.rds (.core 2) wGuard 5 6) wThread
   let c : Core := 2
   let gd : Guard := wGuard
   let d : Reg := 5
   Ready s (.core c) (.rds (.core c) gd d 6) gd) ∧
  (let s : State := wRun (.core 2) (.rds (.core 2) wGuard 5 7) wThread
   let c : Core := 2
   let gd : Guard := wGuard
   let d : Reg := 5
   Ready s (.core c) (.rds (.core c) gd d 7) gd) ∧
  (let sel : BitVec 4 := 8
   8 ≤ sel.toNat) ∧
  (let sel : BitVec 4 := 6
   (sel = 6 ∨ sel = 7)) ∧
  (let sel : BitVec 4 := 3
   (sel = 3 ∨ sel = 5)) ∧
  (let s : State := wRun (.core 2) (.snap 2 wGuard 5 0x844) wThread
   let c : Core := 2
   let gd : Guard := wGuard
   let d : Reg := 5
   let item : W16 := 0x844
   let u := CUnit.core c
   Ready s u (.snap c gd d item) gd) ∧
  (let s : State := { wRun (.core 2) (.bound 2 wGuard 5 1 0x7FF) wThread with bounds := [(boundKey 3 0x7FF, .of (some (0xFFFFFFF0, 7)))] }
   let c : Core := 2
   let gd : Guard := wGuard
   let d : Reg := 5
   let a : Reg := 1
   let b : BitVec 11 := 0x7FF
   let lo : W32 := 0xFFFFFFF0
   let hi : W32 := 7
   let u := CUnit.core c
   let x := s.thread (16 + c.toNat)
   s.boundOf x.slice.toNat b.toNat = (lo, hi) ∧ lo.toInt ≤ hi.toInt ∧ Ready s u (.bound c gd d a b) gd) ∧
  (let s : State := wRun (.core 2) (.ema 2 wGuard 5 1 31) wThread
   let c : Core := 2
   let gd : Guard := wGuard
   let d : Reg := 5
   let a : Reg := 1
   let k : BitVec 5 := 31
   let u := CUnit.core c
   Ready s u (.ema c gd d a k) gd) ∧
  (let s : State := wRun (.core 2) (.ldc (.core 2) wGuard 5 15 false) wThread
   let c : Core := 2
   let gd : Guard := wGuard
   let d : Reg := 5
   let w : BitVec 4 := 15
   let u := CUnit.core c
   Ready s u (.ldc u gd d w false) gd) ∧
  (let s : State := wRun (.core 2) (.stc (.core 2) wGuard 1 15 false) wThread
   let c : Core := 2
   let gd : Guard := wGuard
   let a : Reg := 1
   let w : BitVec 4 := 15
   let u := CUnit.core c
   let x := s.thread (16 + c.toNat)
   Ready s u (.stc u gd a w false) gd ∧ Inside x (x.pc + 1)) := by
  refine ⟨?_, ?_, ?_, ?_, ?_, ?_, ?_, ?_, ?_, ?_, ?_, ?_, ?_, ?_, ?_, ?_⟩
  · (dsimp only [Ready, Inside, OnIdleShuttle, PolicyRuns, TickInv]; decide)
  · (dsimp only [Ready, Inside, OnIdleShuttle, PolicyRuns, TickInv]; decide)
  · (dsimp only [Ready, Inside, OnIdleShuttle, PolicyRuns, TickInv]; decide)
  · (dsimp only [Ready, Inside, OnIdleShuttle, PolicyRuns, TickInv]; decide)
  · (dsimp only [Ready, Inside, OnIdleShuttle, PolicyRuns, TickInv]; decide)
  · (dsimp only [Ready, Inside, OnIdleShuttle, PolicyRuns, TickInv]; decide)
  · (dsimp only [Ready, Inside, OnIdleShuttle, PolicyRuns, TickInv]; decide)
  · (dsimp only [Ready, Inside, OnIdleShuttle, PolicyRuns, TickInv]; decide)
  · decide
  · decide
  · decide
  · (dsimp only [Ready, Inside, OnIdleShuttle, PolicyRuns, TickInv]; decide)
  · (dsimp only [Ready, Inside, OnIdleShuttle, PolicyRuns, TickInv]; decide)
  · (dsimp only [Ready, Inside, OnIdleShuttle, PolicyRuns, TickInv]; decide)
  · (dsimp only [Ready, Inside, OnIdleShuttle, PolicyRuns, TickInv]; decide)
  · (dsimp only [Ready, Inside, OnIdleShuttle, PolicyRuns, TickInv]; decide)

/-- States and operands that meet the hypotheses of LoomAndTaskControl. -/
theorem witness_LoomAndTaskControl :
  (let s : State := wRun (.loom 3) (.endRun (.loom 3) wGuard) wThread
   let p : Port := 3
   let gd : Guard := wGuard
   let u := CUnit.loom p
   Ready s u (.endRun u gd) gd) ∧
  (let s : State := wRun (.loom 3) (.br (.loom 3) wGuard 2) wThread
   let p : Port := 3
   let gd : Guard := wGuard
   let off : W16 := 2
   let u := CUnit.loom p
   let x := s.thread p.toNat
   Ready s u (.br u gd off) gd ∧ Inside x (x.pc + 1 + off.toNat)) ∧
  (let s : State := wRun (.loom 3) (.br (.loom 3) wGuard 1) { wThread with loops := [{ first := 0, last := 1, ctr := 3, i := 0, n := 2 }] }
   let p : Port := 3
   let gd : Guard := wGuard
   let off : W16 := 1
   let l : LoopS := { first := 0, last := 1, ctr := 3, i := 0, n := 2 }
   let u := CUnit.loom p
   let x := s.thread p.toNat
   Ready s u (.br u gd off) gd ∧ x.loops = [l] ∧ x.pc + 1 + off.toNat = l.last + 1 ∧ l.last + 1 < x.code.length) ∧
  (let s : State := wRun (.loom 3) (.loop (.loom 3) wGuard 5 255 2) wThread
   let p : Port := 3
   let gd : Guard := wGuard
   let d : Reg := 5
   let n : Byte := 255
   let len : BitVec 11 := 2
   let u := CUnit.loom p
   let x := s.thread p.toNat
   Ready s u (.loop u gd d n len) gd ∧ 0 < len.toNat ∧ x.pc + 1 < x.code.length) ∧
  (let s : State := wRun (.loom 3) (.await (.loom 3) wGuard 0 0 12000) wThread
   let p : Port := 3
   let gd : Guard := wGuard
   let a : Reg := 0
   let cyc : BitVec 14 := 12000
   let u := CUnit.loom p
   let x := s.thread p.toNat
   Ready s u (.await u gd 0 a cyc) gd ∧ Inside x (x.pc + 1)) ∧
  (let s : State := wRun (.loom 3) (.await (.loom 3) wGuard 1 0 0) wThread
   let p : Port := 3
   let gd : Guard := wGuard
   let a : Reg := 0
   let cyc : BitVec 14 := 0
   let u := CUnit.loom p
   let x := s.thread p.toNat
   Ready s u (.await u gd 1 a cyc) gd ∧ (s.shuttle p.toNat).seqs = [] ∧ Inside x (x.pc + 1)) ∧
  (let s : State := { wRun (.loom 3) (.await (.loom 3) wGuard 1 0 0) wThread with
     shuttles := [(3, { seqs := [wSeq .take (.inSheaf 1)] })] }
   let p : Port := 3
   let gd : Guard := wGuard
   let a : Reg := 0
   let cyc : BitVec 14 := 0
   let u := CUnit.loom p
   Ready s u (.await u gd 1 a cyc) gd ∧ (s.shuttle p.toNat).seqs ≠ []) ∧
  (let s : State := { wRun (.core 2) (.raise (.core 2) wGuard (.flag 9 31)) wThread with
     tasks := [(9, .of { live := true, m := 0x80000001, all := true })] }
   let c : Core := 2
   let gd : Guard := wGuard
   let tk : Task := 9
   let fl : BitVec 5 := 31
   let u := CUnit.core c
   let x := s.thread (16 + c.toNat)
   Ready s u (.raise u gd (.flag tk fl)) gd ∧ Inside x (x.pc + 1) ∧ (s.task tk.toNat).live = true ∧
     ({ s.task tk.toNat with f := setBit (s.task tk.toNat).f fl.toNat } : TaskS).ready = false) ∧
  (let s : State := { wRun (.core 2) (.raise (.core 2) wGuard (.flag 9 31)) wThread with
     tasks := [(9, .of { live := true, m := 0x80000000, last := 1 })] }
   let c : Core := 2
   let gd : Guard := wGuard
   let tk : Task := 9
   let fl : BitVec 5 := 31
   let u := CUnit.core c
   let x := s.thread (16 + c.toNat)
   Ready s u (.raise u gd (.flag tk fl)) gd ∧ Inside x (x.pc + 1) ∧ (s.task tk.toNat).live = true ∧
     ({ s.task tk.toNat with f := setBit (s.task tk.toNat).f fl.toNat } : TaskS).ready = true ∧ s.taskRuns tk.toNat = false ∧
     s.hasEntry tk.toNat = false ∧ (s.task tk.toNat).member = none ∧ (s.graph (s.task tk.toNat).graph.toNat).spillMode = false ∧
     (s.coreAt (s.task tk.toNat).last.toNat).ready.length + (s.coreAt (s.task tk.toNat).last.toNat).policies.length < 64) ∧
  (let s : State := { wRun (.core 2) (.endRun (.core 2) wGuard) { wThread with task := 7 } with tasks := [(7, .of { live := true, m := 1 })] }
   let c : Core := 2
   let gd : Guard := wGuard
   let u := CUnit.core c
   let x := s.thread (16 + c.toNat)
   Ready s u (.endRun u gd) gd ∧ (s.task x.task.toNat).ready = false ∧ (s.task x.task.toNat).member = none) ∧
  (let s : State := { wRun (.core 2) (.await (.core 2) wGuard 3 1 0) { wThread with task := 7 } with tasks := [(7, .of { live := true, m := 1 })] }
   let c : Core := 2
   let gd : Guard := wGuard
   let a : Reg := 1
   let mode : BitVec 2 := 3
   let cyc : BitVec 14 := 0
   let u := CUnit.core c
   let x := s.thread (16 + c.toNat)
   Ready s u (.await u gd mode a cyc) gd ∧ (s.task x.task.toNat).member = none ∧
     ({ s.task x.task.toNat with m := x.reg a, all := mode == 3 } : TaskS).ready = false) := by
  refine ⟨?_, ?_, ?_, ?_, ?_, ?_, ?_, ?_, ?_, ?_, ?_⟩
  · (dsimp only [Ready, Inside, OnIdleShuttle, PolicyRuns, TickInv]; decide)
  · (dsimp only [Ready, Inside, OnIdleShuttle, PolicyRuns, TickInv]; decide)
  · (dsimp only [Ready, Inside, OnIdleShuttle, PolicyRuns, TickInv]; decide)
  · (dsimp only [Ready, Inside, OnIdleShuttle, PolicyRuns, TickInv]; decide)
  · (dsimp only [Ready, Inside, OnIdleShuttle, PolicyRuns, TickInv]; decide)
  · (dsimp only [Ready, Inside, OnIdleShuttle, PolicyRuns, TickInv]; decide)
  · (dsimp only [Ready, Inside, OnIdleShuttle, PolicyRuns, TickInv]; decide)
  · (dsimp only [Ready, Inside, OnIdleShuttle, PolicyRuns, TickInv]; decide)
  · (dsimp only [Ready, Inside, OnIdleShuttle, PolicyRuns, TickInv]; decide)
  · (dsimp only [Ready, Inside, OnIdleShuttle, PolicyRuns, TickInv]; decide)
  · (dsimp only [Ready, Inside, OnIdleShuttle, PolicyRuns, TickInv]; decide)

/-- States and operands that meet the hypotheses of ContextInstructions. -/
theorem witness_ContextInstructions :
  (let s : State := wRun (.loom 3) (.selc 3 101) wThread
   let p : Port := 3
   let i : CtxIdx := 101
   let u := CUnit.loom p
   Ready s u (.selc p i) noGuard) ∧
  (let s : State := wRun (.loom 3) (.selcr 3 wGuard 0xFFFF) wThread
   let p : Port := 3
   let gd : Guard := wGuard
   let i : CtxIdx := 101
   let off : W16 := 0xFFFF
   let u := CUnit.loom p
   let x := s.thread p.toNat
   x.cx = some i ∧ Ready s u (.selcr p gd off) gd) ∧
  (let s : State := { wRun (.loom 3) (.ldc (.loom 3) wGuard 5 2 false) wThread with
     shuttles := [(3, { seqs := [{ wSeq .take (.inSheaf 1) with d := 9 }] })] }
   let p : Port := 3
   let gd : Guard := wGuard
   let i : CtxIdx := 101
   let d : Reg := 5
   let w : BitVec 4 := 2
   let u := CUnit.loom p
   let x := s.thread p.toNat
   x.cx = some i ∧ s.ctxPend p.toNat i.toNat = true ∧ Ready s u (.ldc u gd d w false) gd) ∧
  (let s : State := wRun (.loom 3) (.ldc (.loom 3) wGuard 5 0 false) wThread
   let p : Port := 3
   let gd : Guard := wGuard
   let i : CtxIdx := 101
   let d : Reg := 5
   let w : BitVec 4 := 0
   let u := CUnit.loom p
   let x := s.thread p.toNat
   x.cx = some i ∧ s.ctxPend p.toNat i.toNat = false ∧ x.ready = [] ∧ (s.ctx i.toNat).st ≠ .free ∧ Ready s u (.ldc u gd d w false) gd) ∧
  (let s : State := wRun (.loom 3) (.ldc (.loom 3) wGuard 5 0 true) wThread
   let p : Port := 3
   let gd : Guard := wGuard
   let i : CtxIdx := 101
   let d : Reg := 5
   let w : BitVec 4 := 0
   let u := CUnit.loom p
   let x := s.thread p.toNat
   x.cx = some i ∧ s.ctxPend p.toNat i.toNat = false ∧ x.ready = [] ∧ (s.ctx i.toNat).st ≠ .free ∧ Ready s u (.ldc u gd d w true) gd) ∧
  (let s : State := wRun (.loom 3) (.ldc (.loom 3) wGuard 5 0 false) { wThread with cx := some 999 }
   let p : Port := 3
   let gd : Guard := wGuard
   let i : CtxIdx := 999
   let d : Reg := 5
   let w : BitVec 4 := 0
   let u := CUnit.loom p
   let x := s.thread p.toNat
   x.cx = some i ∧ s.ctxPend p.toNat i.toNat = false ∧ x.ready = [] ∧ (s.ctx i.toNat).st = .free ∧ Ready s u (.ldc u gd d w false) gd) ∧
  (let s : State := wRun (.loom 3) (.stc (.loom 3) wGuard 1 2 true) wThread
   let p : Port := 3
   let gd : Guard := wGuard
   let i : CtxIdx := 101
   let a : Reg := 1
   let u := CUnit.loom p
   let x := s.thread p.toNat
   x.cx = some i ∧ (s.ctx i.toNat).st ≠ .free ∧ Inside x (x.pc + 1) ∧ Ready s u (.stc u gd a 2 true) gd) ∧
  (let s : State := wRun (.loom 3) (.stc (.loom 3) wGuard 1 7 false) wThread
   let p : Port := 3
   let gd : Guard := wGuard
   let i : CtxIdx := 101
   let a : Reg := 1
   let u := CUnit.loom p
   let x := s.thread p.toNat
   x.cx = some i ∧ (s.ctx i.toNat).st ≠ .free ∧ Inside x (x.pc + 1) ∧ Ready s u (.stc u gd a 7 false) gd) ∧
  (let s : State := wRun (.loom 3) (.stc (.loom 3) wGuard 1 7 true) { wThread with cx := some 999 }
   let p : Port := 3
   let gd : Guard := wGuard
   let i : CtxIdx := 999
   let a : Reg := 1
   let u := CUnit.loom p
   let x := s.thread p.toNat
   x.cx = some i ∧ (s.ctx i.toNat).st = .free ∧ Inside x (x.pc + 1) ∧ Ready s u (.stc u gd a 7 true) gd) ∧
  (let s : State := wRun (.loom 3) (.raise (.loom 3) wGuard (.event 0xFF 1)) wThread
   let p : Port := 3
   let gd : Guard := wGuard
   let i : CtxIdx := 101
   let a : Reg := 1
   let code : Byte := 0xFF
   let u := CUnit.loom p
   let x := s.thread p.toNat
   x.cx = some i ∧ Inside x (x.pc + 1) ∧ Ready s u (.raise u gd (.event code a)) gd) := by
  refine ⟨?_, ?_, ?_, ?_, ?_, ?_, ?_, ?_, ?_, ?_⟩
  · (dsimp only [Ready, Inside, OnIdleShuttle, PolicyRuns, TickInv]; decide)
  · (dsimp only [Ready, Inside, OnIdleShuttle, PolicyRuns, TickInv]; decide)
  · (dsimp only [Ready, Inside, OnIdleShuttle, PolicyRuns, TickInv]; decide)
  · (dsimp only [Ready, Inside, OnIdleShuttle, PolicyRuns, TickInv]; decide)
  · (dsimp only [Ready, Inside, OnIdleShuttle, PolicyRuns, TickInv]; decide)
  · (dsimp only [Ready, Inside, OnIdleShuttle, PolicyRuns, TickInv]; decide)
  · (dsimp only [Ready, Inside, OnIdleShuttle, PolicyRuns, TickInv]; decide)
  · (dsimp only [Ready, Inside, OnIdleShuttle, PolicyRuns, TickInv]; decide)
  · (dsimp only [Ready, Inside, OnIdleShuttle, PolicyRuns, TickInv]; decide)
  · (dsimp only [Ready, Inside, OnIdleShuttle, PolicyRuns, TickInv]; decide)

/-- States and operands that meet the hypotheses of StewardActions. -/
theorem witness_StewardActions :
  (let s : State := { wRun (.core 2) (.act 2 wGuard 1 0x7FFF) wThread with
     tasks := [(7, .of { live := true, member := some 5, home := 1 })] }
   let c : Core := 2
   let gd : Guard := wGuard
   let a : Reg := 1
   let actr : BitVec 15 := 0x7FFF
   let u := CUnit.core c
   let x := s.thread (16 + c.toNat)
   Inside x (x.pc + 1) ∧ Ready s u (.act c gd a actr) gd ∧ ((∀ e ∈ s.decisions, ¬(e.actr = actr ∧
     (actr.toNat < 0x300 ∨ e.slice = x.slice))))) ∧
  (let s : State := { wRun (.core 2) (.timer 2 wGuard 7 31 0) wThread with
     tasks := [(7, .of { live := true, member := some 5, home := 1 })]
     cores := [(1, .of { timers := [{ task := 7, flag := 31, deadline := 300 }, { task := 7, flag := 30, deadline := 300 }] })] }
   let c : Core := 2
   let gd : Guard := wGuard
   let a : Reg := 0
   let tk : Task := 7
   let fl : BitVec 5 := 31
   let u := CUnit.core c
   let x := s.thread (16 + c.toNat)
   Inside x (x.pc + 1) ∧ Ready s u (.timer c gd tk fl a) gd) ∧
  (let s : State := { wRun (.core 2) (.flow 2 wGuard 5 1) { wThread with task := 7, place := some 6 } with tasks := [(7, .of { live := true, member := some 5, home := 1 })], flows := [(5, .of { live := true })] }
   let c : Core := 2
   let gd : Guard := wGuard
   let a : Reg := 1
   let f : Flow := 5
   let pl : W32 := 6
   let u := CUnit.core c
   let x := s.thread (16 + c.toNat)
   Inside x (x.pc + 1) ∧ Ready s u (.flow c gd f a) gd ∧ x.place = some pl ∧ (s.task x.task.toNat).member = some f) ∧
  (let s : State := { wRun (.core 2) (.trace 2 wGuard 1) wThread with tasks := [(7, .of { live := true, member := some 5, home := 1 })] }
   let c : Core := 2
   let gd : Guard := wGuard
   let a : Reg := 1
   let u := CUnit.core c
   let x := s.thread (16 + c.toNat)
   Inside x (x.pc + 1) ∧ Ready s u (.trace c gd a) gd ∧ s.trace.length < 8192) := by
  refine ⟨?_, ?_, ?_, ?_⟩
  · (dsimp only [Ready, Inside, OnIdleShuttle, PolicyRuns, TickInv]; decide)
  · (dsimp only [Ready, Inside, OnIdleShuttle, PolicyRuns, TickInv]; decide)
  · (dsimp only [Ready, Inside, OnIdleShuttle, PolicyRuns, TickInv]; decide)
  · (dsimp only [Ready, Inside, OnIdleShuttle, PolicyRuns, TickInv]; decide)

/-- States and operands that meet the hypotheses of ChecksAndAttempts. -/
theorem witness_ChecksAndAttempts :
  (let s : State := wBus { wCtx with port := 4 } {} []
   let p : Nat := 3
   let i : Nat := 101
   let k : WKind := WKind.take
   let weft : Bool := false
   let c := s.ctx i
   let x := s.transferOf i
   let wrong : Bool := decide (c.port.toNat ≠ p) || s.offCharge p i weft || !kindSuits k c || stageWrong k c x
   wrong = true) ∧
  (let s : State := wBus { wCtx with st := .detached } {} []
   let p : Nat := 3
   let i : Nat := 101
   let k : WKind := WKind.take
   let weft : Bool := false
   let c := s.ctx i
   let x := s.transferOf i
   let wrong : Bool := decide (c.port.toNat ≠ p) || s.offCharge p i weft || !kindSuits k c || stageWrong k c x
   let dead : Bool := (decide (c.st ≠ .active) && decide (c.st ≠ .halted)) || decide ((s.port p).st ≠ .active)
   wrong = false ∧ dead = true) ∧
  (let s : State := wBus { wCtx with st := .halted } {} []
   let p : Nat := 3
   let i : Nat := 101
   let k : WKind := WKind.take
   let weft : Bool := false
   let c := s.ctx i
   let x := s.transferOf i
   let wrong : Bool := decide (c.port.toNat ≠ p) || s.offCharge p i weft || !kindSuits k c || stageWrong k c x
   let dead : Bool := (decide (c.st ≠ .active) && decide (c.st ≠ .halted)) || decide ((s.port p).st ≠ .active)
   wrong = false ∧ dead = false ∧ c.st = .halted) ∧
  (let s : State := wBus { wCtx with queue := 0 } {} []
   let p : Nat := 3
   let i : Nat := 101
   let k : WKind := WKind.take
   let weft : Bool := false
   let c := s.ctx i
   let x := s.transferOf i
   let wrong : Bool := decide (c.port.toNat ≠ p) || s.offCharge p i weft || !kindSuits k c || stageWrong k c x
   let dead : Bool := (decide (c.st ≠ .active) && decide (c.st ≠ .halted)) || decide ((s.port p).st ≠ .active)
   wrong = false ∧ dead = false ∧ c.st ≠ .halted ∧ kindNeeds k c = true ∧ x = none) ∧
  (let s : State := wBus wCtx (wQueue wEntry) []
   let p : Nat := 3
   let i : Nat := 101
   let k : WKind := WKind.take
   let weft : Bool := false
   let c := s.ctx i
   let x := s.transferOf i
   let wrong : Bool := decide (c.port.toNat ≠ p) || s.offCharge p i weft || !kindSuits k c || stageWrong k c x
   let dead : Bool := (decide (c.st ≠ .active) && decide (c.st ≠ .halted)) || decide ((s.port p).st ≠ .active)
   wrong = false ∧ dead = false ∧ c.st ≠ .halted ∧ ((kindNeeds k c = true → x ≠ none))) ∧
  (let s : State := wBus wCtx (wQueue wEntry) []
   let i : Nat := 101
   let q : Nat := 5
   let e : Entry := wEntry
   let c := s.ctx i
   let plain : Bool := (s.recordIn c.slice.toNat q e).isNone && !c.tktValid && !(s.comCtx i).tktValid && e.record.isNone
   s.transferOf i = some (q, e) ∧ e.stage = .setup ∧ plain = true ∧ c.typ ≠ 0 ∧ c.dirIn = true) ∧
  (let s : State := wBus { wCtx with typ := 0 } (wQueue { wEntry with stage := .data, q3 := 0x800000 }) []
   let i : Nat := 101
   let q : Nat := 5
   let e : Entry := { wEntry with stage := .data, q3 := 0x800000 }
   let c := s.ctx i
   let plain : Bool := (s.recordIn c.slice.toNat q e).isNone && !c.tktValid && !(s.comCtx i).tktValid && e.record.isNone
   s.transferOf i = some (q, e) ∧ e.stage = .data ∧ setupIn e.q3 = true ∧ plain = true ∧ c.typ = 0) ∧
  (let s : State := wBus { wCtx with typ := 0 } (wQueue { wEntry with stage := .data, data := [1,2] }) []
   let i : Nat := 101
   let q : Nat := 5
   let e : Entry := { wEntry with stage := .data, data := [1,2] }
   s.transferOf i = some (q, e) ∧ e.stage = .data ∧ setupIn e.q3 = false) ∧
  (let s : State := wBus { wCtx with typ := 0 } (wQueue { wEntry with stage := .status, q3 := 0x4000000000800000 }) []
   let i : Nat := 101
   let q : Nat := 5
   let e : Entry := { wEntry with stage := .status, q3 := 0x4000000000800000 }
   s.transferOf i = some (q, e) ∧ e.stage = .status ∧ setupIn e.q3 = true ∧ setupLength e.q3 ≠ 0) ∧
  (let s : State := wBus { wCtx with typ := 0 } (wQueue { wEntry with stage := .status }) []
   let i : Nat := 101
   let q : Nat := 5
   let e : Entry := { wEntry with stage := .status }
   s.transferOf i = some (q, e) ∧ e.stage = .status ∧ ((setupIn e.q3 = false ∨ setupLength e.q3 = 0))) ∧
  (let s : State := wBus { wCtx with deferred := true, dirIn := false } (wQueue { wEntry with data := [1,2] }) []
   let i : Nat := 101
   let q : Nat := 5
   let e : Entry := { wEntry with data := [1,2] }
   let c := s.ctx i
   let plain : Bool := (s.recordIn c.slice.toNat q e).isNone && !c.tktValid && !(s.comCtx i).tktValid && e.record.isNone
   s.transferOf i = some (q, e) ∧ plain = true ∧ c.typ ≠ 0 ∧ c.dirIn = false) ∧
  (let s : State := wBus { wCtx with deferred := true } (wQueue { wEntry with record := some { ticket := 5, outcome := 0, dev := 2, ep := 1, len := 100 } }) []
   let i : Nat := 101
   let q : Nat := 5
   let e : Entry := { wEntry with record := some { ticket := 5, outcome := 0, dev := 2, ep := 1, len := 100 } }
   let r : TicketRec := { ticket := 5, outcome := 0, dev := 2, ep := 1, len := 100 }
   let c := s.ctx i
   s.transferOf i = some (q, e) ∧ s.recordIn c.slice.toNat q e = some r) ∧
  (let s : State := wBus { wCtx with deferred := true, tktValid := true } (wQueue wEntry) []
   let i : Nat := 101
   let q : Nat := 5
   let e : Entry := wEntry
   let c := s.ctx i
   s.transferOf i = some (q, e) ∧ s.recordIn c.slice.toNat q e = none ∧ c.typ ≠ 0 ∧ ((c.tktValid = true ∨ (s.comCtx i).tktValid = true))) := by
  refine ⟨?_, ?_, ?_, ?_, ?_, ?_, ?_, ?_, ?_, ?_, ?_, ?_, ?_⟩
  · decide
  · decide
  · decide
  · decide
  · decide
  · decide
  · decide
  · decide
  · decide
  · decide
  · decide
  · decide
  · decide

/-- States and operands that meet the hypotheses of BusInstructionsSend. -/
theorem witness_BusInstructionsSend :
  (let s : State := { wRun (.loom 3) (.poll 3 wGuard 5 0 0 2) { wThread with cx := some 101 } with ctxs := [(100, .of { handle := 32, port := 3, speed := 2, mps := 64, st := .active }), (101, .of wCtx)], queues := [(5, .of (wQueue wEntry))], shuttles := [(3, { lastStart := 600, ended := 700, lead := 800 })] }
   let p : Port := 3
   let gd : Guard := wGuard
   let d : Reg := 5
   let e : Reg := 2
   let cnt : BitVec 3 := 0
   let rty : BitVec 2 := 0
   let cx : CtxIdx := 101
   let a : Attempt := .inSheaf 1
   let i : Instr := (.poll 3 wGuard 5 0 0 2 : Instr)
   let k : WKind := WKind.poll
   let g : Reg := 2
   let n : Nat := 0
   let r : Nat := 0
   let cost : Nat := 40
   (((i = .poll p gd d 0 0 e ∧ k = .poll ∧ g = e ∧ n = 0 ∧ r = 0 ∧ cost = 40) ∨ (i = .take p gd d cnt rty e ∧ k = .take ∧ g = 0 ∧
     n = cnt.toNat ∧ r = rty.toNat ∧ cost = 40 + 8 * cnt.toNat) ∨ (i = .give p gd d cnt rty e ∧ k = .give ∧ g = 0 ∧ n = cnt.toNat ∧
     r = rty.toNat ∧ cost = 40 + 8 * cnt.toNat) ∨ (i = .setup p gd d cnt rty e ∧ k = .setup ∧ g = 0 ∧ n = cnt.toNat ∧ r = rty.toNat ∧
     cost = 40 + 8 * cnt.toNat) ∨ (i = .ping p gd d 0 0 e ∧ k = .ping ∧ g = 0 ∧ n = 0 ∧ r = 0 ∧
     cost = 40) ∨ (i = .defer p gd d cnt rty e ∧ k = .defer ∧ g = 0 ∧ n = cnt.toNat ∧ r = rty.toNat ∧ cost = 40 + 8 * cnt.toNat))) ∧
     OnIdleShuttle s p i gd cx ∧ s.wireCheck p.toNat k cx.toNat false = none ∧ s.planWire k cx.toNat n = some a) ∧
  (let s : State := { wRun (.loom 3) (.take 3 wGuard 5 7 3 0) { wThread with cx := some 101 } with ctxs := [(100, .of { handle := 32, port := 3, speed := 2, mps := 64, st := .active }), (101, .of { wCtx with port := 4 })], queues := [(5, .of (wQueue wEntry))], shuttles := [(3, { lastStart := 600, ended := 700, lead := 800 })] }
   let p : Port := 3
   let gd : Guard := wGuard
   let d : Reg := 5
   let e : Reg := 0
   let cnt : BitVec 3 := 7
   let rty : BitVec 2 := 3
   let cx : CtxIdx := 101
   let i : Instr := (.take 3 wGuard 5 7 3 0 : Instr)
   let k : WKind := WKind.take
   let g : Reg := 0
   let n : Nat := 7
   let r : Nat := 3
   let cost : Nat := 96
   let o : Nat := 12
   (((i = .poll p gd d 0 0 e ∧ k = .poll ∧ g = e ∧ n = 0 ∧ r = 0 ∧ cost = 40) ∨ (i = .take p gd d cnt rty e ∧ k = .take ∧ g = 0 ∧
     n = cnt.toNat ∧ r = rty.toNat ∧ cost = 40 + 8 * cnt.toNat) ∨ (i = .give p gd d cnt rty e ∧ k = .give ∧ g = 0 ∧ n = cnt.toNat ∧
     r = rty.toNat ∧ cost = 40 + 8 * cnt.toNat) ∨ (i = .setup p gd d cnt rty e ∧ k = .setup ∧ g = 0 ∧ n = cnt.toNat ∧ r = rty.toNat ∧
     cost = 40 + 8 * cnt.toNat) ∨ (i = .ping p gd d 0 0 e ∧ k = .ping ∧ g = 0 ∧ n = 0 ∧ r = 0 ∧
     cost = 40) ∨ (i = .defer p gd d cnt rty e ∧ k = .defer ∧ g = 0 ∧ n = cnt.toNat ∧ r = rty.toNat ∧ cost = 40 + 8 * cnt.toNat))) ∧
     OnIdleShuttle s p i gd cx ∧ k ≠ .poll ∧ s.wireCheck p.toNat k cx.toNat false = some o ∧ o < 16) ∧
  (let s : State := { wRun (.loom 3) (.defer 3 wGuard 5 7 3 0) { wThread with cx := some 101 } with ctxs := [(100, .of { handle := 32, port := 3, speed := 2, mps := 64, st := .active }), (101, .of { wCtx with deferred := true, tktValid := true })], queues := [(5, .of (wQueue wEntry))], shuttles := [(3, { lastStart := 600, ended := 700, lead := 800 })] }
   let p : Port := 3
   let gd : Guard := wGuard
   let d : Reg := 5
   let e : Reg := 0
   let cnt : BitVec 3 := 7
   let rty : BitVec 2 := 3
   let cx : CtxIdx := 101
   let i : Instr := (.defer 3 wGuard 5 7 3 0 : Instr)
   let k : WKind := WKind.defer
   let g : Reg := 0
   let n : Nat := 7
   let r : Nat := 3
   let cost : Nat := 96
   (((i = .poll p gd d 0 0 e ∧ k = .poll ∧ g = e ∧ n = 0 ∧ r = 0 ∧ cost = 40) ∨ (i = .take p gd d cnt rty e ∧ k = .take ∧ g = 0 ∧
     n = cnt.toNat ∧ r = rty.toNat ∧ cost = 40 + 8 * cnt.toNat) ∨ (i = .give p gd d cnt rty e ∧ k = .give ∧ g = 0 ∧ n = cnt.toNat ∧
     r = rty.toNat ∧ cost = 40 + 8 * cnt.toNat) ∨ (i = .setup p gd d cnt rty e ∧ k = .setup ∧ g = 0 ∧ n = cnt.toNat ∧ r = rty.toNat ∧
     cost = 40 + 8 * cnt.toNat) ∨ (i = .ping p gd d 0 0 e ∧ k = .ping ∧ g = 0 ∧ n = 0 ∧ r = 0 ∧
     cost = 40) ∨ (i = .defer p gd d cnt rty e ∧ k = .defer ∧ g = 0 ∧ n = cnt.toNat ∧ r = rty.toNat ∧ cost = 40 + 8 * cnt.toNat))) ∧
     OnIdleShuttle s p i gd cx ∧ k ≠ .poll ∧ s.wireCheck p.toNat k cx.toNat false = none ∧ s.planWire k cx.toNat n = none) ∧
  (let s : State := { wRun (.loom 3) (.poll 3 wGuard 5 0 0 2) { wThread with cx := none } with ctxs := [(100, .of { handle := 32, port := 3, speed := 2, mps := 64, st := .active }), (101, .of wCtx)], queues := [(5, .of (wQueue wEntry))], shuttles := [(3, { lastStart := 600, ended := 700, lead := 800 })] }
   let p : Port := 3
   let gd : Guard := wGuard
   let d : Reg := 5
   let e : Reg := 2
   let cnt : BitVec 3 := 0
   let rty : BitVec 2 := 0
   let i : Instr := (.poll 3 wGuard 5 0 0 2 : Instr)
   ((i = .take p gd d cnt rty e ∨ i = .give p gd d cnt rty e ∨ i = .setup p gd d cnt rty e ∨ i = .ping p gd d 0 0 e ∨ i = .defer p gd d cnt rty e ∨ i = .poll p gd d 0 0 e)) ∧ Ready s (.loom p) i gd ∧ (s.shuttle p.toNat).seqs = [] ∧ (s.thread p.toNat).cx = none ∧ Inside (s.thread p.toNat) ((s.thread p.toNat).pc + 1)) := by
  refine ⟨?_, ?_, ?_, ?_⟩
  · (dsimp only [Ready, Inside, OnIdleShuttle, PolicyRuns, TickInv]; decide)
  · (dsimp only [Ready, Inside, OnIdleShuttle, PolicyRuns, TickInv]; decide)
  · (dsimp only [Ready, Inside, OnIdleShuttle, PolicyRuns, TickInv]; decide)
  · (dsimp only [Ready, Inside, OnIdleShuttle, PolicyRuns, TickInv]; decide)

/-- States and operands that meet the hypotheses of SegmentProbeWeave. -/
theorem witness_SegmentProbeWeave :
  (let s : State := { wRun (.loom 3) (.suspend 3 wGuard 5 0 0 0) { wThread with cx := some 101 } with ports := [(3, { st := .active, speed := .plant })] }
   let p : Port := 3
   let gd : Guard := wGuard
   let d : Reg := 5
   let e : Reg := 0
   let cx : CtxIdx := 101
   let here : Prop := (s.ctx cx.toNat).port.toNat = p.toNat ∧ s.offCharge p.toNat cx.toNat false = false ∧ (s.ctx cx.toNat).deferred = false ∧ (s.ctx cx.toNat).st = .active ∧ (s.ctx cx.toNat).depth = 0
   OnIdleShuttle s p (.suspend p gd d 0 0 e) gd cx ∧ here ∧ (s.port p.toNat).st = .active) ∧
  (let s : State := { wRun (.loom 3) (.suspend 3 wGuard 5 0 0 0) { wThread with cx := some 101 } with ports := [(3, { st := .suspended, speed := .plant })] }
   let p : Port := 3
   let gd : Guard := wGuard
   let d : Reg := 5
   let e : Reg := 0
   let cx : CtxIdx := 101
   let here : Prop := (s.ctx cx.toNat).port.toNat = p.toNat ∧ s.offCharge p.toNat cx.toNat false = false ∧ (s.ctx cx.toNat).deferred = false ∧ (s.ctx cx.toNat).st = .active ∧ (s.ctx cx.toNat).depth = 0
   OnIdleShuttle s p (.suspend p gd d 0 0 e) gd cx ∧ here ∧ (s.port p.toNat).st ≠ .active) ∧
  (let s : State := { wRun (.loom 3) (.resume 3 wGuard 5 0 0 0) { wThread with cx := some 101 } with ports := [(3, { st := .suspended, speed := .plant })] }
   let p : Port := 3
   let gd : Guard := wGuard
   let d : Reg := 5
   let e : Reg := 0
   let cx : CtxIdx := 101
   let here : Prop := (s.ctx cx.toNat).port.toNat = p.toNat ∧ s.offCharge p.toNat cx.toNat false = false ∧ (s.ctx cx.toNat).deferred = false ∧ (s.ctx cx.toNat).st = .active ∧ (s.ctx cx.toNat).depth = 0
   OnIdleShuttle s p (.resume p gd d 0 0 e) gd cx ∧ here ∧ (((s.port p.toNat).st = .suspending ∨ (s.port p.toNat).st = .suspended))) ∧
  (let s : State := wRun (.loom 3) (.probe 3 wGuard 5 0x3FF) { wThread with cx := some 101 }
   let p : Port := 3
   let gd : Guard := wGuard
   let d : Reg := 5
   let v : BitVec 14 := 0x3FF
   let x := s.thread p.toNat
   Ready s (.loom p) (.probe p gd d v) gd ∧ (s.shuttle p.toNat).seqs = [] ∧ s.noticeDue p.toNat = false ∧ s.domOn 10 = true ∧
     Inside x (x.pc + 1)) ∧
  (let s : State := wWeft
   let p : Port := 3
   let gd : Guard := wGuard
   let d : Reg := 5
   let v : BitVec 14 := 0x2EE0
   let y : State × WeftTx × Nat := (wWeft.weaveNext 3 0 (startAt wWeft 3 (startOf wWeft (.loom 3) (.weave 3 wGuard 5 0x2EE0))) 12000).getD (wWeft, { i := 0, q := 0, kind := .take, most := 0, e := wEntry }, 0)
   let x := s.thread p.toNat
   Ready s (.loom p) (.weave p gd d v) gd ∧ (s.shuttle p.toNat).seqs = [] ∧
     s.weaveNext p.toNat x.slice.toNat (startAt s p (startOf s (.loom p) (.weave p gd d v))) v.toNat = some y ∧
     s.resident y.2.1.i = true ∧ y.2.1.i < 2 ^ 23) ∧
  (let s : State := wRun (.loom 3) (.weave 3 wGuard 5 0x3FF) { wThread with cx := some 101 }
   let p : Port := 3
   let gd : Guard := wGuard
   let d : Reg := 5
   let v : BitVec 14 := 0x3FF
   let x := s.thread p.toNat
   ((∀ t0, s.weaveNext p.toNat x.slice.toNat t0 v.toNat = none)) ∧ Ready s (.loom p) (.weave p gd d v) gd ∧
     (s.shuttle p.toNat).seqs = [] ∧ Inside x (x.pc + 1)) ∧
  (let s : State := { wRun (.loom 3) (.weave 3 wGuard 5 0x3FF) { wThread with cx := some 101 } with shuttles := [(3, { seqs := [wSeq .ping .ping] })] }
   let p : Port := 3
   let gd : Guard := wGuard
   let d : Reg := 5
   let v : BitVec 14 := 0x3FF
   Ready s (.loom p) (.weave p gd d v) gd ∧ (s.shuttle p.toNat).seqs ≠ []) := by
  refine ⟨?_, ?_, ?_, ?_, ?_, ?_, ?_⟩
  · (dsimp only [Ready, Inside, OnIdleShuttle, PolicyRuns, TickInv]; decide)
  · (dsimp only [Ready, Inside, OnIdleShuttle, PolicyRuns, TickInv]; decide)
  · (dsimp only [Ready, Inside, OnIdleShuttle, PolicyRuns, TickInv]; decide)
  · (dsimp only [Ready, Inside, OnIdleShuttle, PolicyRuns, TickInv]; decide)
  · exact ⟨by dsimp only [Ready]; decide +kernel, by decide, rfl, by decide +kernel, by decide +kernel⟩
  · exact ⟨fun _ => rfl, by dsimp only [Ready, Inside]; decide⟩
  · (dsimp only [Ready, Inside, OnIdleShuttle, PolicyRuns, TickInv]; decide)

/-- States and operands that meet the hypotheses of WordsAndPacketIdentifiers. -/
theorem witness_WordsAndPacketIdentifiers :
  (let e : BitVec 3 := 5
   e ≠ 0) ∧
  (let sq : BitVec 4 := 15
   let last : Bool := true
   let bs : List Byte := [1,2,3]
   let lim : Nat := 1024
   let x : RxPkt := wRx (dataPacket 15 true [1,2,3])
   let m : Nat := 2
   bs.length ≤ lim ∧ lim ≤ 1024 ∧ x.bytes = dataPacket sq last bs ∧ x.fin = .ed ∧ m < bs.length) ∧
  (let sq : BitVec 4 := 0
   let last : Bool := false
   let bs : List Byte := []
   let lim : Nat := 0
   let x : RxPkt := { wRx (dataPacket 0 false []) with fin := .ad }
   bs.length ≤ lim ∧ lim ≤ 1024 ∧ x.bytes = dataPacket sq last bs ∧ x.fin ≠ .ed) ∧
  (let next : BitVec 4 := 9
   let x : RxPkt := wRx (ackPacket 9)
   x.bytes = ackPacket next ∧ x.fin = .ed) := by
  refine ⟨?_, ?_, ?_, ?_⟩
  · decide
  · (dsimp only [Ready, Inside, OnIdleShuttle, PolicyRuns, TickInv]; decide +kernel)
  · (dsimp only [Ready, Inside, OnIdleShuttle, PolicyRuns, TickInv]; decide +kernel)
  · (dsimp only [Ready, Inside, OnIdleShuttle, PolicyRuns, TickInv]; decide +kernel)

/-- States and operands that meet the hypotheses of RequestsWaitForAdmission. -/
theorem witness_RequestsWaitForAdmission :
  (let s : State := wAdmin 3 (wCmd 0x20 0 0x7880002000000000)
   let sl : Slice := 3
   let e : Entry := wCmd 0x20 0 0x7880002000000000
   let ws : List W32 := [1, 2]
   AdminRuns s sl 0x20 e ∧ fld e.q1 63 59 ≤ 15 ∧ fld e.q1 55 52 ≤ 8 ∧ e.q2.toNat % 4 = 0 ∧ ws.length = fld e.q1 51 36) ∧
  (let s : State := wAdmin 3 (wCmd 0x20 0 0x8080002000000000)
   let sl : Slice := 3
   let e : Entry := wCmd 0x20 0 0x8080002000000000
   AdminRuns s sl 0x20 e ∧ ((15 < fld e.q1 63 59 ∨ 8 < fld e.q1 55 52 ∨ e.q2.toNat % 4 ≠ 0))) ∧
  (let s : State := wAdmin 3 (wCmd 0x24 33 0x0100000000000000)
   let sl : Slice := 3
   let e : Entry := wCmd 0x24 33 0x0100000000000000
   let i : Nat := 101
   AdminRuns s sl 0x24 e ∧ fld e.q1 63 56 ≠ 0 ∧ s.ctxOfHandle e.handle = some i ∧ (s.dev (e.handle / 16)).slice = sl) ∧
  (let s : State := { wAdmin 3 (wCmd 0x25 33) with
     sched := [(3, .of { regs := [{ slice := 3, handle := 33, interval := 1, cnt := 0, rty := 0 }] })] }
   let sl : Slice := 3
   let e : Entry := wCmd 0x25 33
   AdminRuns s sl 0x25 e ∧ (s.regPort sl.toNat e.handle).isSome = true) ∧
  (let s : State := wAdmin 3 (wCmd 0x25 33)
   let sl : Slice := 3
   let e : Entry := wCmd 0x25 33
   AdminRuns s sl 0x25 e ∧ s.regPort sl.toNat e.handle = none) ∧
  (let s : State := wAdmin 3 (wCmd 0x26 0 0x78002EE000000000)
   let sl : Slice := 3
   let e : Entry := wCmd 0x26 0 0x78002EE000000000
   AdminRuns s sl 0x26 e ∧ fld e.q1 63 59 ≤ 15 ∧ fld e.q1 45 32 ≤ 12000) ∧
  (let s : State := wAdmin 0 (wCmd 0x27 0 0x78002EE008000000)
   let e : Entry := wCmd 0x27 0 0x78002EE008000000
   let ws : List W32 := [0, 0, 0, 0, 0, 0, 0, 0]
   AdminRuns s 0 0x27 e ∧ fld e.q1 63 59 ≤ 15 ∧ fld e.q1 45 32 ≤ 12000 ∧ fld e.q1 31 24 ≠ 0 ∧ e.q2.toNat % 8 = 0 ∧ ws.length = 8 ∧
     segTableOk (tableOf ws) = true) ∧
  (let s : State := wAdmin 0 (wCmd 0x27 0 0x78002EE000000000)
   let e : Entry := wCmd 0x27 0 0x78002EE000000000
   AdminRuns s 0 0x27 e ∧ fld e.q1 31 24 = 0) ∧
  (let s : State := wAdmin 3 (wCmd 0x22 0)
   let sl : Slice := 3
   let e : Entry := wCmd 0x22 0
   AdminRuns s sl 0x22 e) ∧
  (let s : State := wAdmin 3 (wCmd 0x62 0)
   let sl : Slice := 3
   let e : Entry := wCmd 0x62 0
   AdminRuns s sl 0x62 e) := by
  refine ⟨?_, ?_, ?_, ?_, ?_, ?_, ?_, ?_, ?_, ?_⟩
  · (dsimp only [Ready, Inside, OnIdleShuttle, PolicyRuns, TickInv]; repeat (first | decide +kernel | (intro us h; cases h) | apply And.intro))
  · (dsimp only [Ready, Inside, OnIdleShuttle, PolicyRuns, TickInv]; repeat (first | decide +kernel | (intro us h; cases h) | apply And.intro))
  · (dsimp only [Ready, Inside, OnIdleShuttle, PolicyRuns, TickInv]; repeat (first | decide +kernel | (intro us h; cases h) | apply And.intro))
  · (dsimp only [Ready, Inside, OnIdleShuttle, PolicyRuns, TickInv]; repeat (first | decide +kernel | (intro us h; cases h) | apply And.intro))
  · (dsimp only [Ready, Inside, OnIdleShuttle, PolicyRuns, TickInv]; repeat (first | decide +kernel | (intro us h; cases h) | apply And.intro))
  · (dsimp only [Ready, Inside, OnIdleShuttle, PolicyRuns, TickInv]; repeat (first | decide +kernel | (intro us h; cases h) | apply And.intro))
  · (dsimp only [Ready, Inside, OnIdleShuttle, PolicyRuns, TickInv]; repeat (first | decide +kernel | (intro us h; cases h) | apply And.intro))
  · (dsimp only [Ready, Inside, OnIdleShuttle, PolicyRuns, TickInv]; repeat (first | decide +kernel | (intro us h; cases h) | apply And.intro))
  · (dsimp only [Ready, Inside, OnIdleShuttle, PolicyRuns, TickInv]; repeat (first | decide +kernel | (intro us h; cases h) | apply And.intro))
  · (dsimp only [Ready, Inside, OnIdleShuttle, PolicyRuns, TickInv]; repeat (first | decide +kernel | (intro us h; cases h) | apply And.intro))

/-- States and operands that meet the hypotheses of AdmissionAndWithdrawals. -/
theorem witness_AdmissionAndWithdrawals :
  (let s : State := { wAdmin 3 (wCmd 0x21 0 0x7900000000000000) with
     sched := [(15, .of { segs := some [(0, { weaver := true, slice := 0, stop := 6000 }), (1, { weaver := false, slice := 3, stop := 12000 })], progs := [(1, { slice := 3, code := [0x04000000], period := 3, speed := .plant, named := [], phases := [], loom := 0, finish := 0, wire := 0 })] })] }
   let sl : Slice := 3
   let e : Entry := wCmd 0x21 0 0x7900000000000000
   let g : Seg := { weaver := false, slice := 3, stop := 12000 }
   let q : Prog := { slice := 3, code := [0x04000000], period := 3, speed := .plant, named := [], phases := [], loom := 0, finish := 0, wire := 0 }
   let n : Nat := 255
   let pt := fld e.q1 63 59
   let k := fld e.q1 58 56
   AdminRuns s sl 0x21 e ∧ pt ≤ 15 ∧ (s.schedAt pt).changes = [] ∧ (s.segsOf pt).find k = some g ∧ g.slice = sl ∧ g.weaver = false ∧
     (s.schedAt pt).progs.find k = some q ∧ n < 256 ∧ (s.now + 2 + n) < 2 ^ 48 ∧ s.admitting = []) ∧
  (let s : State := { wAdmin 3 (wCmd 0x23 0 0xFFF0000000000000) with graphs := [(0xFFF, .of { live := true, slice := 3, period := 2 })] }
   let sl : Slice := 3
   let e : Entry := wCmd 0x23 0 0xFFF0000000000000
   AdminRuns s sl 0x23 e ∧ (s.graph (fld e.q1 63 52)).live = true ∧ (s.graph (fld e.q1 63 52)).slice = sl) ∧
  (let s : State := wAdmin 3 (wCmd 0x23 0 0xFFF0000000000000)
   let sl : Slice := 3
   let e : Entry := wCmd 0x23 0 0xFFF0000000000000
   AdminRuns s sl 0x23 e ∧ (s.graph (fld e.q1 63 52)).live = false) ∧
  (let s : State := { wAdmin 3 { wCmd 0x62 0 0xFFF8000000000000 with begun := true } with graphs := [(0xFFF, .of { live := true, slice := 3, period := 2 })], admission := .of [{ slice := 3, entry := { wCmd 0x62 0 0xFFF8000000000000 with begun := true }, words := [] }] }
   let r : AdmReq := { slice := 3, entry := { wCmd 0x62 0 0xFFF8000000000000 with begun := true }, words := [] }
   let rs : List AdmReq := []
   s.working = true ∧ s.domOn 11 = true ∧ s.admitting = r :: rs ∧ s.works r.slice.toNat = true ∧ r.entry.op = 0x62 ∧
     s.adminHolds r.slice.toNat r.entry = true ∧ (s.graph (fld r.entry.q1 63 52)).live = true ∧
     (s.graph (fld r.entry.q1 63 52)).slice = r.slice) ∧
  (let s : State := wWeaveHeld
   let sl : Slice := 0
   let e : Entry := wCmd 0 0
   let p : Port := 3
   let w : Woven := wWovenHeld
   let old : Prog := wWovenProg
   let g' : Prog := wWovenProg
   let k := fld e.q1 58 56
   s.working = true ∧ s.domOn 11 = true ∧ s.weaverSeg p.toNat sl.toNat (s.schedAt p.toNat).later = some k ∧
     s.weaveProg p.toNat sl.toNat k (s.schedAt p.toNat).later 0 = w ∧ w.prog = some g' ∧
     (s.schedAt p.toNat).later.progs.find k = some old ∧ old.code = g'.code ∧ old.slice = g'.slice ∧ old.speed = g'.speed ∧
     old.named = g'.named) ∧
  (let s : State := wWeave
   let sl : Slice := 0
   let e : Entry := wCmd 0 0
   let p : Port := 3
   let w : Woven := wWoven
   let g' : Prog := wWovenProg
   let k := fld e.q1 58 56
   s.working = true ∧ s.domOn 11 = true ∧ s.weaverSeg p.toNat sl.toNat (s.schedAt p.toNat).later = some k ∧
     s.weaveProg p.toNat sl.toNat k (s.schedAt p.toNat).later 0 = w ∧ w.prog = some g' ∧ (s.schedAt p.toNat).later.progs.find k = none ∧
     (s.schedAt p.toNat).regs = [] ∧ (s.schedAt p.toNat).changes = []) := by
  refine ⟨?_, ?_, ?_, ?_, ?_, ?_⟩
  · (dsimp only [Ready, Inside, OnIdleShuttle, PolicyRuns, TickInv]; repeat (first | decide +kernel | (intro us h; cases h) | apply And.intro))
  · (dsimp only [Ready, Inside, OnIdleShuttle, PolicyRuns, TickInv]; repeat (first | decide +kernel | (intro us h; cases h) | apply And.intro))
  · (dsimp only [Ready, Inside, OnIdleShuttle, PolicyRuns, TickInv]; repeat (first | decide +kernel | (intro us h; cases h) | apply And.intro))
  · decide
  · exact ⟨by decide +kernel, by decide +kernel, weave_held_seg, weave_held, weave_held_prog, weave_held_find, rfl, rfl, rfl, rfl⟩
  · exact ⟨by decide +kernel, by decide +kernel, weave_new_seg, weave_new, weave_new_prog, rfl, rfl, rfl⟩

/-- States and operands that meet the hypotheses of SwitchTickChangesTogether. -/
theorem witness_SwitchTickChangesTogether :
  (let s : State := { wBase with
     sched := [(3, .of { changes := [(100, .remove 0)], progs := [(0, { slice := 3, code := [0x04000000], period := 3, speed := .plant, named := [], phases := [], loom := 0, finish := 0, wire := 0 })] })] }
   let p : Port := 3
   let sw : BitVec 48 := 100
   let c : Change := Change.remove 0
   s.working = true ∧ (s.schedAt p.toNat).changes = [(sw, c)] ∧ sw.toNat ≤ s.now ∧ s.queues = [] ∧ ((∀ c ∈ s.gchange, s.now < c.1.toNat))) ∧
  (let s : State := { wBase with sched := [(3, .of { changes := [(101, .remove 0)] })] }
   let p : Port := 3
   s.working = true ∧ ((∀ c ∈ (s.schedAt p.toNat).changes, s.now < c.1.toNat))) ∧
  (let s : State := { wBase with
     gchanges := .of [(100, .stop 7)]
     graphs := [(7, .of { live := true, tasks := [9], flows := [2] })]
     flows := [(2, .of { live := true, vals := [(0, 4)] })]
     cores := [(1, .of { ready := [{ task := 9 }, { task := 8 }], timers := [{ task := 9, flag := 3, deadline := 200 }] })] }
   let sw : BitVec 48 := 100
   let g : Graph := 7
   s.working = true ∧ s.gchange = [(sw, .stop g)] ∧ sw.toNat ≤ s.now) ∧
  (let s : State := { wBase with
     gchanges := .of [(100, .withdraw 7)]
     tasks := [(9, .of { m := 2 }), (8, .of { m := 2 })]
     graphs := [(7, .of { live := true, tasks := [9], flows := [2] })]
     flows := [(2, .of { live := true, vals := [(0, 4)] })]
     cores := [(1, .of { ready := [{ task := 9 }, { task := 8 }], timers := [{ task := 9, flag := 3, deadline := 200 }] })] }
   let sw : BitVec 48 := 100
   let g : Graph := 7
   s.working = true ∧ s.gchange = [(sw, .withdraw g)] ∧ sw.toNat ≤ s.now) ∧
  (let s : State := { wBase with
     gchanges := .of [(100, .run 7)]
     tasks := [(9, .of { m := 2 })]
     graphs := [(7, .of { live := true, stopped := true, tasks := [9], flows := [2] })] }
   let sw : BitVec 48 := 100
   let g : Graph := 7
   s.working = true ∧ ((s.gchange = [(sw, .run g)] ∨ s.gchange = [(sw, .start g)])) ∧ sw.toNat ≤ s.now) := by
  refine ⟨?_, ?_, ?_, ?_, ?_⟩
  · decide
  · decide
  · decide
  · decide
  · decide

/-- States and operands that meet the hypotheses of WindowWritesAndRecordWriter. -/
theorem witness_WindowWritesAndRecordWriter :
  (let s : State := wBase
   let l : Link := 0
   let w : BitVec 4 := 0
   let ch : Chan := 63
   let q : QNum := 0
   let k : BitVec 3 := 7
   let v : W32 := 0xFFFFFFFF
   let sl : Slice := 0
   let c : Instr := Instr.adminCfgWrite 0 0 0xFFFFFFFF
   let off : Nat := 0x0108
   s.windowSlice l.toNat w.toNat = some sl.toNat ∧ (((c = .adminCfgWrite l w v ∧ off = 0x0108) ∨ (c = .eqConsWrite l w v ∧
     off = 0x0310) ∨ (c = .eqCfgWrite l w v ∧ off = 0x0308) ∨ (c = .eqCtlWrite l w v ∧ off = 0x0314) ∨ (c = .qprodWrite l w q v ∧
     off = 0x8000 + q.toNat * 8 ∧ (s.comQueue (qKey sl.toNat q.toNat)).own = false ∧
     (q = 0 ∨ (s.comQueue (qKey sl.toNat q.toNat)).live = true)) ∨ (s.chanOwner ch.toNat = sl.toNat ∧ ((v.getLsbD 3 = false ∧
     off = 0x4000 + ch.toNat * 0x80 + 8 ∧ ((c = .go l w ch v ∧ v.getLsbD 0 = true) ∨ (c = .goChain l w ch v ∧
     v.getLsbD 1 = true) ∨ (c = .stop l w ch v ∧ v.getLsbD 2 = true))) ∨ (c = .shadowWrite l w ch k v ∧
     off = 0x4000 + ch.toNat * 0x80 + (0x10 + 4 * k.toNat)) ∨ (c = .cqConsWrite l w ch v ∧ off = 0x4000 + ch.toNat * 0x80 + 0x58))))) ∧
     s.supply.st ≠ .powerDown ∧ (s.link l.toNat).buf.length < 256 ∧ (s.link l.toNat).withheld = [] ∧
     (s.comQueue (qKey sl.toNat q.toNat)).own = true ∧ s.domOn 8 = true ∧ (s.link (s.comSlice 0).link.toNat).up = true) ∧
  (let s : State := wBase
   let l : Link := 0
   let w : BitVec 4 := 0
   let ch : Chan := 63
   let v : W32 := 9
   let sl : Slice := 0
   let c : Instr := Instr.go 0 0 63 9
   s.windowSlice l.toNat w.toNat = some sl.toNat ∧ s.chanOwner ch.toNat = sl.toNat ∧ v.getLsbD 3 = true ∧ (((c = .go l w ch v ∧
     v.getLsbD 0 = true) ∨ (c = .goChain l w ch v ∧ v.getLsbD 1 = true) ∨ (c = .stop l w ch v ∧ v.getLsbD 2 = true)))) ∧
  (let s : State := { wBase with queues := [(0, .of { live := true, entries := [{ wEntry with begun := true }, wEntry] })] }
   let l : Link := 0
   let w : BitVec 4 := 0
   let v : W32 := 0xC0000010
   let sl : Slice := 0
   s.windowSlice l.toNat w.toNat = some sl.toNat ∧ v.getLsbD 31 = true ∧ (s.queue (qKey sl.toNat 0)).run = false ∧ 3 ≤ v.toNat % 32 ∧
     v.toNat % 32 ≤ 16) ∧
  (let s : State := { wBase with queues := [(7, .of { live := true, own := false })] }
   let l : Link := 0
   let w : BitVec 4 := 0
   let q : QNum := 7
   let sl : Slice := 0
   s.windowSlice l.toNat w.toNat = some sl.toNat ∧ (s.queue (qKey sl.toNat q.toNat)).own = false) ∧
  (let s : State := { wBase with
     chans := [(63, .of { role := .copy, st := .idle, shadow := { w0 := 1, w1 := 2, w2 := 3, w3 := 0xFFFF, addr := 5 } })] }
   let l : Link := 0
   let w : BitVec 4 := 0
   let ch : Chan := 63
   let sl : Slice := 0
   s.windowSlice l.toNat w.toNat = some sl.toNat ∧ s.chanOwner ch.toNat = sl.toNat ∧ (s.chan ch.toNat).role = .copy ∧
     (s.chan ch.toNat).st = .idle ∧ (s.chan ch.toNat).starts = false ∧ (s.chan ch.toNat).chain = none) ∧
  (let s : State := { wBase with slices := [(0, .of sliceS0), (3, .of { st := .running, res := { chan := 1 } })] }
   let l : Link := 0
   let w : BitVec 4 := 0
   let ch : Chan := 0
   let sl : Slice := 0
   s.windowSlice l.toNat w.toNat = some sl.toNat ∧ s.chanOwner ch.toNat ≠ sl.toNat) ∧
  (let s : State := { wBase with
     eqs := [(0, { armed := false })]
     queues := [(7, .of { cons := 1 })]
     owedCpl := [{ slice := 0, queue := 7, pos := 0, units := 1, addr := 0x1000, c0 := 1, c1 := 2, c2 := 3, c3 := 4, evt := false }] }
   let r : Cpl := { slice := 0, queue := 7, pos := 0, units := 1, addr := 0x1000, c0 := 1, c1 := 2, c2 := 3, c3 := 4, evt := false }
   s.domOn 8 = true ∧ (s.link (s.comSlice 0).link.toNat).up = true ∧ ((∀ k ∈ s.slices.map (·.1), (s.eq k).armed = false)) ∧
     s.owedEv = [] ∧ s.owedRec = [] ∧ s.owedWords = [] ∧ s.owedPay = [] ∧ s.owedCpl = [r] ∧ s.mayIssue r.slice.toNat = true) ∧
  (let s : State := { wBase with
     links := [(0, { up := false })]
     slices := [(0, .of sliceS0), (3, .of { st := .running, bound := true, link := 1 })]
     owedCpl := [{ slice := 0, queue := 7, pos := 0, units := 1, addr := 0x1000, c0 := 1, c1 := 2, c2 := 3, c3 := 4, evt := false }]
     owedPay := [{ slice := 3, queue := 7, pos := 0, chan := 0, port := 3, runs := [(0x2000, [1])] }] }
   s.domOn 8 = true ∧ (s.link (s.comSlice 0).link.toNat).up = false) ∧
  (let s : State := { wBase with doms := wBase.doms.filter (fun x => x.1 != 8) }
   s.domOn 8 = false) := by
  refine ⟨?_, ?_, ?_, ?_, ?_, ?_, ?_, ?_, ?_⟩
  · decide
  · decide
  · decide
  · decide
  · decide
  · decide
  · decide
  · decide
  · decide

/-- States and operands that meet the hypotheses of QueueCommands. -/
theorem witness_QueueCommands :
  (let s : State := { wAdmin 0 (wCmd 0x10 0 0xfffd4fff87fffff8 0x7000) with chans := [(63, .of { role := .queue })] }
   let sl : Slice := 0
   let e : Entry := wCmd 0x10 0 0xfffd4fff87fffff8 0x7000
   let q := fld e.q1 63 52
   let k := qKey sl.toNat q
   let x := s.queue k
   AdminRuns s sl 0x10 e ∧ q ≠ 0 ∧ fld e.q1 51 48 + 3 ≤ 16 ∧ fld e.q1 46 44 ≤ 4 ∧ e.q1.getLsbD 47 = false ∧ fld e.q1 42 35 ≠ 0 ∧
     fld e.q1 18 11 ≠ 0 ∧ fld e.q1 31 27 ≤ 16 ∧ e.q2.toNat % 4096 = 0 ∧ x.live = false ∧
     (s.queuesOf sl.toNat).length + 1 < s.queueAllowance sl.toNat ∧ s.chanOwner (fld e.q1 26 21) = sl.toNat ∧
     s.portHeld sl.toNat (fld e.q1 31 27) = true ∧ (s.chan (fld e.q1 26 21)).role = .queue) ∧
  (let s : State := wAdmin 3 (wCmd 0x10 0 0x818980800 0x0)
   let sl : Slice := 3
   let e : Entry := wCmd 0x10 0 0x818980800 0x0
   let q := fld e.q1 63 52
   AdminRuns s sl 0x10 e ∧ q = 0) ∧
  (let s : State := wAdmin 3 (wCmd 0x10 0 0x70000018980800 0x0)
   let sl : Slice := 3
   let e : Entry := wCmd 0x10 0 0x70000018980800 0x0
   let q := fld e.q1 63 52
   AdminRuns s sl 0x10 e ∧ q ≠ 0 ∧ fld e.q1 42 35 = 0) ∧
  (let s : State := { wAdmin 3 (wCmd 0x13 0 0x7007ff188ff818 0x0) with
     queues := [(qKey 3 0, .of { live := true, entries := [wCmd 0x13 0 0x7007ff188ff818 0x0] }), (qKey 3 7, .of { live := true, own := false })] }
   let sl : Slice := 3
   let e : Entry := wCmd 0x13 0 0x7007ff188ff818 0x0
   let q := fld e.q1 63 52
   let k := qKey sl.toNat q
   let x := s.queue k
   AdminRuns s sl 0x13 e ∧ q ≠ 0 ∧ x.live = true ∧ fld e.q1 42 35 ≠ 0 ∧ fld e.q1 18 11 ≠ 0) ∧
  (let s : State := { wAdmin 3 (wCmd 0x12 0 0x70040000000000 0x0) with
     queues := [(qKey 3 0, .of { live := true, entries := [wCmd 0x12 0 0x70040000000000 0x0] }), (qKey 3 7, .of { live := true, own := false })] }
   let sl : Slice := 3
   let e : Entry := wCmd 0x12 0 0x70040000000000 0x0
   let q := fld e.q1 63 52
   let k := qKey sl.toNat q
   let x := s.queue k
   AdminRuns s sl 0x12 e ∧ q ≠ 0 ∧ x.live = true ∧ x.wait = none ∧ x.own = e.q1.getLsbD 43) ∧
  (let s : State := { wAdmin 3 (wCmd 0x12 0 0x70080000000000 0x0) with
     queues := [(qKey 3 0, .of { live := true, entries := [wCmd 0x12 0 0x70080000000000 0x0] }), (qKey 3 7, .of { live := true, own := false, run := true })] }
   let sl : Slice := 3
   let e : Entry := wCmd 0x12 0 0x70080000000000 0x0
   let q := fld e.q1 63 52
   let k := qKey sl.toNat q
   let x := s.queue k
   AdminRuns s sl 0x12 e ∧ q ≠ 0 ∧ x.live = true ∧ x.wait = none ∧ x.own ≠ e.q1.getLsbD 43) ∧
  (let s : State := { wAdmin 3 (wCmd 0x12 0 0x70000818980800 0x0) with
     queues := [(qKey 3 0, .of { live := true, entries := [wCmd 0x12 0 0x70000818980800 0x0] }), (qKey 3 7, .of {})] }
   let sl : Slice := 3
   let e : Entry := wCmd 0x12 0 0x70000818980800 0x0
   let c : Instr := Instr.queueMode 3
   let op : Nat := 0x12
   let q := fld e.q1 63 52
   let k := qKey sl.toNat q
   let x := s.queue k
   AdminRuns s sl op e ∧ (((c = .queueMode sl ∧ op = 0x12) ∨ (c = .queueSet sl ∧ op = 0x13) ∨ (c = .destroyQueue sl ∧ op = 0x11))) ∧
     x.live = false) ∧
  (let s : State := { wAdmin 3 (wCmd 0x11 0 0x70000818980800 0x0) with
     queues := [(qKey 3 0, .of { live := true, entries := [wCmd 0x11 0 0x70000818980800 0x0] }), (qKey 3 7, .of { live := true, run := true })] }
   let sl : Slice := 3
   let e : Entry := wCmd 0x11 0 0x70000818980800 0x0
   let q := fld e.q1 63 52
   let k := qKey sl.toNat q
   let x := s.queue k
   AdminRuns s sl 0x11 e ∧ q ≠ 0 ∧ x.live = true) ∧
  (let s : State := { wAdmin 3 (wCmd 0x12 0) with
     queues := [(qKey 3 0, .of { live := true, entries := [{ wCmd 0x12 0 0x0070040000000000 with begun := true }] }), (qKey 3 7, .of { live := true, wait := some { own := false, run := true, entry := wCmd 0x12 0 0x0070040000000000 }, fetch := 5 })] }
   let sl : Slice := 3
   let qn : QNum := 7
   let w : ModeWait := { own := false, run := true, entry := wCmd 0x12 0 0x0070040000000000 }
   qn ≠ 0 ∧ (s.queue (qKey sl.toNat qn.toNat)).wait = some w ∧ (s.queue (qKey sl.toNat qn.toNat)).entries = [] ∧ w.own = false ∧
     s.adminHolds sl.toNat w.entry = true ∧ s.working = true ∧ s.works sl.toNat = true) ∧
  (let s : State := { wAdmin 3 (wCmd 0x12 0) with
     queues := [(qKey 3 7, .of { live := true, wait := some { own := false, run := true, entry := wCmd 0x12 0 0x0070040000000000 }, entries := [wEntry] })] }
   let sl : Slice := 3
   let qn : QNum := 7
   let w : ModeWait := { own := false, run := true, entry := wCmd 0x12 0 0x0070040000000000 }
   (s.queue (qKey sl.toNat qn.toNat)).wait = some w ∧ (s.queue (qKey sl.toNat qn.toNat)).entries ≠ []) := by
  refine ⟨?_, ?_, ?_, ?_, ?_, ?_, ?_, ?_, ?_, ?_⟩
  · (dsimp only [Ready, Inside, OnIdleShuttle, PolicyRuns, TickInv]; repeat (first | decide +kernel | (intro us h; cases h) | apply And.intro))
  · (dsimp only [Ready, Inside, OnIdleShuttle, PolicyRuns, TickInv]; repeat (first | decide +kernel | (intro us h; cases h) | apply And.intro))
  · (dsimp only [Ready, Inside, OnIdleShuttle, PolicyRuns, TickInv]; repeat (first | decide +kernel | (intro us h; cases h) | apply And.intro))
  · (dsimp only [Ready, Inside, OnIdleShuttle, PolicyRuns, TickInv]; repeat (first | decide +kernel | (intro us h; cases h) | apply And.intro))
  · (dsimp only [Ready, Inside, OnIdleShuttle, PolicyRuns, TickInv]; repeat (first | decide +kernel | (intro us h; cases h) | apply And.intro))
  · (dsimp only [Ready, Inside, OnIdleShuttle, PolicyRuns, TickInv]; repeat (first | decide +kernel | (intro us h; cases h) | apply And.intro))
  · (dsimp only [Ready, Inside, OnIdleShuttle, PolicyRuns, TickInv]; repeat (first | decide +kernel | (intro us h; cases h) | apply And.intro))
  · (dsimp only [Ready, Inside, OnIdleShuttle, PolicyRuns, TickInv]; repeat (first | decide +kernel | (intro us h; cases h) | apply And.intro))
  · decide
  · decide

/-- States and operands that meet the hypotheses of EntriesAreFetched. -/
theorem witness_EntriesAreFetched :
  (let s : State := { wAdmin 0 (wCmd 0x12 0) with queues := [(7, .of { live := true, own := false, run := true, prod := 3 })] }
   let sl : Slice := 0
   let q : QNum := 7
   let k := qKey sl.toNat q.toNat
   let x := s.queue k
   let n := x.dist x.fetch (s.comQueue k).prod
   s.fetches sl.toNat = true ∧ s.pollDue x = true ∧ x.own = false ∧ s.fetchedIn k < 16 ∧ 0 < n ∧ n ≤ x.size - x.dist x.cons x.fetch ∧
     n ≤ x.size - x.slot x.fetch) ∧
  (let s : State := { wAdmin 0 (wCmd 0x12 0) with queues := [(7, .of { live := true, own := false, prod := 3 })] }
   let sl : Slice := 0
   let q : QNum := 7
   let k := qKey sl.toNat q.toNat
   let x := s.queue k
   s.pollDue x = false) ∧
  (let s : State := { wAdmin 0 (wCmd 0x12 0) with
     queues := [(7, .of { live := true, own := false, run := true, prod := 3, polled := some 100, port := 3, errLimit := 1 })] }
   let sl : Slice := 0
   let q : QNum := 7
   let w0 : W64 := 0x0001000500000021
   let w1 : W64 := 0x0000004000000000
   let w2 : W64 := 0x2000
   let w3 : W64 := 0
   let k := qKey sl.toNat q.toNat
   let x := s.queue k
   let units := w0.toNat / 2 ^ 59 % 16 + 1
   s.fetches sl.toNat = true ∧ s.mayTake k units = true ∧ x.legacy = false ∧ x.own = false ∧ q ≠ 0 ∧
     s.formatReason sl.toNat q.toNat x units [w0, w1, w2, w3] = 0 ∧ fld w1 31 24 = 0 ∧
     ((fld w0 55 48 = 0 ∨ s.handleStatus sl.toNat x (fld w0 22 0) = 0))) ∧
  (let s : State := { wAdmin 0 (wCmd 0x12 0) with
     queues := [(7, .of { live := true, own := false, run := true, prod := 3, polled := some 100, port := 3, errLimit := 1 })] }
   let sl : Slice := 0
   let q : QNum := 7
   let w0 : W64 := 0x1002000500000021
   let k := qKey sl.toNat q.toNat
   let x := s.queue k
   let units := w0.toNat / 2 ^ 59 % 16 + 1
   s.fetches sl.toNat = true ∧ s.mayTake k units = true ∧ x.legacy = false ∧ q ≠ 0 ∧ 1 < fld w0 55 48) ∧
  (let s : State := { wAdmin 0 (wCmd 0x12 0) with
     queues := [(7, .of { live := true, own := false, entries := [{ wEntry with q0 := 0x0000000500000000 }] })] }
   let sl : Slice := 0
   let q : QNum := 7
   let pos : BitVec 17 := 0
   let e : Entry := { wEntry with q0 := 0x0000000500000000 }
   let k := qKey sl.toNat q.toNat
   let x := s.queue k
   x.entryAt pos = some e ∧ q ≠ 0 ∧ e.op = 0 ∧ x.isOld e = false ∧ s.working = true ∧ s.works sl.toNat = true) ∧
  (let s : State := { wAdmin 0 (wCmd 0x12 0) with queues := [(7, .of { live := true, own := false, entries := [wEntry] })] }
   let sl : Slice := 0
   let q : QNum := 7
   let pos : BitVec 17 := 0
   let e : Entry := wEntry
   let k := qKey sl.toNat q.toNat
   let x := s.queue k
   x.entryAt pos = some e ∧ q ≠ 0 ∧ e.op = 1 ∧ e.begun = false ∧ e.tick.toNat < s.now ∧ x.legacy = false ∧ s.working = true ∧
     s.works sl.toNat = true) := by
  refine ⟨?_, ?_, ?_, ?_, ?_, ?_⟩
  · decide
  · decide
  · decide
  · decide
  · decide
  · decide

/-- States and operands that meet the hypotheses of ChannelEvents. -/
theorem witness_ChannelEvents :
  (let s : State := { wBase with
     chans := [(9, .of { role := .copy, active := some { w0 := 1 }, armed := true, owed := [] })]
     chanX := [(9, { reqs := [{ n := 4 }] })]
     owedRec := [(9, { tag := 0, status := .done, last := true, bytes := 0, tick := 0, desc := 0, evt := false }), (8, { tag := 0, status := .done, last := true, bytes := 0, tick := 0, desc := 0, evt := false })]
     owedPay := [{ slice := 0, queue := 7, pos := 0, chan := 9, port := 3, runs := [] }]
     owedCpl := [{ slice := 0, queue := 7, pos := 0, units := 1, addr := 0, c0 := 1, c1 := 2, c2 := 3, c3 := 4, evt := true }] }
   let l : Link := 0
   let w : BitVec 4 := 0
   let c : Chan := 9
   let v : W32 := 8
   let sl : Slice := 0
   let cyc : Cycle := 0
   let x := s.chan c.toNat
   let y := s.chanXAt c.toNat
   let own := s.chanOwner c.toNat
   let clk := s.clockAt cyc
   v.getLsbD 3 = true ∧ s.windowSlice l.toNat w.toNat = some sl.toNat ∧ own = sl.toNat ∧
     ((clk < y.nextRead ∨ 16 ≤ y.reqs.length ∨ s.payFirst c.toNat = true)) ∧ ((clk < y.nextWrite ∨ s.payFirst c.toNat = true)) ∧
     x.leaving = none) ∧
  (let s : State := { wBase with
     chans := [(63, .of { role := .copy, share := 3, st := .running, active := some { w0 := 0x1F0, w1 := 0x8000, w2 := 0x0000010000070000 }, read := [0x10], wrote := [0] })] }
   let c : Chan := 63
   let cyc : Cycle := 40
   let d : Desc := { w0 := 0x1F0, w1 := 0x8000, w2 := 0x0000010000070000 }
   let n : Nat := 0x10
   let x := s.chan c.toNat
   let y := s.chanXAt c.toNat
   let clk := s.clockAt cyc
   let plain : Prop := x.role = .copy ∧ x.active = some d ∧ shufMode d.shuf = 0 ∧ x.job = none
   let may : Prop := s.burstTime cyc.toNat = true ∧ s.chanWorks c.toNat = true ∧ s.payFirst c.toNat = false
   let k := burstLen (d.w0 + BitVec.ofNat 64 n) (d.length - n)
   may ∧ y.nextRead ≤ clk ∧ y.reqs.length < 16 ∧ plain ∧ x.st = .running ∧ ((y.fetching = true ∨ x.fetchAt = none)) ∧ x.failed = false ∧
     x.read = [n] ∧ n < d.length ∧ s.bufUsed c.toNat + k ≤ 16384 ∧ y.reqs = []) ∧
  (let s : State := { wBase with
     chans := [(63, .of { role := .copy, share := 3, st := .running, active := some { w0 := 0x1F0, w1 := 0x8000, w2 := 0x0000010000070000 }, read := [0x100], wrote := [0x10], buf := (List.range 0xF0).map (fun k => (k + 0x10, BitVec.ofNat 8 k)) })] }
   let c : Chan := 63
   let cyc : Cycle := 40
   let d : Desc := { w0 := 0x1F0, w1 := 0x8000, w2 := 0x0000010000070000 }
   let n : Nat := 0x10
   let x := s.chan c.toNat
   let y := s.chanXAt c.toNat
   let clk := s.clockAt cyc
   let plain : Prop := x.role = .copy ∧ x.active = some d ∧ shufMode d.shuf = 0 ∧ x.job = none
   let may : Prop := s.burstTime cyc.toNat = true ∧ s.chanWorks c.toNat = true ∧ s.payFirst c.toNat = false
   let k := burstLen (d.w1 + BitVec.ofNat 64 n) (d.length - n)
   may ∧ y.nextWrite ≤ clk ∧ plain ∧ x.st = .running ∧ x.failed = false ∧ x.wrote = [n] ∧ n < d.length ∧ (x.ready d n k).length = k) ∧
  (let s : State := { wBase with chans := [(63, .of { role := .copy, share := 3, st := .idle, chain := some 0x100 })] }
   let c : Chan := 63
   let cyc : Cycle := 40
   let a : W64 := 0x100
   let x := s.chan c.toNat
   let y := s.chanXAt c.toNat
   let clk := s.clockAt cyc
   let may : Prop := s.burstTime cyc.toNat = true ∧ s.chanWorks c.toNat = true ∧ s.payFirst c.toNat = false
   may ∧ y.nextRead ≤ clk ∧ y.reqs.length < 16 ∧ x.role = .copy ∧ y.fetching = false ∧ x.fetchAt = some a) ∧
  (let s : State := { wAdmin 0 (wCmd 0x12 0) with
     chans := [(63, .of { role := .queue, st := .idle, share := 3 })]
     queues := [(7, .of { live := true, own := false, run := true, chan := 63, entries := [{ wEntry with st := .waiting, staged := false, begun := true, toRead := 64 }] })] }
   let c : Chan := 63
   let cyc : Cycle := 40
   let n : Nat := 7
   let e : Entry := { wEntry with st := .waiting, staged := false, begun := true, toRead := 64 }
   let x := s.chan c.toNat
   let y := s.chanXAt c.toNat
   let clk := s.clockAt cyc
   let may : Prop := s.burstTime cyc.toNat = true ∧ s.chanWorks c.toNat = true ∧ s.payFirst c.toNat = false
   may ∧ y.nextRead ≤ clk ∧ y.reqs.length < 16 ∧ x.role = .queue ∧ ((x.st = .idle ∨ x.st = .running)) ∧ s.nextRead c.toNat = some (n, e)) ∧
  (let s : State := { wBase with
     chans := [(63, .of { role := .copy, share := 3, st := .running, active := some { w0 := 0x1F0, w1 := 0x8000, w2 := 0x0000010000070000 }, read := [0x20], wrote := [2] })]
     chanX := [(63, { reqs := [{ lane := 0, off := 0, n := 16 }, { off := 16, n := 16 }] })] }
   let c : Chan := 63
   let d : Desc := { w0 := 0x1F0, w1 := 0x8000, w2 := 0x0000010000070000 }
   let r : ReadReq := { lane := 0, off := 0, n := 16 }
   let rest : List ReadReq := [{ off := 16, n := 16 }]
   let n : Nat := 2
   let x := s.chan c.toNat
   let y := s.chanXAt c.toNat
   let plain : Prop := x.role = .copy ∧ x.active = some d ∧ shufMode d.shuf = 0 ∧ x.job = none
   y.reqs = r :: rest ∧ r.fetch = none ∧ r.stale = false ∧ plain ∧ x.wrote = [n] ∧ r.off + r.n ≤ d.length ∧ r.n ≤ 4096) ∧
  (let s : State := { wBase with
     chans := [(63, .of { role := .copy, share := 3, st := .running, active := some { w0 := 0x1F0, w1 := 0x8000, w2 := 0x0000010000070000 }, read := [0x20], wrote := [2] })]
     chanX := [(63, { reqs := [{ stale := true, n := 4 }] })] }
   let c : Chan := 63
   let data : List Byte := [1,2,3,4]
   let r : ReadReq := { stale := true, n := 4 }
   let rest : List ReadReq := []
   let x := s.chan c.toNat
   let y := s.chanXAt c.toNat
   y.reqs = r :: rest ∧ r.fetch = none ∧ r.stale = true ∧ x.role = .copy ∧ r.n ≤ data.length) ∧
  (let s : State := { wBase with
     chans := [(63, .of { role := .copy, share := 3, st := .running, active := some { w0 := 0x1F0, w1 := 0x8000, w2 := 0x0000010000070000 }, failed := true, done := 0x20 })] }
   let c : Chan := 63
   let d : Desc := { w0 := 0x1F0, w1 := 0x8000, w2 := 0x0000010000070000 }
   let x := s.chan c.toNat
   let plain : Prop := x.role = .copy ∧ x.active = some d ∧ shufMode d.shuf = 0 ∧ x.job = none
   plain ∧ x.st = .running ∧ x.failed = true ∧ x.done.toNat ≠ d.length ∧ x.writePlane d = none) ∧
  (let s : State := { wBase with
     chans := [(63, .of { role := .copy, share := 3, st := .running, active := some { w0 := 0x1F0, w1 := 0x8000, w2 := 0x0000010000070000 } })]
     chanX := [(63, { reqs := [{ fetch := some 0x100, n := 32 }] })] }
   let c : Chan := 63
   let a : W64 := 0x100
   let d : Desc := { w0 := 0x1F0, w1 := 0x8000, w2 := 0x0000010000070000 }
   let r : ReadReq := { fetch := some 0x100, n := 32 }
   let rest : List ReadReq := []
   let x := s.chan c.toNat
   let y := s.chanXAt c.toNat
   y.reqs = r :: rest ∧ r.fetch = some a ∧ r.stale = false ∧ r.n ≤ 32 ∧ x.active = some d) ∧
  (let s : State := { wBase with
     chans := [(63, .of { role := .copy, share := 3, st := .running, active := some { w0 := 0x1F0, w1 := 0x8000, w2 := 0x0000010000070080 }, done := 0x100 })] }
   let c : Chan := 63
   let d : Desc := { w0 := 0x1F0, w1 := 0x8000, w2 := 0x0000010000070080 }
   let x := s.chan c.toNat
   let plain : Prop := x.role = .copy ∧ x.active = some d ∧ shufMode d.shuf = 0 ∧ x.job = none
   plain ∧ x.st = .running ∧ x.done.toNat = d.length ∧ d.next = 0 ∧ x.armed = false ∧ x.chainFail = false) ∧
  (let s : State := { wBase with
     slices := [(0, .of sliceS0), (4, .of { st := .running, res := { chan := 0x8000000000000001 } })]
     chans := [(63, .of { role := .copy, st := .stopped, leaving := some 4 })] }
   let c : Chan := 63
   let sl : Slice := 4
   let x := s.chan c.toNat
   s.working = true ∧ s.chanLeaves c.toNat = true ∧ x.leaving = some sl) := by
  refine ⟨?_, ?_, ?_, ?_, ?_, ?_, ?_, ?_, ?_, ?_, ?_⟩
  · decide
  · decide
  · (dsimp only [Ready, Inside, OnIdleShuttle, PolicyRuns, TickInv]; decide +kernel)
  · decide
  · decide
  · decide
  · decide
  · decide
  · decide
  · decide
  · decide

/-- States and operands that meet the hypotheses of SetChannelCommand. -/
theorem witness_SetChannelCommand :
  (let s : State := wAdmin 3 (wCmd 0x50 0 0xfe81800000000000 0x3000)
   let sl : Slice := 3
   let e : Entry := wCmd 0x50 0 0xfe81800000000000 0x3000
   let c := fld e.q1 63 58
   AdminRuns s sl 0x50 e ∧ s.chanOwner c ≠ sl.toNat) ∧
  (let s : State := wAdmin 0 (wCmd 0x50 0 0xfe01800000000000 0x3000)
   let sl : Slice := 0
   let e : Entry := wCmd 0x50 0 0xfe01800000000000 0x3000
   let c := fld e.q1 63 58
   let role := roleOf (fld e.q1 57 56)
   let bad := channelBad role (fld e.q1 55 49) (fld e.q1 48 45) (BitVec.ofNat 8 (fld e.q1 44 37)) e.q2
   AdminRuns s sl 0x50 e ∧ s.chanOwner c = sl.toNat ∧ bad = true) ∧
  (let s : State := { wAdmin 0 (wCmd 0x50 0 0xfe81800000000000 0x3000) with chans := [(63, .of { role := .xport, st := .running })] }
   let sl : Slice := 0
   let e : Entry := wCmd 0x50 0 0xfe81800000000000 0x3000
   let c := fld e.q1 63 58
   let role := roleOf (fld e.q1 57 56)
   let bad := channelBad role (fld e.q1 55 49) (fld e.q1 48 45) (BitVec.ofNat 8 (fld e.q1 44 37)) e.q2
   let x := s.chan c
   let same := x.role = role ∧ x.cqBase = e.q2 ∧ x.cqLog2 = fld e.q1 48 45
   AdminRuns s sl 0x50 e ∧ s.chanOwner c = sl.toNat ∧ bad = false ∧ ¬same ∧ x.st ≠ .idle ∧ x.st ≠ .stopped) ∧
  (let s : State := { wAdmin 0 (wCmd 0x50 0 0xfe81800000000000 0x3000) with
     chans := [(63, .of { role := .xport, st := .running, job := some (.save 3) })] }
   let sl : Slice := 0
   let e : Entry := wCmd 0x50 0 0xfe81800000000000 0x3000
   let c := fld e.q1 63 58
   let role := roleOf (fld e.q1 57 56)
   let bad := channelBad role (fld e.q1 55 49) (fld e.q1 48 45) (BitVec.ofNat 8 (fld e.q1 44 37)) e.q2
   AdminRuns s sl 0x50 e ∧ s.chanOwner c = sl.toNat ∧ bad = false ∧ s.exporting c = true) ∧
  (let s : State := wAdmin 0 (wCmd 0x50 0 0xfe81800000000000 0x3000)
   let sl : Slice := 0
   let e : Entry := wCmd 0x50 0 0xfe81800000000000 0x3000
   let c := fld e.q1 63 58
   let role := roleOf (fld e.q1 57 56)
   let bad := channelBad role (fld e.q1 55 49) (fld e.q1 48 45) (BitVec.ofNat 8 (fld e.q1 44 37)) e.q2
   let x := s.chan c
   AdminRuns s sl 0x50 e ∧ s.chanOwner c = sl.toNat ∧ bad = false ∧ ((x.st = .idle ∨ x.st = .stopped)) ∧ x.role ≠ .queue ∧
     s.exporting c = false ∧ s.shareOnLink (s.slice sl.toNat).link.toNat c + fld e.q1 55 49 ≤ 64) := by
  refine ⟨?_, ?_, ?_, ?_, ?_⟩
  · (dsimp only [Ready, Inside, OnIdleShuttle, PolicyRuns, TickInv]; repeat (first | decide +kernel | (intro us h; cases h) | apply And.intro))
  · (dsimp only [Ready, Inside, OnIdleShuttle, PolicyRuns, TickInv]; repeat (first | decide +kernel | (intro us h; cases h) | apply And.intro))
  · (dsimp only [Ready, Inside, OnIdleShuttle, PolicyRuns, TickInv]; repeat (first | decide +kernel | (intro us h; cases h) | apply And.intro))
  · (dsimp only [Ready, Inside, OnIdleShuttle, PolicyRuns, TickInv]; repeat (first | decide +kernel | (intro us h; cases h) | apply And.intro))
  · (dsimp only [Ready, Inside, OnIdleShuttle, PolicyRuns, TickInv]; repeat (first | decide +kernel | (intro us h; cases h) | apply And.intro))

/-- States and operands that meet the hypotheses of BuiltInPolicies. -/
theorem witness_BuiltInPolicies :
  (let s : State := { wPort 3 { st := .active, declared := .field } with cores := [(1, .of { run := some 0 })], snapshot := [(0x169, 100)] }
   let c : Nat := 1
   let p : Port := 3
   PolicyRuns s 0 p.toNat c ∧ s.policyOn p.toNat 0 = true ∧ s.isolates p.toNat = true ∧ (s.port p.toNat).st ≠ .disabled ∧
     (s.port p.toNat).st ≠ .contained ∧ s.decisions = [] ∧ s.policyRuns 1 = none ∧ s.policyRuns 2 = none ∧ s.policyRuns 3 = none ∧
     s.policyRuns 4 = none ∧ s.policyRuns 5 = none ∧ s.policyRuns 6 = none) ∧
  (let s : State := { wBase with cores := [(1, .of { run := some 0 })] }
   let c : Nat := 1
   let p : Port := 3
   PolicyRuns s 0 p.toNat c ∧ s.isolates p.toNat = false) ∧
  (let s : State := { wAdmin 0 (wCmd 0 0) with
     cores := [(1, .of { run := some 1 })]
     ctxs := [(101, .of { wCtx with queue := 0, errRun := 4 })]
     sched := [(3, .of { regs := [{ slice := 0, handle := 33, interval := 2, cnt := 0, rty := 0 }] })] }
   let c : Nat := 1
   let p : Port := 3
   let h : BitVec 23 := 33
   let i : Nat := 101
   let r : PReg := { slice := 0, handle := 33, interval := 2, cnt := 0, rty := 0 }
   let own := if (s.port p.toNat).speed = .field then max 8 (floorPow r.interval) else floorPow r.interval
   s.policyRuns 0 = none ∧ PolicyRuns s 1 (p.toNat * 2 ^ 23 + h.toNat) c ∧ s.ctxOfHandle h.toNat = some i ∧ s.policyOn p.toNat 1 = true ∧
     (s.ctx i).port.toNat = p.toNat ∧ s.regOf p.toNat h.toNat = some r ∧ s.policyNow.backoff.find h.toNat = none ∧ r.handle = h ∧
     (s.portPair p.toNat 2).1 ≠ 0 ∧ (s.portPair p.toNat 2).1.toNat ≤ (s.comCtx i).errRun.toNat ∧
     own < min (2 * own) (floorPow (max 1 (s.portPair p.toNat 2).2.toNat))) ∧
  (let s : State := { wBase with cores := [(1, .of { run := some 1 })] }
   let c : Nat := 1
   let p : Port := 3
   let h : BitVec 23 := 33
   PolicyRuns s 1 (p.toNat * 2 ^ 23 + h.toNat) c ∧ s.ctxOfHandle h.toNat = none) ∧
  (let s : State := { wBase with
     cores := [(1, .of { run := some 2 })]
     snapshot := [(3, 4001), (0x103, 1350)]
     power := [(0, { gate := true, st := .on, pg := true })] }
   let c : Nat := 1
   let p : Nat := 0
   PolicyRuns s 2 0 c ∧ s.policyNow.shedRan ≠ some s.tick.n ∧ ((s.brownout s.brownRunNow = true ∨ s.overloaded = true)) ∧
     s.shedList.find? (fun k => s.powered k && decide ((s.comPSet k).shedPrio < 15) && (s.comPSet k).on && s.policyOn k 2) = some p ∧
     s.decisions = []) ∧
  (let s : State := { wBase with
     cores := [(1, .of { run := some 2 })]
     pset := [(3, .of { on := false, offCause := .shed })]
     policy := .of { shedPorts := [3] }
     power := [(3, { shedDraw := 5 })]
     snapshot := [(3, 10)] }
   let c : Nat := 1
   let p : Nat := 3
   PolicyRuns s 2 0 c ∧ s.policyNow.shedRan ≠ some s.tick.n ∧ s.brownout s.brownRunNow = false ∧ s.overloaded = false ∧
     s.restorable = some p ∧ s.policyNow.restoredAt = none ∧ s.decisions = []) ∧
  (let s : State := { wBase with
     cores := [(1, .of { run := some 2 })]
     snapshot := [(3, 4001), (0x103, 1350)]
     policy := .of { shedRan := some 100 } }
   let c : Nat := 1
   PolicyRuns s 2 0 c ∧ s.policyNow.shedRan = some s.tick.n) ∧
  (let s : State := { wBase with
     cores := [(1, .of { run := some 3 })]
     snapshot := [(3, 4001), (0x103, 1350)]
     power := [(0, { gate := true, st := .on, pg := true })] }
   let c : Nat := 1
   let p : Port := 0
   let v : Int := 1350
   PolicyRuns s 3 p.toNat c ∧ s.portTemp p.toNat = some v ∧ s.policyOn p.toNat 3 = true ∧ (s.portPair p.toNat 3).1 ≠ 0 ∧ 1350 ≤ v ∧
     (s.actBoundOf (s.portOwner p.toNat) (actIlim p.toNat)).1.toNat < (s.comPSet p.toNat).ilim ∧ s.decisions = []) ∧
  (let s : State := { wBase with cores := [(1, .of { run := some 3 })] }
   let c : Nat := 1
   let p : Port := 3
   PolicyRuns s 3 p.toNat c ∧ s.portTemp p.toNat = none) ∧
  (let s : State := { wAdmin 0 (wCmd 0 0) with
     cores := [(1, .of { run := some 4 })]
     policy := .of { delays := [(101, [99, 99, 98, 97, 97, 97, 90, 89, 1])] } }
   let c : Nat := 1
   let i : CtxIdx := 101
   let x := s.ctx i.toNat
   let b := s.portPair x.port.toNat 4
   let late := (s.policyNow.delays.get [] i.toNat).filter (fun k => decide (s.now ≤ k.toNat + 64))
   PolicyRuns s 4 i.toNat c ∧ x.st ≠ .free ∧ x.port.toNat < 16 ∧ s.policyOn x.port.toNat 4 = true ∧
     s.policyNow.pinned.contains x.handle.toNat = false ∧ b.1 ≠ 0 ∧ b.1.toNat ≤ late.length ∧ s.pinAt x.handle.toNat = none ∧
     s.pinFull x.slice.toNat i.toNat = false) ∧
  (let s : State := { wBase with cores := [(1, .of { run := some 4 })] }
   let c : Nat := 1
   let i : CtxIdx := 101
   PolicyRuns s 4 i.toNat c ∧ (s.ctx i.toNat).st = .free) ∧
  (let s : State := { wBase with
     cores := [(1, .of { run := some 5 })]
     tick := { wBase.tick with n := 128 }
     devs := [(2, .of { base := 100, nep := 1, st := .assigned })]
     bridges := [(63, .of { dev := some 2, pace := 65, timedOut := true })] }
   let c : Nat := 1
   let b : BitVec 6 := 63
   let o : Nat := 0
   let x := s.bridge b.toNat
   let r := nextPace x.pace (s.boundOf o (0x200 + b.toNat)).1.toNat x.timedOut ((s.measured (bridgeItem b.toNat 3)).map (·.toNat)) (((s.measured (bridgeItem b.toNat 2)).map (fun v => v != 0)).getD false)
   PolicyRuns s 5 b.toNat c ∧ s.bridgeOwner b.toNat = some o ∧ s.now % 64 = 0 ∧ r ≠ x.pace ∧ s.decisions = []) ∧
  (let s : State := { wBase with
     cores := [(1, .of { run := some 5 })]
     tick := { wBase.tick with n := 129 }
     devs := [(2, .of { base := 100, nep := 1, st := .assigned })]
     bridges := [(63, .of { dev := some 2, pace := 65, timedOut := true })] }
   let c : Nat := 1
   let b : BitVec 6 := 63
   PolicyRuns s 5 b.toNat c ∧ s.now % 64 ≠ 0) ∧
  (let s : State := { wBase with
     cores := [(1, .of { run := some 6 })]
     bounds := [(boundKey 3 0x283, .of (some (5, 4)))]
     snapshot := [(0x81D, 5001), (0x81F, 7), (0x844, 1)] }
   let c : Nat := 1
   let sl : Slice := 3
   let f : BitVec 2 := 3
   let d : W32 := 5001
   let n : W32 := 7
   let b := s.boundOf sl.toNat (0x280 + f.toNat)
   let x := s.policyNow.loadShed.get (false, none, none) (sl.toNat * 4 + f.toNat)
   PolicyRuns s 6 (sl.toNat * 4 + f.toNat) c ∧ s.measured (0x805 + f.toNat * 8) = some d ∧ s.measured (0x807 + f.toNat * 8) = some n ∧
     b.1 ≠ 0 ∧ s.measured 0x844 = some 1 ∧ b.1.toInt * 1000 < d.toInt ∧ x.2.1 ≠ some n) ∧
  (let s : State := { wBase with cores := [(1, .of { run := some 6 })] }
   let c : Nat := 1
   let sl : Slice := 3
   let f : BitVec 2 := 3
   PolicyRuns s 6 (sl.toNat * 4 + f.toNat) c ∧ s.measured 0x844 ≠ some 1) := by
  refine ⟨?_, ?_, ?_, ?_, ?_, ?_, ?_, ?_, ?_, ?_, ?_, ?_, ?_, ?_, ?_⟩
  · (dsimp only [Ready, Inside, OnIdleShuttle, PolicyRuns, TickInv]; decide)
  · (dsimp only [Ready, Inside, OnIdleShuttle, PolicyRuns, TickInv]; decide)
  · (dsimp only [Ready, Inside, OnIdleShuttle, PolicyRuns, TickInv]; decide)
  · (dsimp only [Ready, Inside, OnIdleShuttle, PolicyRuns, TickInv]; decide)
  · (dsimp only [Ready, Inside, OnIdleShuttle, PolicyRuns, TickInv]; decide)
  · (dsimp only [Ready, Inside, OnIdleShuttle, PolicyRuns, TickInv]; decide)
  · (dsimp only [Ready, Inside, OnIdleShuttle, PolicyRuns, TickInv]; decide)
  · (dsimp only [Ready, Inside, OnIdleShuttle, PolicyRuns, TickInv]; decide)
  · (dsimp only [Ready, Inside, OnIdleShuttle, PolicyRuns, TickInv]; decide)
  · (dsimp only [Ready, Inside, OnIdleShuttle, PolicyRuns, TickInv]; decide)
  · (dsimp only [Ready, Inside, OnIdleShuttle, PolicyRuns, TickInv]; decide)
  · (dsimp only [Ready, Inside, OnIdleShuttle, PolicyRuns, TickInv]; decide)
  · (dsimp only [Ready, Inside, OnIdleShuttle, PolicyRuns, TickInv]; decide)
  · (dsimp only [Ready, Inside, OnIdleShuttle, PolicyRuns, TickInv]; decide)
  · (dsimp only [Ready, Inside, OnIdleShuttle, PolicyRuns, TickInv]; decide)

/-- States and operands that meet the hypotheses of RunsFlowsAndTimers. -/
theorem witness_RunsFlowsAndTimers :
  (let s : State := { wBase with
     graphs := [(6, .of { live := true, code := [0, 0x04000000], period := 2, tasks := [9] })]
     tasks := [(9, .of { live := true, graph := 6, entry := 1, f := 5, m := 4 })]
     cores := [(2, .of { ready := [{ task := 8 }, { task := 9, flags := 4 }] })] }
   let c : Core := 2
   let e : ReadyE := { task := 9, flags := 4 }
   let k : Task := 9
   let x := s.task e.task.toNat
   let th := s.thread (coreThread c.toNat)
   s.working = true ∧ s.domOn 11 = true ∧ th.running = false ∧ th.cycle < 12000 ∧ s.coreContained.get false c.toNat = false ∧
     (s.coreAt c.toNat).run = none ∧ (s.coreAt c.toNat).policies = [] ∧ (s.coreAt c.toNat).bitmap = [] ∧ s.nextSpilled c.toNat = none ∧
     x.member = none ∧ (s.coreAt c.toNat).ready.find? (fun y => s.mayRun c.toNat y.task.toNat) = some e ∧
     x.entry < (s.graph x.graph.toNat).code.length ∧
     (s.tick.selvage = false ∨ s.committed = false ∨ s.timersRun (s.task k.toNat).slice.toNat = false)) ∧
  (let s : State := { wBase with cores := [(2, .of { policies := [3, 5], ready := [{ task := 9 }] })] }
   let c : Core := 2
   let k : Task := (3 : Task)
   let r : List Task := [(5 : Task)]
   s.working = true ∧ s.domOn 11 = true ∧ (s.thread (coreThread c.toNat)).running = false ∧
     (s.thread (coreThread c.toNat)).cycle < 12000 ∧ s.coreContained.get false c.toNat = false ∧ (s.coreAt c.toNat).run = none ∧
     (s.coreAt c.toNat).policies = k :: r) ∧
  (let s : State := { wBase with cores := [(2, .of { run := some 3, done := [4] })] }
   let c : Core := 2
   let k : Task := (3 : Task)
   s.working = true ∧ s.domOn 11 = true ∧ (s.thread (coreThread c.toNat)).running = false ∧ s.coreContained.get false c.toNat = false ∧
     (s.coreAt c.toNat).run = some k ∧ (s.coreAt c.toNat).policies = [] ∧ (s.coreAt c.toNat).bitmap = [] ∧ s.nextSpilled c.toNat = none ∧
     (s.coreAt c.toNat).ready = []) ∧
  (let s : State := { wBase with threads := [(18, { running := true })] }
   let c : Core := 2
   ((s.thread (coreThread c.toNat)).running = true ∨ s.coreContained.get false c.toNat = true)) ∧
  (let s : State := { wBase with
     flows := [(255, .of { live := true, sink := 9, next := 0xFFFFFFFF, ended := [0xFFFFFFFF, 0], vals := [(0, 5)] })]
     tasks := [(9, .of { live := true })] }
   let f : Flow := 255
   let x := s.flowAt f.toNat
   x.live = true ∧ s.working = true ∧ s.domOn 11 = true ∧ x.ended.contains x.next = true ∧ s.taskRuns x.sink.toNat = false ∧
     ((∀ y ∈ x.vals, y.1 ≠ x.next))) ∧
  (let s : State := { wBase with
     flows := [(255, .of { live := true, sink := 9, next := 0xFFFFFFFF, ended := [0xFFFFFFFF, 0], vals := [(0xFFFFFFFF, 6), (0, 5)] })]
     tasks := [(9, .of { live := true })] }
   let f : Flow := 255
   let v : W32 := 6
   let x := s.flowAt f.toNat
   x.live = true ∧ s.working = true ∧ s.domOn 11 = true ∧ x.ended.contains x.next = true ∧ s.taskRuns x.sink.toNat = false ∧
     (x.vals.filter (fun y => y.1 == x.next)).map (·.2) = [v] ∧ (s.task x.sink.toNat).live = true ∧ sinkFull (s.task x.sink.toNat) = false) ∧
  (let s : State := { wBase with
     graphs := [(6, .of { live := true, code := [0, 0x04000000], period := 2, tasks := [9] })]
     tasks := [(9, .of { live := true, graph := 6, entry := 1, f := 5, m := 4 })]
     cores := [(2, .of { ready := [{ task := 8 }, { task := 9, flags := 4 }] })] }
   let f : Flow := 0
   let k : BitVec 3 := 9
   (s.flowAt f.toNat).ended.contains (s.flowAt f.toNat).next = false ∧ (s.stream k.toNat).held = []) ∧
  (let s : State := { wBase with
     tick := { wBase.tick with selvage := true }
     committed := true
     tasks := [(9, .of { live := true, home := 1, m := 0x80000000, all := true, f := 1 })]
     cores := [(0, .of { timers := [{ task := 8, flag := 31, deadline := 100 }] }), (1, .of { timers := [{ task := 9, flag := 31, deadline := 100 }, { task := 9, flag := 30, deadline := 100 }] })] }
   let k : Task := (9 : Task)
   let b : BitVec 5 := 31
   let m : TimerS := { task := 9, flag := 31, deadline := 100 }
   let c : Nat := (1 : Nat)
   s.tick.selvage = true ∧ s.committed = true ∧ s.domOn 11 = true ∧ (s.task k.toNat).live = true ∧
     s.timersRun (s.task k.toNat).slice.toNat = true ∧ c < 4 ∧
     (s.coreAt c).timers.find? (fun y => y.task == k && y.flag == b && decide (y.deadline.toNat ≤ s.now)) = some m ∧
     ((∀ j < c, (s.coreAt j).timers.find? (fun y => y.task == k && y.flag == b && decide (y.deadline.toNat ≤ s.now)) = none))) ∧
  (let s : State := { wBase with
     streams := [(7, .of { run := true, chan := 5, base := 0x10000, log2 := 9, block := 1, held := List.replicate 257 { tick := 1, cycle := 2, core := 3, kind := 12, task := 4, slice := 5, arg := 6, cause := 7, val := 8 } })]
     chans := [(5, .of { role := .xport, st := .idle, cqLog2 := 4 })] }
   let k : BitVec 3 := (7 : BitVec 3)
   let x := s.stream k.toNat
   let c := x.chan.toNat
   x.run = true ∧ s.working = true ∧ 256 ≤ x.held.length ∧ s.exportFree c = true ∧ s.chanOwner c = x.slice.toNat ∧ s.chanWorks c = true) := by
  refine ⟨?_, ?_, ?_, ?_, ?_, ?_, ?_, ?_, ?_⟩
  · decide
  · decide
  · decide
  · decide
  · exact ⟨by decide, by decide, by decide, by decide, by decide, fun y hy => by rw [List.mem_singleton.mp (show y ∈ [((0 : W32), (5 : W32))] from hy)]; decide⟩
  · decide
  · decide
  · decide
  · (dsimp only [Ready, Inside, OnIdleShuttle, PolicyRuns, TickInv]; decide +kernel)

/-- States and operands that meet the hypotheses of StewardCommands. -/
theorem witness_StewardCommands :
  (let s : State := wAdmin 0 (wCmd 0x60 0 0x6080000000000000 0x500000004)
   let sl : Slice := 0
   let e : Entry := wCmd 0x60 0 0x6080000000000000 0x500000004
   let lo : W32 := BitVec.ofNat 32 (fld e.q2 63 32)
   let hi : W32 := BitVec.ofNat 32 (fld e.q2 31 0)
   AdminRuns s sl 0x60 e ∧ hi.toInt < lo.toInt) ∧
  (let s : State := wAdmin 3 (wCmd 0x60 0 0x6080000000000000 0xffffffff00000004)
   let sl : Slice := 3
   let e : Entry := wCmd 0x60 0 0x6080000000000000 0xffffffff00000004
   let lo : W32 := BitVec.ofNat 32 (fld e.q2 63 32)
   let hi : W32 := BitVec.ofNat 32 (fld e.q2 31 0)
   let b := fld e.q1 63 53
   AdminRuns s sl 0x60 e ∧ lo.toInt ≤ hi.toInt ∧ ((0x300 ≤ b ∨ boundDefault b ≠ none)) ∧ s.boundMine sl.toNat b = true) ∧
  (let s : State := wAdmin 3 (wCmd 0x60 0 0x2000000000000000 0x400000004)
   let sl : Slice := 3
   let e : Entry := wCmd 0x60 0 0x2000000000000000 0x400000004
   let lo : W32 := BitVec.ofNat 32 (fld e.q2 63 32)
   let hi : W32 := BitVec.ofNat 32 (fld e.q2 31 0)
   let b := fld e.q1 63 53
   AdminRuns s sl 0x60 e ∧ lo.toInt ≤ hi.toInt ∧ ((0x300 ≤ b ∨ boundDefault b ≠ none)) ∧ s.boundMine sl.toNat b = false) ∧
  (let s : State := wAdmin 0 (wCmd 0x61 0 0x608000000000000 0x500000004)
   let sl : Slice := 0
   let e : Entry := wCmd 0x61 0 0x608000000000000 0x500000004
   let lo : W32 := BitVec.ofNat 32 (fld e.q2 63 32)
   let hi : W32 := BitVec.ofNat 32 (fld e.q2 31 0)
   AdminRuns s sl 0x61 e ∧ hi.toInt < lo.toInt) ∧
  (let s : State := wAdmin 3 (wCmd 0x61 0 0x606000000000000 0x500000005)
   let sl : Slice := 3
   let e : Entry := wCmd 0x61 0 0x606000000000000 0x500000005
   let lo : W32 := BitVec.ofNat 32 (fld e.q2 63 32)
   let hi : W32 := BitVec.ofNat 32 (fld e.q2 31 0)
   let a := fld e.q1 63 49
   AdminRuns s sl 0x61 e ∧ lo.toInt ≤ hi.toInt ∧ actrOk a = true ∧ s.actHolder sl.toNat a = some sl.toNat ∧ a % 8 ≠ 2) ∧
  (let s : State := wAdmin 3 (wCmd 0x61 0 0x10000000000000 0x500000005)
   let sl : Slice := 3
   let e : Entry := wCmd 0x61 0 0x10000000000000 0x500000005
   let lo : W32 := BitVec.ofNat 32 (fld e.q2 63 32)
   let hi : W32 := BitVec.ofNat 32 (fld e.q2 31 0)
   let a := fld e.q1 63 49
   AdminRuns s sl 0x61 e ∧ lo.toInt ≤ hi.toInt ∧ s.actHolder sl.toNat a ≠ some sl.toNat) ∧
  (let s : State := { wAdmin 3 (wCmd 0x63 0 0xffff800000000000 0x0) with
     tasks := [(0xFFF, .of { live := true, slice := 3, f := 5, m := 6, words := [(15, 7)] })] }
   let sl : Slice := 3
   let e : Entry := wCmd 0x63 0 0xffff800000000000 0x0
   let k := fld e.q1 63 52
   AdminRuns s sl 0x63 e ∧ s.taskMine sl.toNat k = true) ∧
  (let s : State := { wAdmin 3 (wCmd 0x64 0 0xfff0000000000000 0x4000) with
     tasks := [(0xFFF, .of { live := true, slice := 3, f := 5, m := 6, words := [(15, 7)] })] }
   let sl : Slice := 3
   let e : Entry := wCmd 0x64 0 0xfff0000000000000 0x4000
   let k := fld e.q1 63 52
   AdminRuns s sl 0x64 e ∧ s.taskMine sl.toNat k = true) ∧
  (let s : State := wAdmin 3 (wCmd 0x63 0 0xfff0000000000000 0x4000)
   let sl : Slice := 3
   let e : Entry := wCmd 0x63 0 0xfff0000000000000 0x4000
   let k := fld e.q1 63 52
   AdminRuns s sl 0x63 e ∧ s.taskMine sl.toNat k = false) ∧
  (let s : State := wAdmin 3 (wCmd 0x64 0 0xfff0000000000000 0x4000)
   let sl : Slice := 3
   let e : Entry := wCmd 0x64 0 0xfff0000000000000 0x4000
   let k := fld e.q1 63 52
   AdminRuns s sl 0x64 e ∧ s.taskMine sl.toNat k = false) ∧
  (let s : State := { wAdmin 3 (wCmd 0x65 0 0x9010000000000 0x4000) with snapshot := [(9, 77)] }
   let sl : Slice := 3
   let e : Entry := wCmd 0x65 0 0x9010000000000 0x4000
   AdminRuns s sl 0x65 e ∧ fld e.q1 47 40 = 1 ∧ s.itemRight sl.toNat (fld e.q1 63 48) = true) ∧
  (let s : State := wAdmin 3 (wCmd 0x65 0 0xa010000000000 0x4000)
   let sl : Slice := 3
   let e : Entry := wCmd 0x65 0 0xa010000000000 0x4000
   AdminRuns s sl 0x65 e ∧ fld e.q1 47 40 = 1 ∧ s.itemRight sl.toNat (fld e.q1 63 48) = false) ∧
  (let s : State := wAdmin 3 (wCmd 0x65 0 0x9000000000000 0x4000)
   let sl : Slice := 3
   let e : Entry := wCmd 0x65 0 0x9000000000000 0x4000
   AdminRuns s sl 0x65 e ∧ fld e.q1 47 40 = 0) ∧
  (let s : State := { wAdmin 0 (wCmd 0x66 0 0x169f000000000000 0x7000) with chans := [(5, .of { role := .xport, st := .idle })] }
   let sl : Slice := 0
   let e : Entry := wCmd 0x66 0 0x169f000000000000 0x7000
   let x := s.stream (fld e.q1 50 48)
   AdminRuns s sl 0x66 e ∧ fbit e.q1 52 = true ∧ 8 ≤ fld e.q1 57 53 ∧ fld e.q1 57 53 ≤ 20 ∧ e.q2.toNat % 4096 = 0 ∧
     ((fbit e.q1 51 = false ∨ sl = 0)) ∧ s.chanOwner (fld e.q1 63 58) = sl.toNat ∧ (s.chan (fld e.q1 63 58)).role = .xport ∧
     ((x.run = false ∨ x.slice = sl))) ∧
  (let s : State := { wAdmin 0 (wCmd 0x66 0 0x1407000000000000 0x7000) with
     streams := [(7, .of { run := true, held := [{ tick := 1, cycle := 2, core := 3, kind := 12, task := 4, slice := 5, arg := 6, cause := 7, val := 8 }] })] }
   let sl : Slice := 0
   let e : Entry := wCmd 0x66 0 0x1407000000000000 0x7000
   let x := s.stream (fld e.q1 50 48)
   AdminRuns s sl 0x66 e ∧ fbit e.q1 52 = false ∧ ((x.run = false ∨ x.slice = sl))) ∧
  (let s : State := { wAdmin 0 (wCmd 0x67 0 0x7000000000000 0x0) with
     streams := [(7, .of { run := true, lost := 5, written := 0xFFFFFFFF })] }
   let sl : Slice := 0
   let e : Entry := wCmd 0x67 0 0x7000000000000 0x0
   let x := s.stream (fld e.q1 50 48)
   AdminRuns s sl 0x67 e ∧ x.slice = sl) ∧
  (let s : State := wAdmin 3 (wCmd 0x67 0 0x7000000000000 0x0)
   let sl : Slice := 3
   let e : Entry := wCmd 0x67 0 0x7000000000000 0x0
   let x := s.stream (fld e.q1 50 48)
   AdminRuns s sl 0x67 e ∧ x.slice ≠ sl) := by
  refine ⟨?_, ?_, ?_, ?_, ?_, ?_, ?_, ?_, ?_, ?_, ?_, ?_, ?_, ?_, ?_, ?_, ?_⟩
  · (dsimp only [Ready, Inside, OnIdleShuttle, PolicyRuns, TickInv]; repeat (first | decide +kernel | (intro us h; cases h) | apply And.intro))
  · (dsimp only [Ready, Inside, OnIdleShuttle, PolicyRuns, TickInv]; repeat (first | decide +kernel | (intro us h; cases h) | apply And.intro))
  · (dsimp only [Ready, Inside, OnIdleShuttle, PolicyRuns, TickInv]; repeat (first | decide +kernel | (intro us h; cases h) | apply And.intro))
  · (dsimp only [Ready, Inside, OnIdleShuttle, PolicyRuns, TickInv]; repeat (first | decide +kernel | (intro us h; cases h) | apply And.intro))
  · (dsimp only [Ready, Inside, OnIdleShuttle, PolicyRuns, TickInv]; repeat (first | decide +kernel | (intro us h; cases h) | apply And.intro))
  · (dsimp only [Ready, Inside, OnIdleShuttle, PolicyRuns, TickInv]; repeat (first | decide +kernel | (intro us h; cases h) | apply And.intro))
  · (dsimp only [Ready, Inside, OnIdleShuttle, PolicyRuns, TickInv]; repeat (first | decide +kernel | (intro us h; cases h) | apply And.intro))
  · (dsimp only [Ready, Inside, OnIdleShuttle, PolicyRuns, TickInv]; repeat (first | decide +kernel | (intro us h; cases h) | apply And.intro))
  · (dsimp only [Ready, Inside, OnIdleShuttle, PolicyRuns, TickInv]; repeat (first | decide +kernel | (intro us h; cases h) | apply And.intro))
  · (dsimp only [Ready, Inside, OnIdleShuttle, PolicyRuns, TickInv]; repeat (first | decide +kernel | (intro us h; cases h) | apply And.intro))
  · (dsimp only [Ready, Inside, OnIdleShuttle, PolicyRuns, TickInv]; repeat (first | decide +kernel | (intro us h; cases h) | apply And.intro))
  · (dsimp only [Ready, Inside, OnIdleShuttle, PolicyRuns, TickInv]; repeat (first | decide +kernel | (intro us h; cases h) | apply And.intro))
  · (dsimp only [Ready, Inside, OnIdleShuttle, PolicyRuns, TickInv]; repeat (first | decide +kernel | (intro us h; cases h) | apply And.intro))
  · (dsimp only [Ready, Inside, OnIdleShuttle, PolicyRuns, TickInv]; repeat (first | decide +kernel | (intro us h; cases h) | apply And.intro))
  · (dsimp only [Ready, Inside, OnIdleShuttle, PolicyRuns, TickInv]; repeat (first | decide +kernel | (intro us h; cases h) | apply And.intro))
  · (dsimp only [Ready, Inside, OnIdleShuttle, PolicyRuns, TickInv]; repeat (first | decide +kernel | (intro us h; cases h) | apply And.intro))
  · (dsimp only [Ready, Inside, OnIdleShuttle, PolicyRuns, TickInv]; repeat (first | decide +kernel | (intro us h; cases h) | apply And.intro))

/-- States and operands that meet the hypotheses of SliceCommands. -/
theorem witness_SliceCommands :
  (let s : State := { wAdmin 0 (wCmd 0x80 0 0xfc00000000000000 0x1000) with slices := [(0, .of sliceS0)] }
   let e : Entry := wCmd 0x80 0 0xfc00000000000000 0x1000
   let record : List W64 := [0, 0, 0x80000000] ++ List.replicate 13 0
   let k : Slice := 63
   AdminRuns s 0 0x80 e ∧ fld e.q1 63 58 = k.toNat ∧ e.q2.toNat % 8 = 0 ∧ s.recStatus k.toNat false record = 0) ∧
  (let s : State := { wAdmin 0 (wCmd 0x80 0 0x0 0x1000) with slices := [(0, .of sliceS0)] }
   let e : Entry := wCmd 0x80 0 0x0 0x1000
   let record : List W64 := [0, 0, 0x80000000] ++ List.replicate 13 0
   let k : Slice := 0
   AdminRuns s 0 0x80 e ∧ fld e.q1 63 58 = k.toNat ∧ e.q2.toNat % 8 = 0 ∧ s.recStatus k.toNat false record = 0x11) ∧
  (let s : State := { wAdmin 0 (wCmd 0x80 0 0xfc00000000000000 0x1000) with slices := [(0, .of sliceS0)] }
   let e : Entry := wCmd 0x80 0 0xfc00000000000000 0x1000
   let record : List W64 := [0, 0, 0x0008000000000000 + 0x80000000000] ++ List.replicate 13 0
   let k : Slice := 63
   AdminRuns s 0 0x80 e ∧ fld e.q1 63 58 = k.toNat ∧ e.q2.toNat % 8 = 0 ∧ s.recStatus k.toNat false record = 0x12) ∧
  (let s : State := { wAdmin 0 (wCmd 0x80 0 0xfc00000000000000 0x1000) with
     slices := [(0, .of sliceS0), (4, .of { st := .defined, res := { chan := 1 } })] }
   let e : Entry := wCmd 0x80 0 0xfc00000000000000 0x1000
   let record : List W64 := [0, 1, 0x80000000] ++ List.replicate 13 0
   let k : Slice := 63
   AdminRuns s 0 0x80 e ∧ fld e.q1 63 58 = k.toNat ∧ e.q2.toNat % 8 = 0 ∧ s.recStatus k.toNat false record = 0x13) ∧
  (let s : State := { wAdmin 0 (wCmd 0x81 0 0xfc00000000000000 0x1000) with slices := [(0, .of sliceS0), (63, .of { st := .running })] }
   let e : Entry := wCmd 0x81 0 0xfc00000000000000 0x1000
   let record : List W64 := [0, 0, 0x80000000] ++ List.replicate 13 0
   let k : Slice := 63
   AdminRuns s 0 0x81 e ∧ fld e.q1 63 58 = k.toNat ∧ e.q2.toNat % 8 = 0 ∧ s.recStatus k.toNat true record = 0) ∧
  (let s : State := { wAdmin 0 (wCmd 0x81 0 0xfc00000000000000 0x1000) with
     slices := [(0, .of sliceS0), (4, .of { st := .defined, res := { chan := 1 } }), (63, .of { st := .running })]
     queues := [(qKey 0 0, .of { live := true, entries := [wCmd 0x81 0 0xFC00000000000000 0x1000] }), (qKey 63 4, .of { live := true })] }
   let e : Entry := wCmd 0x81 0 0xfc00000000000000 0x1000
   let record : List W64 := [0, 0, 0x80000000] ++ List.replicate 13 0
   let k : Slice := 63
   AdminRuns s 0 0x81 e ∧ fld e.q1 63 58 = k.toNat ∧ e.q2.toNat % 8 = 0 ∧ s.recStatus k.toNat true record = 0x13) ∧
  (let s : State := { wAdmin 0 (wCmd 0x82 0 0xffffffff80000000 0x0) with slices := [(0, .of sliceS0), (63, .of { st := .defined })] }
   let e : Entry := wCmd 0x82 0 0xffffffff80000000 0x0
   let k : Slice := 63
   AdminRuns s 0 0x82 e ∧ fld e.q1 63 58 = k.toNat ∧ s.bindStatus k.toNat (fld e.q1 57 56) (fld e.q1 55 52) (fld e.q1 51 32) = 0) ∧
  (let s : State := { wAdmin 0 (wCmd 0x82 0 0xffffffff80000000 0x0) with slices := [(0, .of sliceS0)] }
   let e : Entry := wCmd 0x82 0 0xffffffff80000000 0x0
   let k : Slice := 63
   let x := s.slice k.toNat
   AdminRuns s 0 0x82 e ∧ fld e.q1 63 58 = k.toNat ∧ (k = 0 ∨ x.st = .running ∨ x.st = .free)) ∧
  (let s : State := { wAdmin 0 (wCmd 0x83 0 0xfc00000000000000 0x0) with
     slices := [(0, .of sliceS0), (63, .of { st := .frozen, bound := true })] }
   let e : Entry := wCmd 0x83 0 0xfc00000000000000 0x0
   let k : Slice := 63
   let x := s.slice k.toNat
   AdminRuns s 0 0x83 e ∧ fld e.q1 63 58 = k.toNat ∧ k ≠ 0 ∧ ((x.st = .frozen ∨ x.st = .defined)) ∧ s.saving k.toNat = false ∧
     x.bound = true) ∧
  (let s : State := { wAdmin 0 (wCmd 0x83 0 0xfc00000000000000 0x0) with
     slices := [(0, .of sliceS0), (63, .of { st := .running, bound := true })] }
   let e : Entry := wCmd 0x83 0 0xfc00000000000000 0x0
   let k : Slice := 63
   let x := s.slice k.toNat
   AdminRuns s 0 0x83 e ∧ fld e.q1 63 58 = k.toNat ∧ (k = 0 ∨ x.st = .running)) ∧
  (let s : State := { wAdmin 0 (wCmd 0x84 0 0xfc00000000000000 0x0) with
     slices := [(0, .of sliceS0), (63, .of { st := .running, bound := true })] }
   let e : Entry := wCmd 0x84 0 0xfc00000000000000 0x0
   let k : Slice := 63
   let x := s.slice k.toNat
   AdminRuns s 0 0x84 e ∧ fld e.q1 63 58 = k.toNat ∧ k ≠ 0 ∧ x.st = .running) ∧
  (let s : State := { wAdmin 0 (wCmd 0x84 0 0xfc00000000000000 0x0) with
     slices := [(0, .of sliceS0), (63, .of { st := .frozen, bound := true })] }
   let e : Entry := wCmd 0x84 0 0xfc00000000000000 0x0
   let k : Slice := 63
   let x := s.slice k.toNat
   AdminRuns s 0 0x84 e ∧ fld e.q1 63 58 = k.toNat ∧ k ≠ 0 ∧ x.st = .frozen) ∧
  (let s : State := { wAdmin 0 (wCmd 0x84 0 0x0 0x0) with slices := [(0, .of sliceS0)] }
   let e : Entry := wCmd 0x84 0 0x0 0x0
   let k : Slice := 0
   AdminRuns s 0 0x84 e ∧ fld e.q1 63 58 = k.toNat ∧ k = 0) ∧
  (let s : State := { wAdmin 0 (wCmd 0x85 0 0xfc00000000000000 0x0) with
     slices := [(0, .of sliceS0), (63, .of { st := .frozen, bound := true })] }
   let e : Entry := wCmd 0x85 0 0xfc00000000000000 0x0
   let k : Slice := 63
   let x := s.slice k.toNat
   AdminRuns s 0 0x85 e ∧ fld e.q1 63 58 = k.toNat ∧ k ≠ 0 ∧ x.bound = true ∧ x.st = .frozen ∧ s.saving k.toNat = false) ∧
  (let s : State := { wAdmin 0 (wCmd 0x85 0 0xfc00000000000000 0x0) with slices := [(0, .of sliceS0), (63, .of { st := .frozen })] }
   let e : Entry := wCmd 0x85 0 0xfc00000000000000 0x0
   let k : Slice := 63
   let x := s.slice k.toNat
   AdminRuns s 0 0x85 e ∧ fld e.q1 63 58 = k.toNat ∧ x.bound = false) ∧
  (let s : State := { wAdmin 0 (wCmd 0x86 0 0xfc00000000000000 0x0) with
     slices := [(0, .of sliceS0), (63, .of { st := .frozen, bound := true })] }
   let e : Entry := wCmd 0x86 0 0xfc00000000000000 0x0
   let k : Slice := 63
   let x := s.slice k.toNat
   AdminRuns s 0 0x86 e ∧ fld e.q1 63 58 = k.toNat ∧ k ≠ 0 ∧ x.st ≠ .free ∧ s.saving k.toNat = false) ∧
  (let s : State := { wAdmin 0 (wCmd 0x86 0 0xfc00000000000000 0x0) with slices := [(0, .of sliceS0)] }
   let e : Entry := wCmd 0x86 0 0xfc00000000000000 0x0
   let k : Slice := 63
   let x := s.slice k.toNat
   AdminRuns s 0 0x86 e ∧ fld e.q1 63 58 = k.toNat ∧ (k = 0 ∨ x.st = .free)) ∧
  (let s : State := { wAdmin 0 (wCmd 0x86 0 0xfc00000000000000 0x0) with
     slices := [(0, .of sliceS0), (63, .of { st := .frozen, bound := true })]
     chans := [(5, .of { job := some (.save 63) })] }
   let e : Entry := wCmd 0x86 0 0xfc00000000000000 0x0
   let k : Slice := 63
   let x := s.slice k.toNat
   AdminRuns s 0 0x86 e ∧ fld e.q1 63 58 = k.toNat ∧ k ≠ 0 ∧ x.st ≠ .free ∧ s.saving k.toNat = true) ∧
  (let s : State := { wAdmin 0 (wCmd 0x88 0 0xfc00000000000000 0x1000) with
     slices := [(0, .of sliceS0)]
     watch := { commissioned := true, key := wKek } }
   let e : Entry := wCmd 0x88 0 0xfc00000000000000 0x1000
   let data : List Byte := leBytes 8 0x55 ++ wWrapped
   let key : List Byte := wKey
   let k : Slice := 63
   AdminRuns s 0 0x88 e ∧ fld e.q1 63 58 = k.toNat ∧ k ≠ 0 ∧ s.watch.unwrap ((data.drop 8).take 40) = some key) ∧
  (let s : State := { wAdmin 0 (wCmd 0x88 0 0xfc00000000000000 0x1000) with
     slices := [(0, .of sliceS0)]
     watch := { commissioned := true, key := wKek } }
   let e : Entry := wCmd 0x88 0 0xfc00000000000000 0x1000
   let data : List Byte := leBytes 8 0x55 ++ List.replicate 8 0
   let k : Slice := 63
   AdminRuns s 0 0x88 e ∧ fld e.q1 63 58 = k.toNat ∧ k ≠ 0 ∧ s.watch.unwrap ((data.drop 8).take 40) = none) ∧
  (let s : State := { wAdmin 0 (wCmd 0x88 0 0x0 0x1000) with slices := [(0, .of sliceS0)] }
   let e : Entry := wCmd 0x88 0 0x0 0x1000
   let k : Slice := 0
   AdminRuns s 0 0x88 e ∧ fld e.q1 63 58 = k.toNat ∧ k = 0) ∧
  (let s : State := { wAdmin 0 (wCmd 0x8c 0 0xfc00000000000000 0x1000) with
     slices := [(0, .of sliceS0), (63, .of { st := .frozen, bound := true, res := { chan := 9, pages := 3, barn := [(4, 2)] } })] }
   let e : Entry := wCmd 0x8c 0 0xfc00000000000000 0x1000
   let k : Slice := 63
   AdminRuns s 0 0x8C e ∧ fld e.q1 63 58 = k.toNat) ∧
  (let s : State := wAdmin 0 (wCmd 0x87 0 0x85ffffffc0000000 0)
   let e : Entry := wCmd 0x87 0 0x85ffffffc0000000 0
   let k : Slice := 33
   AdminRuns s 0 0x87 e ∧ fld e.q1 63 58 = k.toNat ∧ fld e.q1 63 59 ≤ 16 ∧ fld e.q1 58 56 ≤ 5 ∧ fbit e.q1 30 = true) ∧
  (let s : State := wAdmin 0 (wCmd 0x87 0 0x7c07ffffbf800000 0)
   let e : Entry := wCmd 0x87 0 0x7c07ffffbf800000 0
   let k : Slice := 31
   AdminRuns s 0 0x87 e ∧ fld e.q1 63 58 = k.toNat ∧ fld e.q1 63 59 ≤ 16 ∧ fld e.q1 58 56 ≤ 5 ∧ fbit e.q1 30 = false) ∧
  (let s : State := wAdmin 0 (wCmd 0x87 0 0x8800000000000000 0)
   let e : Entry := wCmd 0x87 0 0x8800000000000000 0
   let k : Slice := 34
   AdminRuns s 0 0x87 e ∧ fld e.q1 63 58 = k.toNat ∧ ((16 < fld e.q1 63 59 ∨ 5 < fld e.q1 58 56))) := by
  refine ⟨?_, ?_, ?_, ?_, ?_, ?_, ?_, ?_, ?_, ?_, ?_, ?_, ?_, ?_, ?_, ?_, ?_, ?_, ?_, ?_, ?_, ?_, ?_, ?_, ?_⟩
  · (dsimp only [Ready, Inside, OnIdleShuttle, PolicyRuns, TickInv]; repeat (first | decide +kernel | (intro us h; cases h) | apply And.intro))
  · (dsimp only [Ready, Inside, OnIdleShuttle, PolicyRuns, TickInv]; repeat (first | decide +kernel | (intro us h; cases h) | apply And.intro))
  · (dsimp only [Ready, Inside, OnIdleShuttle, PolicyRuns, TickInv]; repeat (first | decide +kernel | (intro us h; cases h) | apply And.intro))
  · (dsimp only [Ready, Inside, OnIdleShuttle, PolicyRuns, TickInv]; repeat (first | decide +kernel | (intro us h; cases h) | apply And.intro))
  · (dsimp only [Ready, Inside, OnIdleShuttle, PolicyRuns, TickInv]; repeat (first | decide +kernel | (intro us h; cases h) | apply And.intro))
  · (dsimp only [Ready, Inside, OnIdleShuttle, PolicyRuns, TickInv]; repeat (first | decide +kernel | (intro us h; cases h) | apply And.intro))
  · (dsimp only [Ready, Inside, OnIdleShuttle, PolicyRuns, TickInv]; repeat (first | decide +kernel | (intro us h; cases h) | apply And.intro))
  · (dsimp only [Ready, Inside, OnIdleShuttle, PolicyRuns, TickInv]; repeat (first | decide +kernel | (intro us h; cases h) | apply And.intro))
  · (dsimp only [Ready, Inside, OnIdleShuttle, PolicyRuns, TickInv]; repeat (first | decide +kernel | (intro us h; cases h) | apply And.intro))
  · (dsimp only [Ready, Inside, OnIdleShuttle, PolicyRuns, TickInv]; repeat (first | decide +kernel | (intro us h; cases h) | apply And.intro))
  · (dsimp only [Ready, Inside, OnIdleShuttle, PolicyRuns, TickInv]; repeat (first | decide +kernel | (intro us h; cases h) | apply And.intro))
  · (dsimp only [Ready, Inside, OnIdleShuttle, PolicyRuns, TickInv]; repeat (first | decide +kernel | (intro us h; cases h) | apply And.intro))
  · (dsimp only [Ready, Inside, OnIdleShuttle, PolicyRuns, TickInv]; repeat (first | decide +kernel | (intro us h; cases h) | apply And.intro))
  · (dsimp only [Ready, Inside, OnIdleShuttle, PolicyRuns, TickInv]; repeat (first | decide +kernel | (intro us h; cases h) | apply And.intro))
  · (dsimp only [Ready, Inside, OnIdleShuttle, PolicyRuns, TickInv]; repeat (first | decide +kernel | (intro us h; cases h) | apply And.intro))
  · (dsimp only [Ready, Inside, OnIdleShuttle, PolicyRuns, TickInv]; repeat (first | decide +kernel | (intro us h; cases h) | apply And.intro))
  · (dsimp only [Ready, Inside, OnIdleShuttle, PolicyRuns, TickInv]; repeat (first | decide +kernel | (intro us h; cases h) | apply And.intro))
  · (dsimp only [Ready, Inside, OnIdleShuttle, PolicyRuns, TickInv]; repeat (first | decide +kernel | (intro us h; cases h) | apply And.intro))
  · exact ⟨adminRuns_of (by decide), by decide, by decide, by
      show WatchS.unwrap _ (((leBytes 8 0x55 ++ wWrapped).drop 8).take 40) = some wKey
      rw [show ((leBytes 8 0x55 ++ wWrapped).drop 8).take 40 = wWrapped by decide +kernel]; exact unwrap_wWrapped _ rfl rfl⟩
  · (dsimp only [Ready, Inside, OnIdleShuttle, PolicyRuns, TickInv]; repeat (first | decide +kernel | (intro us h; cases h) | apply And.intro))
  · (dsimp only [Ready, Inside, OnIdleShuttle, PolicyRuns, TickInv]; repeat (first | decide +kernel | (intro us h; cases h) | apply And.intro))
  · (dsimp only [Ready, Inside, OnIdleShuttle, PolicyRuns, TickInv]; repeat (first | decide +kernel | (intro us h; cases h) | apply And.intro))
  · (dsimp only [Ready, Inside, OnIdleShuttle, PolicyRuns, TickInv]; repeat (first | decide +kernel | (intro us h; cases h) | apply And.intro))
  · (dsimp only [Ready, Inside, OnIdleShuttle, PolicyRuns, TickInv]; repeat (first | decide +kernel | (intro us h; cases h) | apply And.intro))
  · (dsimp only [Ready, Inside, OnIdleShuttle, PolicyRuns, TickInv]; repeat (first | decide +kernel | (intro us h; cases h) | apply And.intro))

/-- States and operands that meet the hypotheses of ImageCommands. -/
theorem witness_ImageCommands :
  (let s : State := { wAdmin 0 (wCmd 0x89 0 0xfc50000000000000 0x2000) with
     slices := [(0, .of sliceS0), (63, .of { st := .frozen })]
     sliceX := [(63, { kekId := some 0x55, since := some 7, memKey := some 3, journalKey := some [4], kek := wKek })]
     chans := [(5, .of { role := .xport, st := .idle })] }
   let e : Entry := wCmd 0x89 0 0xfc50000000000000 0x2000
   let k : Slice := 63
   let kek : W64 := 0x55
   let since : BitVec 48 := 7
   let x := s.sliceXAt k.toNat
   let bs := s.imageBytes k.toNat kek since
   let ch := fld e.q1 57 52
   AdminRuns s 0 0x89 e ∧ fld e.q1 63 58 = k.toNat ∧ e.q2.toNat % 4096 = 0 ∧ x.kekId = some kek ∧ x.since = some since ∧
     (s.slice k.toNat).st = .frozen ∧ s.exportChan ch = true ∧ bs.length ≤ imageMax ∧ s.exportFree ch = true ∧
     (s.imagePages k.toNat).all (s.dramOk k.toNat) = true ∧ s.loading = none) ∧
  (let s : State := { wAdmin 0 (wCmd 0x89 0 0xfc50000000000000 0x2000) with
     slices := [(0, .of sliceS0), (63, .of { st := .running })]
     sliceX := [(63, { kekId := some 0x55, since := some 7, memKey := some 3, journalKey := some [4], kek := wKek })]
     chans := [(5, .of { role := .xport, st := .idle })] }
   let e : Entry := wCmd 0x89 0 0xfc50000000000000 0x2000
   let k : Slice := 63
   AdminRuns s 0 0x89 e ∧ fld e.q1 63 58 = k.toNat ∧ e.q2.toNat % 4096 = 0 ∧ (s.slice k.toNat).st ≠ .frozen) ∧
  (let s : State := { wAdmin 0 (wCmd 0x89 0 0xfc50000000000000 0x2008) with
     slices := [(0, .of sliceS0), (63, .of { st := .running })]
     sliceX := [(63, { kekId := some 0x55, since := some 7, memKey := some 3, journalKey := some [4], kek := wKek })]
     chans := [(5, .of { role := .xport, st := .idle })] }
   let e : Entry := wCmd 0x89 0 0xfc50000000000000 0x2008
   AdminRuns s 0 0x89 e ∧ e.q2.toNat % 4096 ≠ 0) ∧
  (let s : State := { wAdmin 0 (wCmd 0x8a 0 0xfc50000000000000 0x2000) with
     sliceX := [(63, { kekId := some 0x55, since := some 7, memKey := some 3, journalKey := some [4], kek := wKek })]
     chans := [(5, .of { role := .xport, st := .idle })] }
   let e : Entry := wCmd 0x8a 0 0xfc50000000000000 0x2000
   let k : Slice := 63
   let ch := fld e.q1 57 52
   AdminRuns s 0 0x8A e ∧ fld e.q1 63 58 = k.toNat ∧ e.q2.toNat % 4096 = 0 ∧ k ≠ 0 ∧ s.exportChan ch = true ∧ s.exportFree ch = true) ∧
  (let s : State := { wAdmin 0 (wCmd 0x8a 0 0x50000000000000 0x2000) with
     sliceX := [(63, { kekId := some 0x55, since := some 7, memKey := some 3, journalKey := some [4], kek := wKek })]
     chans := [(5, .of { role := .xport, st := .idle })] }
   let e : Entry := wCmd 0x8a 0 0x50000000000000 0x2000
   AdminRuns s 0 0x8A e ∧ fld e.q1 63 58 = 0 ∧ e.q2.toNat % 4096 = 0) ∧
  (let s : State := { wAdmin 0 (wCmd 0x0 0 0xfc00000000000000 0x0) with
     chans := [(5, .of { role := .xport, st := .running, active := some { w0 := 0x2000 }, job := some (.load 63), data := wImage })]
     sliceX := [(63, { kekId := some 0x55, kek := wKek })] }
   let k : Slice := 63
   let body : List W64 := [1]
   let c : Nat := 5
   let d : Desc := { w0 := 0x2000 }
   let x := s.sliceXAt k.toNat
   let found := imageCheck x.kekId x.kek (s.chan c).data
   s.loading = some (c, k) ∧ s.working = true ∧ s.chanWorks c = true ∧ (s.chan c).active = some d ∧ (s.chan c).armed = false ∧
     (s.chan c).chainFail = false ∧ (s.chan c).st = .running ∧ found = some (some body)) ∧
  (let s : State := { wAdmin 0 (wCmd 0x0 0 0xfc00000000000000 0x0) with
     chans := [(5, .of { role := .xport, st := .running, active := some { w0 := 0x2000 }, job := some (.load 63), data := 0x4D :: wHdr })]
     sliceX := [(63, { kekId := some 0x55, kek := wKek })] }
   let k : Slice := 63
   let c : Nat := 5
   let d : Desc := { w0 := 0x2000 }
   let x := s.sliceXAt k.toNat
   let found := imageCheck x.kekId x.kek (s.chan c).data
   s.loading = some (c, k) ∧ s.working = true ∧ s.chanWorks c = true ∧ (s.chan c).active = some d ∧ (s.chan c).armed = false ∧
     (s.chan c).chainFail = false ∧ (s.chan c).st = .running ∧ found = some none) ∧
  (let s : State := { wAdmin 0 (wCmd 0x0 0 0xfc00000000000000 0x0) with
     chans := [(5, .of { role := .xport, st := .running, active := some { w0 := 0x2000 }, job := some (.load 63), data := List.replicate 95 0 })]
     sliceX := [(63, { kekId := some 0x55, kek := wKek })] }
   let k : Slice := 63
   let c : Nat := 5
   let d : Desc := { w0 := 0x2000 }
   let x := s.sliceXAt k.toNat
   let found := imageCheck x.kekId x.kek (s.chan c).data
   s.loading = some (c, k) ∧ s.working = true ∧ s.chanWorks c = true ∧ (s.chan c).active = some d ∧ (s.chan c).armed = false ∧
     (s.chan c).chainFail = false ∧ (s.chan c).st = .running ∧ found = none) ∧
  (let s : State := { wAdmin 0 (wCmd 0x8b 0 0xfc00000000000000 0x0) with
     stagedImage := some (63, ([0x0001000000000080, 0, 0, 0x80000000] ++ List.replicate 13 0)) }
   let e : Entry := wCmd 0x8b 0 0xfc00000000000000 0x0
   let k : Slice := 63
   let body : List W64 := ([0x0001000000000080, 0, 0, 0x80000000] ++ List.replicate 13 0)
   AdminRuns s 0 0x8B e ∧ s.stagedImage = some (k, body) ∧ s.recStatus k.toNat false (sectionOf body 0x01) = 0) ∧
  (let s : State := { wAdmin 0 (wCmd 0x8b 0 0x0 0x0) with loadTarget := none }
   let e : Entry := wCmd 0x8b 0 0x0 0x0
   AdminRuns s 0 0x8B e ∧ s.stagedImage = none) ∧
  (let s : State := { wAdmin 3 (wCmd 0x8b 0 0x0 0x0) with loadTarget := none }
   let e : Entry := wCmd 0x8b 0 0x0 0x0
   let sl : Slice := 3
   AdminRuns s sl 0x8B e ∧ sl ≠ 0) := by
  refine ⟨?_, ?_, ?_, ?_, ?_, ?_, ?_, ?_, ?_, ?_, ?_⟩
  · exact ⟨adminRuns_of (by decide), by decide +kernel⟩
  · (dsimp only [Ready, Inside, OnIdleShuttle, PolicyRuns, TickInv]; repeat (first | decide +kernel | (intro us h; cases h) | apply And.intro))
  · (dsimp only [Ready, Inside, OnIdleShuttle, PolicyRuns, TickInv]; repeat (first | decide +kernel | (intro us h; cases h) | apply And.intro))
  · (dsimp only [Ready, Inside, OnIdleShuttle, PolicyRuns, TickInv]; repeat (first | decide +kernel | (intro us h; cases h) | apply And.intro))
  · (dsimp only [Ready, Inside, OnIdleShuttle, PolicyRuns, TickInv]; repeat (first | decide +kernel | (intro us h; cases h) | apply And.intro))
  · exact ⟨by decide, by decide, by decide, by decide, by decide, by decide, by decide, wImage_check⟩
  · decide
  · decide
  · (dsimp only [Ready, Inside, OnIdleShuttle, PolicyRuns, TickInv]; repeat (first | decide +kernel | (intro us h; cases h) | apply And.intro))
  · (dsimp only [Ready, Inside, OnIdleShuttle, PolicyRuns, TickInv]; repeat (first | decide +kernel | (intro us h; cases h) | apply And.intro))
  · (dsimp only [Ready, Inside, OnIdleShuttle, PolicyRuns, TickInv]; repeat (first | decide +kernel | (intro us h; cases h) | apply And.intro))

/-- States and operands that meet the hypotheses of SliceEffectsLinksAndPages. -/
theorem witness_SliceEffectsLinksAndPages :
  (let s : State := { wBase with fillRoom := 65536, scrubRoom := 18750 }
   let k : Slice := 63
   let x := s.slice k.toNat
   x.bound = false) ∧
  (let s : State := { wBase with
     fillRoom := 65536
     scrubRoom := 18750
     slices := [(0, .of sliceS0), (63, .of { st := .running, linkDown := true, bound := true, link := 1 })]
     pot := [(7000, .of { st := .fill, sl := 63 })]
     scrubPos := 67108863 }
   let k : Slice := 63
   let x := s.slice k.toNat
   x.st = .running) ∧
  (let s : State := { wBase with
     fillRoom := 65536
     scrubRoom := 18750
     slices := [(0, .of sliceS0), (63, .of { st := .frozen, linkDown := true, bound := true, link := 1 })]
     sliceX := [(63, { kekId := some 4, since := some 3, event := 9 })]
     doms := [] }
   let k : Slice := 63
   let x := s.slice k.toNat
   x.st = .frozen) ∧
  (let s : State := { wBase with fillRoom := 65536, scrubRoom := 18750 }
   let pg : W16 := 6208
   s.configReady = true ∧ s.domOn 9 = true ∧ (s.nextFill ≠ some pg.toNat ∨ s.fillRoom < 65536) ∧ s.scrubPos < 67108864) ∧
  (let s : State := { wBase with
     fillRoom := 65536
     supply := { wBase.supply with restoring := true }
     scrubRoom := 18750
     slices := [(0, .of sliceS0), (63, .of { st := .defined })] }
   s.configReady = false) ∧
  (let s : State := { wBase with
     fillRoom := 65536
     scrubRoom := 18750
     slices := [(0, .of sliceS0), (63, .of { st := .running, linkDown := true, bound := true, link := 1 })]
     pot := [(7000, .of { st := .fill, sl := 63 })]
     scrubPos := 67108863 }
   let pg : W16 := 7000
   s.nextFill = some pg.toNat ∧ s.domOn 9 = true ∧ 65536 ≤ s.fillRoom) ∧
  (let s : State := { wBase with
     fillRoom := 65536
     scrubRoom := 18750
     slices := [(0, .of sliceS0), (63, .of { st := .frozen, linkDown := true, bound := true, link := 1 })]
     sliceX := [(63, { kekId := some 4, since := some 3, event := 9 })]
     doms := [] }
   s.domOn 9 = false) := by
  refine ⟨?_, ?_, ?_, ?_, ?_, ?_, ?_⟩
  · decide
  · decide
  · decide
  · decide
  · decide
  · decide
  · decide

/-- States and operands that meet the hypotheses of EventCommands. -/
theorem witness_EventCommands :
  (let s : State := wAdmin 3 (wCmd 0x40 0 0x6ffffffc00000000 0)
   let sl : Slice := 3
   let e : Entry := wCmd 0x40 0 0x6ffffffc00000000 0
   let l : Link := 0
   let w : BitVec 4 := 0
   let v : W32 := 0
   let k : Nat := 0
   let g := fld e.q1 63 59
   let ids := sourceRange e
   let x := s.link l.toNat
   AdminRuns s sl 0x40 e ∧ ids ≠ [] ∧ groupScope g = some .slice ∧ s.windowSlice l.toNat w.toNat = some k ∧
     ((∀ y ∈ x.fbEntry, v.getLsbD y.1 = false)) ∧ x.fbEntry = [] ∧ x.pba = 0) ∧
  (let s : State := wAdmin 0 (wCmd 0x40 0 0x1a00000000 0)
   let sl : Slice := 0
   let e : Entry := wCmd 0x40 0 0x1a00000000 0
   let g := fld e.q1 63 59
   let ids := sourceRange e
   AdminRuns s sl 0x40 e ∧ ids ≠ [] ∧ groupScope g = some .shared ∧ ((∀ i ∈ ids, s.routedTo (srcKey sharedSpace g i) = sl.toNat))) ∧
  (let s : State := wAdmin 3 (wCmd 0x40 0 0x1a00000000 0)
   let sl : Slice := 3
   let e : Entry := wCmd 0x40 0 0x1a00000000 0
   let g := fld e.q1 63 59
   let ids := sourceRange e
   AdminRuns s sl 0x40 e ∧ groupScope g = some .shared ∧ ((∃ i ∈ ids, s.routedTo (srcKey sharedSpace g i) ≠ sl.toNat))) ∧
  (let s : State := wAdmin 3 (wCmd 0x40 0 0xf800001a00000000 0)
   let sl : Slice := 3
   let e : Entry := wCmd 0x40 0 0xf800001a00000000 0
   let g := fld e.q1 63 59
   let ids := sourceRange e
   AdminRuns s sl 0x40 e ∧ ((groupScope g = none ∨ ids = []))) ∧
  (let s : State := wAdmin 3 (wCmd 0x40 0 0x9000001a00000000 0)
   let sl : Slice := 3
   let e : Entry := wCmd 0x40 0 0x9000001a00000000 0
   let g := fld e.q1 63 59
   let ids := sourceRange e
   AdminRuns s sl 0x40 e ∧ ids ≠ [] ∧ groupScope g = some .priv) ∧
  (let s : State := wAdmin 0 (wCmd 0x41 0 0x3800001df8000000 0)
   let sl : Slice := 0
   let e : Entry := wCmd 0x41 0 0x3800001df8000000 0
   let g := fld e.q1 63 59
   let ids := sourceRange e
   AdminRuns s 0 0x41 e ∧ sl = 0 ∧ ids ≠ [] ∧ groupScope g = some .shared ∧ ((g ≠ 0 ∨ fld e.q1 32 27 = 0))) ∧
  (let s : State := wAdmin 0 (wCmd 0x41 0 0x6800001df8000000 0)
   let e : Entry := wCmd 0x41 0 0x6800001df8000000 0
   let g := fld e.q1 63 59
   let ids := sourceRange e
   AdminRuns s 0 0x41 e ∧ ids ≠ [] ∧ ((groupScope g = some .slice ∨ (g = 0 ∧ fld e.q1 32 27 ≠ 0)))) ∧
  (let s : State := { wBase with
     links := [(3, { fbEntry := [(7, { src := 5, tick := 1, id := 5, group := 31, fast := false, spilled := false, slice := 0, payload := 0 })], fbArmed := false, msixEnable := true })] }
   let l : Link := 3
   let v : W32 := 0x80
   let x := s.link l.toNat
   x.fbEntry ≠ [] ∧ ((∀ y ∈ x.fbEntry, v.getLsbD y.1 = true))) ∧
  (let s : State := { wBase with
     links := [(3, { fbEntry := [(7, { src := 5, tick := 1, id := 5, group := 31, fast := false, spilled := false, slice := 0, payload := 0 })], fbMask := true, fbArmed := true, msixEnable := true, msixTable := [(64 * 4 + 3, 0)] })] }
   let l : Link := 3
   let v : W32 := 1
   let x := s.link l.toNat
   x.fbEntry ≠ [] ∧ x.fbArmed = true ∧ v.getLsbD 31 = false ∧ x.msixEnable = true ∧ x.msixFnMask = false ∧ x.vecMasked 64 = false ∧
     x.d3hot = false) := by
  refine ⟨?_, ?_, ?_, ?_, ?_, ?_, ?_, ?_, ?_⟩
  · (dsimp only [Ready, Inside, OnIdleShuttle, PolicyRuns, TickInv]; repeat (first | decide +kernel | (intro us h; cases h) | apply And.intro))
  · (dsimp only [Ready, Inside, OnIdleShuttle, PolicyRuns, TickInv]; repeat (first | decide +kernel | (intro us h; cases h) | apply And.intro))
  · (dsimp only [Ready, Inside, OnIdleShuttle, PolicyRuns, TickInv]; repeat (first | decide +kernel | (intro us h; cases h) | apply And.intro))
  · (dsimp only [Ready, Inside, OnIdleShuttle, PolicyRuns, TickInv]; repeat (first | decide +kernel | (intro us h; cases h) | apply And.intro))
  · (dsimp only [Ready, Inside, OnIdleShuttle, PolicyRuns, TickInv]; repeat (first | decide +kernel | (intro us h; cases h) | apply And.intro))
  · (dsimp only [Ready, Inside, OnIdleShuttle, PolicyRuns, TickInv]; repeat (first | decide +kernel | (intro us h; cases h) | apply And.intro))
  · (dsimp only [Ready, Inside, OnIdleShuttle, PolicyRuns, TickInv]; repeat (first | decide +kernel | (intro us h; cases h) | apply And.intro))
  · decide
  · decide

/-- States and operands that meet the hypotheses of RegisterAccesses. -/
theorem witness_RegisterAccesses :
  (let s : State := { wBase with
     tick := { wBase.tick with n := 0x123456789ABC }
     links := [(0, { indAddr := 0, err := 0x82, errCnt := 0xFFFFFFFF })]
     sliceX := [(0, { event := 5 })] }
   let l : Link := 0
   let off : BarOff := 256
   let w : BitVec 4 := 0
   let sl : Nat := 0
   let x := s.link l.toNat
   s.comWarden = l.toNat ∧ off.toNat / 4 ≠ 0x41 ∧ s.implemented l.toNat off = true ∧ s.windowSlice l.toNat w.toNat = some sl ∧
     indReg x.indAddr = none) ∧
  (let s : State := { wBase with
     tick := { wBase.tick with n := 0x123456789ABC }
     links := [(3, { indAddr := 131072, err := 0x82, errCnt := 0xFFFFFFFF })]
     sliceX := [(0, { event := 5 })] }
   let l : Link := 3
   let w : BitVec 4 := 0
   let r : IndReg := .port 0 0
   let x := s.link l.toNat
   s.comWarden ≠ l.toNat ∧ s.windowSlice l.toNat w.toNat = none ∧ indReg x.indAddr = some r ∧ s.domainDown r = false ∧ r.guarded = true) ∧
  (let s : State := { wBase with
     tick := { wBase.tick with n := 0x123456789ABC }
     links := [(3, { indAddr := 524544, err := 0x82, errCnt := 0xFFFFFFFF })]
     sliceX := [(0, { event := 5 })] }
   let l : Link := 3
   let off : BarOff := 2097148
   off.toNat % 4 = 0 ∧ s.implemented l.toNat off = false ∧ off.toNat / 4 ≠ 0x41) ∧
  (let off : BarOff := 257
   off.toNat % 4 ≠ 0 ∧ off.toNat / 4 ≠ 0x41) ∧
  (let s : State := { wBase with links := [(3, { indAddr := 0x20004 })] }
   let l : Link := 3
   let r : IndReg := .port 0 1
   let x := s.link l.toNat
   indReg x.indAddr = some r ∧ s.domainDown r = false ∧ r.guarded = false) ∧
  (let s : State := { wBase with doms := [], links := [(3, { indAddr := 0x30000 })] }
   let l : Link := 3
   let r : IndReg := .stage 0
   let x := s.link l.toNat
   indReg x.indAddr = some r ∧ s.domainDown r = true) := by
  refine ⟨?_, ?_, ?_, ?_, ?_, ?_⟩
  · decide
  · decide
  · decide
  · decide
  · decide
  · decide

/-- States and operands that meet the hypotheses of PortPowerCommands. -/
theorem witness_PortPowerCommands :
  (let s : State := { wAdmin 3 (wCmd 0x70 0 0x7f00000000000000 0) with attach := [(routeKey 15 [], .of (some (3, false)))] }
   let sl : Slice := 3
   let e : Entry := wCmd 0x70 0 0x7f00000000000000 0
   let p := fld e.q1 63 59
   AdminRuns s sl 0x70 e ∧ p ≤ 15 ∧ s.portOwner p = sl.toNat) ∧
  (let s : State := { wAdmin 3 (wCmd 0x71 0 0x7fa8532f01000000 0) with attach := [(routeKey 15 [], .of (some (3, false)))] }
   let sl : Slice := 3
   let e : Entry := wCmd 0x71 0 0x7fa8532f01000000 0
   let p := fld e.q1 63 59
   AdminRuns s sl 0x71 e ∧ p ≤ 15 ∧ s.portOwner p = sl.toNat ∧
     directOk (fld e.q1 58 54) (fld e.q1 53 47) (fld e.q1 46 42) (fld e.q1 41 36) (fld e.q1 31 24) = true) ∧
  (let s : State := { wAdmin 3 (wCmd 0x71 0 0x7fe8532f01000000 0) with attach := [(routeKey 15 [], .of (some (3, false)))] }
   let sl : Slice := 3
   let e : Entry := wCmd 0x71 0 0x7fe8532f01000000 0
   let p := fld e.q1 63 59
   AdminRuns s sl 0x71 e ∧ p ≤ 15 ∧ s.portOwner p = sl.toNat ∧
     directOk (fld e.q1 58 54) (fld e.q1 53 47) (fld e.q1 46 42) (fld e.q1 41 36) (fld e.q1 31 24) = false) ∧
  (let s : State := { wAdmin 3 (wCmd 0x72 0 0x7c00000000000000 0) with attach := [(routeKey 15 [], .of (some (3, false)))] }
   let sl : Slice := 3
   let e : Entry := wCmd 0x72 0 0x7c00000000000000 0
   let p := fld e.q1 63 59
   AdminRuns s sl 0x72 e ∧ p ≤ 15 ∧ s.portOwner p = sl.toNat) ∧
  (let s : State := { wAdmin 3 (wCmd 0x73 0 0x7800000000000000 0) with attach := [(routeKey 15 [], .of (some (3, false)))] }
   let sl : Slice := 3
   let e : Entry := wCmd 0x73 0 0x7800000000000000 0
   let p := fld e.q1 63 59
   AdminRuns s sl 0x73 e ∧ p ≤ 15 ∧ s.portOwner p = sl.toNat) ∧
  (let s : State := wAdmin 0 (wCmd 0x74 0 0x7800000000000000 0)
   let sl : Slice := 0
   let e : Entry := wCmd 0x74 0 0x7800000000000000 0
   let p := fld e.q1 63 59
   AdminRuns s sl 0x74 e ∧ p ≤ 15 ∧ sl = 0) ∧
  (let s : State := wAdmin 3 (wCmd 0x74 0 0x7800000000000000 0)
   let sl : Slice := 3
   let e : Entry := wCmd 0x74 0 0x7800000000000000 0
   let p := fld e.q1 63 59
   AdminRuns s sl 0x74 e ∧ p ≤ 15 ∧ sl ≠ 0) ∧
  (let s : State := wAdmin 3 (wCmd 0x70 0 0x8000000000000000 0)
   let sl : Slice := 3
   let e : Entry := wCmd 0x70 0 0x8000000000000000 0
   let c : Instr := Instr.setPortProfile 3
   let op : Nat := 0x70
   let p := fld e.q1 63 59
   AdminRuns s sl op e ∧ (((c = .setPortProfile sl ∧ op = 0x70) ∨ (c = .setPortDirect sl ∧ op = 0x71) ∨ (c = .portPower sl ∧
     op = 0x72) ∨ (c = .portRearm sl ∧ op = 0x73))) ∧ 15 < p) ∧
  (let s : State := wAdmin 3 (wCmd 0x70 0 0x7800000000000000 0)
   let sl : Slice := 3
   let e : Entry := wCmd 0x70 0 0x7800000000000000 0
   let c : Instr := Instr.setPortProfile 3
   let op : Nat := 0x70
   let p := fld e.q1 63 59
   AdminRuns s sl op e ∧ (((c = .setPortProfile sl ∧ op = 0x70) ∨ (c = .setPortDirect sl ∧ op = 0x71) ∨ (c = .portPower sl ∧
     op = 0x72) ∨ (c = .portRearm sl ∧ op = 0x73))) ∧ p ≤ 15 ∧ s.portOwner p ≠ sl.toNat) := by
  refine ⟨?_, ?_, ?_, ?_, ?_, ?_, ?_, ?_, ?_⟩
  · (dsimp only [Ready, Inside, OnIdleShuttle, PolicyRuns, TickInv]; repeat (first | decide +kernel | (intro us h; cases h) | apply And.intro))
  · (dsimp only [Ready, Inside, OnIdleShuttle, PolicyRuns, TickInv]; repeat (first | decide +kernel | (intro us h; cases h) | apply And.intro))
  · (dsimp only [Ready, Inside, OnIdleShuttle, PolicyRuns, TickInv]; repeat (first | decide +kernel | (intro us h; cases h) | apply And.intro))
  · (dsimp only [Ready, Inside, OnIdleShuttle, PolicyRuns, TickInv]; repeat (first | decide +kernel | (intro us h; cases h) | apply And.intro))
  · (dsimp only [Ready, Inside, OnIdleShuttle, PolicyRuns, TickInv]; repeat (first | decide +kernel | (intro us h; cases h) | apply And.intro))
  · (dsimp only [Ready, Inside, OnIdleShuttle, PolicyRuns, TickInv]; repeat (first | decide +kernel | (intro us h; cases h) | apply And.intro))
  · (dsimp only [Ready, Inside, OnIdleShuttle, PolicyRuns, TickInv]; repeat (first | decide +kernel | (intro us h; cases h) | apply And.intro))
  · (dsimp only [Ready, Inside, OnIdleShuttle, PolicyRuns, TickInv]; repeat (first | decide +kernel | (intro us h; cases h) | apply And.intro))
  · (dsimp only [Ready, Inside, OnIdleShuttle, PolicyRuns, TickInv]; repeat (first | decide +kernel | (intro us h; cases h) | apply And.intro))

/-- States and operands that meet the hypotheses of FuseEvents. -/
theorem witness_FuseEvents :
  (let s : State := { wPort 15 { st := .powering, shown := .powering, since := 99 } with power := [(15, {  })] }
   let p : Port := 15
   let i : W16 := 0
   let ns : W16 := 0
   let vout : W16 := 0
   let vbus : W16 := 0
   let us : W16 := 0
   let sensor : W16 := 0
   let board : W16 := 0
   let k := p.toNat
   let f := s.fuse k
   let limit := min (s.comPSet k).ilim ((s.comPSet k).ilimSet * 10)
   let above := 50 < i.toNat ∧ limit < 4 * i.toNat ∧ limit * vout.toNat < i.toNat * vbus.toNat
   let below := i.toNat < 50 ∨ 4 * i.toNat < limit ∨ i.toNat * vbus.toNat < limit * vout.toNat
   let hotter := PortP.heat ((vbus.toNat - vout.toNat) * i.toNat) us.toNat f
   let model := board + BitVec.ofNat 16 ((hotter.riseJc + hotter.riseCb) / 100000000)
   (s.port k).st = .powering ∧ (s.port k).shown = .powering ∧ (s.port k).since.toNat < s.now ∧ f.gate = false ∧ s.domOn 12 = true ∧
     s.relay.getLsbD k = false ∧ ¬above ∧ ((f.limiting = false ∨ ¬below)) ∧ ((f.gate = false ∨ i.toNat ≤ 1600 ∨ ns.toNat < 2000)) ∧
     f.overFor < 400 ∧ sensor.toInt < 1500 ∧ model.toInt < 1500 ∧ ((vout.toNat ≤ 1000 ∨ us.toNat ≤ 5000)) ∧ f.poweredAt = none) ∧
  (let s : State := { wPort 15 { st := .powering } with power := [(15, { gate := true, st := .ramping })] }
   let p : Port := 15
   let cyc : Cycle := 77
   let i : W16 := 1600
   let vout : W16 := 0
   let vbus : W16 := 50000
   let k := p.toNat
   let f := s.fuse k
   let clk := s.clockAt cyc
   let limit := min (s.comPSet k).ilim ((s.comPSet k).ilimSet * 10)
   let above := 50 < i.toNat ∧ limit < 4 * i.toNat ∧ limit * vout.toNat < i.toNat * vbus.toNat
   f.gate = true ∧ f.limiting = false ∧ above ∧ i.toNat ≤ 1600 ∧ f.pg = false ∧ f.released = none ∧ f.st = .ramping ∧ f.ramped = false ∧
     f.rampAt + f.rampT * 100000 ≤ clk ∧ vout.toNat * 2 < vbus.toNat) ∧
  (let s : State := { wPort 15 { st := .powerWait } with power := [(15, { gate := true, st := .on, pg := true, pgAt := some 1250077 })] }
   let p : Port := 15
   let cyc : Cycle := 77
   let i : W16 := 1600
   let vout : W16 := 0
   let vbus : W16 := 50000
   let k := p.toNat
   let f := s.fuse k
   let clk := s.clockAt cyc
   let limit := min (s.comPSet k).ilim ((s.comPSet k).ilimSet * 10)
   let above := 50 < i.toNat ∧ limit < 4 * i.toNat ∧ limit * vout.toNat < i.toNat * vbus.toNat
   f.gate = true ∧ f.limiting = false ∧ above ∧ i.toNat ≤ 1600 ∧ f.pg = true ∧ f.pgAt = some clk) ∧
  (let s : State := { wPort 15 { st := .powering } with power := [(15, { gate := true, st := .ramping, limiting := true, timerFrom := 1250000, timer := 5 })] }
   let p : Port := 15
   let cyc : Cycle := 77
   let i : W16 := 10
   let vout : W16 := 40000
   let vbus : W16 := 50000
   let k := p.toNat
   let f := s.fuse k
   let clk := s.clockAt cyc
   let limit := min (s.comPSet k).ilim ((s.comPSet k).ilimSet * 10)
   let below := i.toNat < 50 ∨ 4 * i.toNat < limit ∨ i.toNat * vbus.toNat < limit * vout.toNat
   f.limiting = true ∧ below ∧ f.gate = true ∧ f.st = .ramping ∧ f.ramped = false ∧ f.rampAt + f.rampT * 100000 ≤ clk ∧
     vbus.toNat ≤ vout.toNat * 2 ∧ vout.toNat * 10 < vbus.toNat * 9) ∧
  (let s : State := { wPort 15 { st := .powering } with power := [(15, { gate := true, st := .ramping, rampAt := 750077 })] }
   let p : Port := 15
   let cyc : Cycle := 77
   let vout : W16 := 45000
   let vbus : W16 := 50000
   let k := p.toNat
   let f := s.fuse k
   let clk := s.clockAt cyc
   f.gate = true ∧ f.st = .ramping ∧ f.ramped = false ∧ f.rampAt + f.rampT * 100000 ≤ clk ∧ vbus.toNat * 9 ≤ vout.toNat * 10 ∧
     f.limiting = false) ∧
  (let s : State := { wPort 15 { st := .powering } with power := [(15, { gate := true, st := .ramping, ramped := true, rampAt := 1250000, pgFault := 5 })] }
   let p : Port := 15
   let cyc : Cycle := 77
   let i : W16 := 1601
   let ns : W16 := 2000
   let vout : W16 := 45000
   let vbus : W16 := 50000
   let k := p.toNat
   let f := s.fuse k
   let clk := s.clockAt cyc
   f.gate = true ∧ f.ramped = true ∧ f.pg = false ∧ f.limiting = false ∧ vbus.toNat * 9 ≤ vout.toNat * 10 ∧
     clk ≤ f.rampAt + (f.rampT + f.pgFault) * 100000 ∧ 1600 < i.toNat ∧ 2000 ≤ ns.toNat) ∧
  (let s : State := { wPort 15 { st := .powering } with power := [(15, { gate := true, st := .ramping, ramped := true, rampAt := 0, rampT := 5, faultT := 7, pgFault := 5, retries := 8 })] }
   let p : Port := 15
   let cyc : Cycle := 77
   let k := p.toNat
   let f := s.fuse k
   let clk := s.clockAt cyc
   f.gate = true ∧ f.ramped = true ∧ f.pg = false ∧ f.rampAt + (f.rampT + f.pgFault) * 100000 ≤ clk) ∧
  (let s : State := { wPort 15 { st := .active } with power := [(15, { gate := true, st := .on, limiting := true, timerFrom := 50077, timer := 800000, retries := 7 })], tick := { wBase.tick with n := 100 } }
   let p : Port := 15
   let cyc : Cycle := 77
   let k := p.toNat
   let f := s.fuse k
   let clk := s.clockAt cyc
   f.gate = true ∧ f.limiting = true ∧ f.faultT * 100000 ≤ f.timer + (clk - f.timerFrom)) ∧
  (let s : State := { wPort 15 { st := .active } with power := [(15, { gate := true, st := .on, pg := true, overFor := 400, riseJc := 100000000 })] }
   let p : Port := 15
   let i : W16 := 100
   let vout : W16 := 49000
   let vbus : W16 := 50000
   let us : W16 := 1000
   let sensor : W16 := 1500
   let board : W16 := 1500
   let k := p.toNat
   let f := s.fuse k
   let hotter := PortP.heat ((vbus.toNat - vout.toNat) * i.toNat) us.toNat f
   let model := board + BitVec.ofNat 16 ((hotter.riseJc + hotter.riseCb) / 100000000)
   f.gate = true ∧ 400 ≤ f.overFor ∧ s.domOn 12 = true ∧ ((1500 ≤ sensor.toInt ∨ 1500 ≤ model.toInt))) ∧
  (let s : State := { wPort 15 { st := .active } with doms := [], power := [(15, { gate := true, st := .on, pg := true, overFor := 400, riseJc := 100000000 })] }
   s.domOn 12 = false) ∧
  (let s : State := { wPort 15 { st := .detached } with power := [(15, { offAt := 1150077 })] }
   let p : Port := 15
   let cyc : Cycle := 77
   let vout : W16 := 1001
   let us : W16 := 5001
   let k := p.toNat
   let f := s.fuse k
   let clk := s.clockAt cyc
   s.domOn 12 = true ∧ f.gate = false ∧ f.offAt + 100000 ≤ clk ∧ 1000 < vout.toNat ∧ 5000 < us.toNat ∧ s.relay.getLsbD k = false) ∧
  (let s : State := { wPort 15 { st := .fault } with power := [(15, { st := .wait, retryAt := some 100, cause := .thermal, sensor := 1249, model := 1249 })] }
   let p : Port := 15
   let a : BitVec 48 := 100
   let k := p.toNat
   let f := s.fuse k
   f.st = .wait ∧ f.retryAt = some a ∧ a.toNat ≤ s.now ∧ ((f.cause ≠ .thermal ∨ (f.sensor.toInt < 1250 ∧ f.model.toInt < 1250))) ∧
     s.relay.getLsbD k = false) ∧
  (let s : State := { wPort 15 { st := .fault } with power := [(15, { st := .wait, retryAt := some 100, cause := .thermal, sensor := 1250, model := 1249 })] }
   let p : Port := 15
   let k := p.toNat
   let f := s.fuse k
   f.cause = .thermal ∧ 1250 ≤ f.sensor.toInt) ∧
  (let s : State := { wPort 15 { st := .active } with power := [(15, { poweredAt := some 20, retries := 3 })], tick := { wBase.tick with n := 80020 } }
   let p : Port := 15
   let a : BitVec 48 := 20
   let k := p.toNat
   let f := s.fuse k
   f.poweredAt = some a ∧ a.toNat + 80000 ≤ s.now) := by
  refine ⟨?_, ?_, ?_, ?_, ?_, ?_, ?_, ?_, ?_, ?_, ?_, ?_, ?_, ?_⟩
  · decide
  · decide
  · decide
  · decide
  · decide
  · decide
  · decide
  · decide
  · decide
  · decide
  · decide
  · decide
  · decide
  · decide

/-- States and operands that meet the hypotheses of SupplyEvents. -/
theorem witness_SupplyEvents :
  (let s : State := { wBase with
     supply := { shedding := true }
     power := [(3, { gate := true, st := .on, pg := true }), (9, { gate := true, st := .on, pg := true })]
     ports := [(3, { st := .active }), (9, { st := .recovery })] }
   let p : Nat := 9
   let x := s.supply
   s.domOn 12 = true ∧ x.shedding = true ∧ x.shedAt ≠ some s.tick.n ∧ s.shedNext = some p ∧ x.st = .normal ∧ x.st ≠ .lastGasp ∧
     x.st ≠ .start) ∧
  (let s : State := { wBase with
     supply := { shedding := true, shedAt := some 100 }
     power := [(3, { gate := true, st := .on, pg := true }), (9, { gate := true, st := .on, pg := true })]
     ports := [(3, { st := .active }), (9, { st := .recovery })] }
   let x := s.supply
   ((x.shedding = false ∨ x.shedAt = some s.tick.n))) ∧
  (let s : State := { wBase with
     supply := { st := .holdup }
     power := [(3, { gate := true, st := .on, pg := true }), (9, { gate := true, st := .on, pg := true })]
     ports := [(3, { st := .active }), (9, { st := .recovery })] }
   let bus : W16 := 4449
   let x := s.supply
   s.domOn 12 = true ∧ x.st = .holdup ∧ x.back = false ∧ bus.toNat < 4450 ∧ ((x.st = .holdup ∨ x.st = .lastGasp))) ∧
  (let s : State := { wBase with
     supply := { st := .start }
     power := [(3, { gate := true, st := .on, pg := true }), (9, { gate := true, st := .on, pg := true })]
     ports := [(3, { st := .active }), (9, { st := .recovery })] }
   let x := s.supply
   x.st = .start) ∧
  (let s : State := { wBase with
     supply := { st := .lastGasp, energy := 15, lostAt := 90, rides := 0xFFFF }
     power := [(3, { gate := true, st := .on, pg := true }), (9, { gate := true, st := .on, pg := true })]
     ports := [(3, { st := .active }), (9, { st := .recovery })] }
   let x := s.supply
   x.st = .lastGasp) ∧
  (let s : State := { wBase with supply := { st := .start, inputOk := true } }
   let x := s.supply
   x.st = .start ∧ x.inputOk = true ∧ x.bankReady = false) ∧
  (let s : State := { wBase with supply := { st := .start, bankReady := true } }
   let x := s.supply
   x.bankReady = true ∧ x.st = .start) := by
  refine ⟨?_, ?_, ?_, ?_, ?_, ?_, ?_⟩
  · decide
  · decide
  · decide
  · decide
  · decide
  · decide
  · decide

/-- States and operands that meet the hypotheses of DomainCommands. -/
theorem witness_DomainCommands :
  (let s : State := { wBase with
     doms := (List.range' 1 12).map (fun j => (j, if j = 12 then { st := .on } else { st := .on, shown := .on })) }
   let l : Link := 0
   let d : Dom := .pd12
   let v : W32 := 0x1A
   let cyc : Cycle := 77
   let k := domNum d
   let x := s.dom k
   let clk := s.clockAt cyc
   s.comWarden = l.toNat ∧ s.supply.st ≠ .powerDown ∧ (s.link l.toNat).buf.length < 256 ∧ (s.link l.toNat).withheld = [] ∧
     v.getLsbD 3 = true ∧ v.getLsbD 4 = true ∧ x.since + 50000 < clk ∧ x.st ≠ .waking ∧ x.idle < 64 ∧ x.st ≠ .restoring) ∧
  (let s : State := wBase
   let l : Link := 3
   s.comWarden ≠ l.toNat) ∧
  (let s : State := { wBase with
     doms := (List.range' 1 12).map (fun j => (j, if j = 3 then { st := .retention } else { st := .on, shown := .on })) }
   let d : Dom := .pd3
   let k := domNum d
   let x := s.dom k
   ((k = 3 ∨ k = 5 ∨ k = 12)) ∧ x.st = .retention ∧ s.supply.hold = false) ∧
  (let s : State := { wBase with
     doms := (List.range' 1 12).map (fun j => (j, if j = 3 then { st := .off } else { st := .on, shown := .on })) }
   let d : Dom := .pd3
   let k := domNum d
   let x := s.dom k
   x.st = .off) ∧
  (let s : State := { wBase with
     doms := (List.range' 1 12).map (fun j => (j, if j = 10 then { st := .waking, since := 1200077 } else { st := .on, shown := .on })) }
   let d : Dom := .pd10
   let cyc : Cycle := 77
   let k := domNum d
   let x := s.dom k
   let clk := s.clockAt cyc
   x.st = .waking ∧ x.since ≤ clk ∧ clk ≤ x.since + 50000 ∧ x.good = false ∧ x.since + 50000 ≤ clk ∧ x.attempts.toNat < 3) ∧
  (let s : State := { wBase with
     doms := (List.range' 1 12).map (fun j => (j, if j = 10 then { st := .waking, since := 1200077, attempts := 3 } else { st := .on, shown := .on })) }
   let d : Dom := .pd10
   let cyc : Cycle := 77
   let k := domNum d
   let x := s.dom k
   let clk := s.clockAt cyc
   x.st = .waking ∧ x.good = false ∧ x.since + 50000 ≤ clk ∧ x.attempts = 3) ∧
  (let s : State := { wBase with
     doms := (List.range' 1 12).map (fun j => (j, if j = 12 then { st := .on, auto := true, req := .on, idle := 64 } else { st := .on, shown := .on })) }
   let d : Dom := .pd12
   let k := domNum d
   let x := s.dom k
   x.auto = true ∧ x.req = .on ∧ x.st = .on ∧ 64 ≤ x.idle ∧ ((k = 1 ∨ k = 5 ∨ k = 8 ∨ k = 12))) ∧
  (let s : State := { wBase with
     doms := (List.range' 1 12).map (fun j => (j, if j = 10 then { st := .restoring } else { st := .on, shown := .on })) }
   let d : Dom := .pd10
   let k := domNum d
   let x := s.dom k
   x.st = .restoring ∧ k = 10 ∧ s.domPorts.get [] k = [] ∧ x.resetRun = false) ∧
  (let s : State := { wBase with
     doms := (List.range' 1 12).map (fun j => (j, if j = 8 then { st := .restoring } else { st := .on, shown := .on }))
     queues := [(7, .of { live := true, entries := [wEntry], fetch := 3 })]
     qstat := [(0, 1)] }
   let d : Dom := .pd8
   let k := domNum d
   let x := s.dom k
   x.st = .restoring ∧ k = 8) ∧
  (let s : State := { wBase with
     doms := (List.range' 1 12).map (fun j => (j, if j = 1 then { st := .restoring } else { st := .on, shown := .on }))
     links := [(0, { up := false }), (2, { up := false })] }
   let d : Dom := .pd1
   let k := domNum d
   let x := s.dom k
   x.st = .restoring ∧ k = 1) := by
  refine ⟨?_, ?_, ?_, ?_, ?_, ?_, ?_, ?_, ?_, ?_⟩
  · decide
  · decide
  · decide
  · decide
  · decide
  · decide
  · decide
  · decide
  · decide
  · decide

/-- States and operands that meet the hypotheses of MetrologyCommands. -/
theorem witness_MetrologyCommands :
  (let s : State := wBase
   let f : List Byte := wFrame 0x5B
   let l : Link := 0
   let w : BitVec 4 := 0
   let sl : Slice := 0
   let m := s.met
   let valid := f.length = 184 ∧ leAt f 0 2 = 0x5A47 ∧ leAt f 180 4 = (crc32 ((f.drop 2).take 178)).toNat
   let x := s.raw sl.toNat
   s.domOn 10 = true ∧ m.got = false ∧ ¬valid ∧ m.valid < 8 ∧ m.silent < 8 ∧ s.windowSlice l.toNat w.toNat = some sl.toNat ∧
     s.supply.st ≠ .powerDown ∧ (s.link l.toNat).buf.length < 256 ∧ (s.link l.toNat).withheld = [] ∧ x.held = [] ∧
     ((s.p16Next sl.toNat = none ∨ 64 ≤ m.served))) ∧
  (let s : State := wBase
   let f : List Byte := wFrame 0x5A
   let m := s.met
   let valid := f.length = 184 ∧ leAt f 0 2 = 0x5A47 ∧ leAt f 180 4 = (crc32 ((f.drop 2).take 178)).toNat
   s.domOn 10 = true ∧ m.got = false ∧ valid) ∧
  (let s : State := { wBase with met := { got := true, valid := 8 } }
   let m := s.met
   m.got = true ∧ s.domOn 10 = true ∧ 8 ≤ m.valid ∧ s.metFresh.present = false) ∧
  (let s : State := { wBase with met := { silent := 8 }, metPub := .of { present := true, log := [(1, [2])] } }
   let m := s.met
   s.domOn 10 = true ∧ 8 ≤ m.silent ∧ s.metFresh.present = true) ∧
  (let s : State := { wBase with
     raws := [(0, { chan := 5, log2 := 1, index := 1, base := 0x8000, held := [[1,2],[3]] })]
     chans := [(5, .of { role := .xport, st := .idle })] }
   let sl : Slice := 0
   let b : List Byte := [1,2]
   let rest : List (List Byte) := [[3]]
   let x := s.raw sl.toNat
   x.held = b :: rest ∧ s.exportFree x.chan.toNat = true ∧ s.chanOwner x.chan.toNat = sl.toNat ∧ s.chanWorks x.chan.toNat = true) ∧
  (let s : State := { wBase with
     devs := [(2, .of { base := 100, nep := 1, st := .assigned })]
     ctxs := [(101, .of { wCtx with port := 16 })]
     queues := [(5, .of { wQueue { wEntry with q0 := 0x0001001200000021, st := .drawn } with port := 16 })]
     met := { served := 63 } }
   let sl : Slice := 0
   let q : QNum := 5
   let pos : BitVec 17 := 0
   let e : Entry := { wEntry with q0 := 0x0001001200000021, st := .drawn }
   let i : Nat := 101
   let m := s.met
   s.p16Next sl.toNat = some (q.toNat, e, i) ∧ e.pos = pos ∧ s.inProgress i sl.toNat q.toNat pos = true ∧
     s.transferOf i = some (q.toNat, e) ∧ s.working = true ∧ s.works sl.toNat = true ∧ m.served < 64 ∧ s.domOn 10 = true ∧
     e.handle % 16 ≠ 0) ∧
  (let s : State := { wBase with
     devs := [(2, .of { base := 100, nep := 1, st := .assigned })]
     ctxs := [(101, .of { wCtx with port := 16 })]
     queues := [(5, .of { wQueue { wEntry with q0 := 0x0001001200000021, st := .drawn } with port := 16 })]
     met := { served := 63 } }
   let sl : Slice := 0
   let q : QNum := 6
   let pos : BitVec 17 := 0
   let e : Entry := { wEntry with q0 := 0x0001001200000021, st := .drawn }
   let i : Nat := 101
   let k : Nat := 5
   s.p16Next sl.toNat = some (k, e, i) ∧ ((k ≠ q.toNat ∨ e.pos ≠ pos))) := by
  refine ⟨?_, ?_, ?_, ?_, ?_, ?_, ?_⟩
  · (dsimp only [Ready, Inside, OnIdleShuttle, PolicyRuns, TickInv]; decide +kernel)
  · exact ⟨by decide, by decide, by decide +kernel, by decide +kernel, by rw [show ((wFrame 0x5A).drop 2).take 178 = wBody by decide +kernel, wBody_crc]; decide +kernel⟩
  · decide
  · decide
  · decide
  · decide
  · decide

/-- States and operands that meet the hypotheses of InjectionProbesAndSurges. -/
theorem witness_InjectionProbesAndSurges :
  (let s : State := wBase
   let l : Link := 0
   let d : Detector := 127
   let v : W32 := 0x80FF2FFF
   let slot : BitVec 14 := 0
   let peak : W16 := 1001
   let x := s.det d.toNat
   let n := tdrShots (some slot)
   s.comWarden = l.toNat ∧ v.getLsbD 31 = true ∧ ((x.arm = false ∨ s.tick.selvage = true)) ∧ n = 0 ∧ 1000 < peak.toNat) ∧
  (let s : State := { wBase with probes := [(15, { irEn := false })] }
   let l : Link := 0
   let v : W32 := 0
   let p : Port := 15
   let peak : W16 := 1000
   let y := s.probe p.toNat
   s.comWarden = l.toNat ∧ v.getLsbD 31 = false ∧ y.irEn = false ∧ peak.toNat ≤ 1000) ∧
  (let s : State := wBase
   let l : Link := 3
   s.comWarden ≠ l.toNat) ∧
  (let s : State := { wBase with dets := [(2, { arm := true, start := 99, injCount := 0 })] }
   let d : Detector := 2
   let u : Nat := 0
   let x := s.det d.toNat
   x.arm = true ∧ (s.now32 - x.start).toNat < 2 ^ 31 ∧ x.doneAt ≠ some s.now32 ∧ s.tick.selvage = false ∧ s.injectUnit d.toNat = some u) ∧
  (let s : State := { wBase with dets := [(4, { arm := true, start := 100 })], tick := { wBase.tick with n := 0x1000000000064 } }
   let d : Detector := 4
   let x := s.det d.toNat
   x.arm = true ∧ (s.now32 - x.start).toNat < 2 ^ 31 ∧ x.doneAt ≠ some s.now32 ∧ s.tick.selvage = false ∧ s.injectUnit d.toNat = none) ∧
  (let s : State := { wBus wCtx {} [wSeq (.probe 16383) .slot] with tick := { wBase.tick with n := 4000 } }
   let p : Port := 3
   let slot : BitVec 14 := 16383
   let res : TdrEnd := TdrEnd.busy
   let kohm : W32 := 100000
   let y := s.probe p.toNat
   let n := tdrShots (some slot)
   s.domOn 10 = true ∧ s.portActive p.toNat = true ∧ s.inSlot p.toNat slot = true ∧ n ≠ 0 ∧ res = .busy ∧ y.irEn = true ∧
     y.irAt.toNat + 3200 ≤ s.now ∧ y.irHalf = false ∧ 100 ≤ kohm.toNat ∧ kohm.toNat ≤ 100000) ∧
  (let slot : BitVec 14 := 16383
   let res : TdrEnd := TdrEnd.noisy
   let n := tdrShots (some slot)
   n ≠ 0 ∧ res = .noisy) ∧
  (let slot : BitVec 14 := 16383
   let res : TdrEnd := TdrEnd.done []
   let n := tdrShots (some slot)
   n ≠ 0 ∧ res = .done []) ∧
  (let s : State := { wBus wCtx {} [wSeq (.probe 16383) .slot] with tick := { wBase.tick with n := 4000 } }
   let p : Port := 3
   let slot : BitVec 14 := 16383
   let res : TdrEnd := TdrEnd.done [{ rho := 20, inverted := true, delay := 300000 }]
   let echo : Echo := { rho := 20, inverted := true, delay := 300000 }
   let y := s.probe p.toNat
   let n := tdrShots (some slot)
   n ≠ 0 ∧ 10 ≤ echo.rho.toNat ∧ tdrMetres y.vf.toNat echo.delay.toNat ≤ 10000 ∧ res = .done [echo]) ∧
  (let s : State := { wBus wCtx {} [wSeq (.probe 1) .slot] with tick := { wBase.tick with n := 3200 } }
   let p : Port := 3
   let kohm : W32 := 99
   let y := s.probe p.toNat
   s.domOn 10 = true ∧ y.irEn = true ∧ y.irAt.toNat + 3200 ≤ s.now ∧ y.irHalf = false ∧ kohm.toNat < 100) := by
  refine ⟨?_, ?_, ?_, ?_, ?_, ?_, ?_, ?_, ?_, ?_⟩
  · decide
  · decide
  · decide
  · decide
  · decide
  · decide
  · decide
  · decide
  · decide
  · decide

/-- States and operands that meet the hypotheses of WatchmanCommands. -/
theorem witness_WatchmanCommands :
  (let s : State := { wBase with watch := {  } }
   let f : WmFrame := { wAsk 1 2 [] with crc := 0 }
   let got : List Byte := []
   let rest : List Byte := wmBytes ({ wAsk 1 2 [] with crc := 0 })
   let w := s.watch
   let whole : Prop := w.rx = got ∧ got ++ rest = wmBytes f ∧ f.payload.length < 65536 ∧ f.mac.length = 8
   w.rx = [] ∧ f.payload.length < 65536 ∧ f.mac.length = 8 ∧ got ++ rest = wmBytes f ∧ rest ≠ [] ∧ whole ∧ f.crc ≠ wmCrc f ∧
     w.locked = none ∧ w.req = none ∧ w.cycles = []) ∧
  (let s : State := { wBase with watch := {  } }
   let f : WmFrame := wAsk 9 2 []
   let got : List Byte := []
   let rest : List Byte := wmBytes (wAsk 9 2 [])
   let w := s.watch
   let whole : Prop := w.rx = got ∧ got ++ rest = wmBytes f ∧ f.payload.length < 65536 ∧ f.mac.length = 8
   whole ∧ f.crc = wmCrc f ∧ f.addr ≠ w.hears) ∧
  (let s : State := { wBase with watch := { locked := some 100, commissioned := true } }
   let f : WmFrame := wAsk 1 2 []
   let got : List Byte := []
   let rest : List Byte := wmBytes (wAsk 1 2 [])
   let a : BitVec 48 := 100
   let w := s.watch
   let whole : Prop := w.rx = got ∧ got ++ rest = wmBytes f ∧ f.payload.length < 65536 ∧ f.mac.length = 8
   let ask : Prop := whole ∧ f.crc = wmCrc f ∧ f.addr = w.hears
   ask ∧ w.locked ≠ none ∧ w.locked = some a ∧ a.toNat ≤ s.now) ∧
  (let s : State := { wBase with watch := { commissioned := false } }
   let f : WmFrame := wAsk 1 2 []
   let got : List Byte := []
   let rest : List Byte := wmBytes (wAsk 1 2 [])
   let w := s.watch
   let t0 := f.typ.toNat
   let whole : Prop := w.rx = got ∧ got ++ rest = wmBytes f ∧ f.payload.length < 65536 ∧ f.mac.length = 8
   let ask : Prop := whole ∧ f.crc = wmCrc f ∧ f.addr = w.hears
   ask ∧ w.locked = none ∧ w.commissioned = false ∧ t0 ≠ 0 ∧ t0 ≠ 0x10) ∧
  (let s : State := { wBase with watch := { commissioned := true, req := some (.getSeq, 3) } }
   let f : WmFrame := wAsk 1 2 []
   let seq : W32 := 3
   let got : List Byte := []
   let rest : List Byte := wmBytes (wAsk 1 2 [])
   let w := s.watch
   let whole : Prop := w.rx = got ∧ got ++ rest = wmBytes f ∧ f.payload.length < 65536 ∧ f.mac.length = 8
   let ask : Prop := whole ∧ f.crc = wmCrc f ∧ f.addr = w.hears
   ask ∧ w.locked = none ∧ w.commissioned = true ∧ ((w.wait ≠ none ∨ w.req ≠ none)) ∧ w.req = some (.getSeq, seq)) ∧
  (let s : State := { wBase with watch := { commissioned := true, run := 14, seq := 8 } }
   let f : WmFrame := wSigned 2 []
   let got : List Byte := []
   let rest : List Byte := wmBytes (wSigned 2 [])
   let w := s.watch
   let t0 := f.typ.toNat
   let whole : Prop := w.rx = got ∧ got ++ rest = wmBytes f ∧ f.payload.length < 65536 ∧ f.mac.length = 8
   let ask : Prop := whole ∧ f.crc = wmCrc f ∧ f.addr = w.hears
   let idle : Prop := w.locked = none ∧ w.commissioned = true ∧ w.wait = none ∧ w.req = none
   ask ∧ idle ∧ t0 ≠ 0 ∧ t0 ≠ 0x10 ∧ ((f.mac ≠ wmMac w.key f ∨ f.seq.toNat ≤ w.seq.toNat)) ∧ w.run + 1 < 16) ∧
  (let s : State := { wBase with watch := { commissioned := true, run := 15, seq := 7 } }
   let f : WmFrame := wForged 2 []
   let got : List Byte := []
   let rest : List Byte := wmBytes (wForged 2 [])
   let w := s.watch
   let t0 := f.typ.toNat
   let whole : Prop := w.rx = got ∧ got ++ rest = wmBytes f ∧ f.payload.length < 65536 ∧ f.mac.length = 8
   let ask : Prop := whole ∧ f.crc = wmCrc f ∧ f.addr = w.hears
   let idle : Prop := w.locked = none ∧ w.commissioned = true ∧ w.wait = none ∧ w.req = none
   ask ∧ idle ∧ t0 ≠ 0 ∧ t0 ≠ 0x10 ∧ f.mac ≠ wmMac w.key f ∧ w.run = 15) ∧
  (let s : State := { wBase with watch := { commissioned := true, run := 15, seq := 7 } }
   let f : WmFrame := wSigned 2 [15, 60]
   let c : WmCmd := .powerCycle 15 60
   let got : List Byte := []
   let rest : List Byte := wmBytes (wSigned 2 [15, 60])
   let w := s.watch
   let t0 := f.typ.toNat
   let whole : Prop := w.rx = got ∧ got ++ rest = wmBytes f ∧ f.payload.length < 65536 ∧ f.mac.length = 8
   let ask : Prop := whole ∧ f.crc = wmCrc f ∧ f.addr = w.hears
   let idle : Prop := w.locked = none ∧ w.commissioned = true ∧ w.wait = none ∧ w.req = none
   ask ∧ idle ∧ t0 ≠ 0 ∧ t0 ≠ 0x10 ∧ f.mac = wmMac w.key f ∧ w.seq.toNat < f.seq.toNat ∧ wmParse f.typ f.payload = some c) ∧
  (let s : State := { wBase with watch := { commissioned := true, run := 15, seq := 7 } }
   let f : WmFrame := wAsk 1 0 []
   let c : WmCmd := .getSeq
   let got : List Byte := []
   let rest : List Byte := wmBytes (wAsk 1 0 [])
   let w := s.watch
   let t0 := f.typ.toNat
   let whole : Prop := w.rx = got ∧ got ++ rest = wmBytes f ∧ f.payload.length < 65536 ∧ f.mac.length = 8
   let ask : Prop := whole ∧ f.crc = wmCrc f ∧ f.addr = w.hears
   let idle : Prop := w.locked = none ∧ w.commissioned = true ∧ w.wait = none ∧ w.req = none
   ask ∧ idle ∧ ((t0 = 0 ∨ t0 = 0x10)) ∧ wmParse f.typ f.payload = some c) ∧
  (let s : State := { wBase with watch := { commissioned := true, seq := 7, req := some (.readDigest, 9) } }
   let seq : W32 := 9
   let w := s.watch
   w.req = some (.readDigest, seq)) ∧
  (let s : State := { wBase with
     watch := { commissioned := true, seq := 7, req := some (.readLog 4095 16, 9) }
     aonLog := [(4095, { boot := 1, tick := 2, code := 3, unit := 4, value := 5 })] }
   let seq : W32 := 9
   let n : Byte := 16
   let first : W16 := 4095
   let w := s.watch
   w.req = some (.readLog first n, seq)) ∧
  (let s : State := { wBase with
     watch := { commissioned := true, seq := 7, req := some (.powerCycle 15 60, 9) }
     ports := [(15, { st := .disabled })] }
   let seq : W32 := 9
   let p : Byte := 15
   let n : Byte := 60
   let w := s.watch
   w.req = some (.powerCycle p n, seq) ∧ s.cycleRefused p.toNat = true) ∧
  (let s : State := { wBase with watch := { commissioned := true, seq := 7, req := some (.powerCycle 15 60, 9) } }
   let c : WmCmd := .powerCycle 15 60
   let seq : W32 := 9
   let p : Byte := 15
   let n : Byte := 60
   let w := s.watch
   w.req = some (.powerCycle p n, seq) ∧ s.cycleRefused p.toNat = false ∧ c = .powerCycle p n) ∧
  (let s : State := { wBase with watch := { commissioned := true, seq := 7, req := some (.resetDomain 7, 9) } }
   let seq : W32 := 9
   let d : Byte := 7
   let w := s.watch
   w.req = some (.resetDomain d, seq) ∧ ((d = 7 ∨ d = 9))) ∧
  (let s : State := { wBase with watch := { commissioned := true, seq := 7, req := some (.resetDomain 12, 9) } }
   let c : WmCmd := .resetDomain 12
   let seq : W32 := 9
   let d : Byte := 12
   let w := s.watch
   w.req = some (.resetDomain d, seq) ∧ d ≠ 7 ∧ d ≠ 9 ∧ s.supply.hold = false ∧ c = .resetDomain d) ∧
  (let s : State := { wBase with watch := { commissioned := true, seq := 7, req := some (.wardenLink 0, 9) } }
   let seq : W32 := 9
   let d : Byte := 0
   let w := s.watch
   w.req = some (.wardenLink d, seq) ∧ d.toNat = s.comWarden) ∧
  (let s : State := { wBase with
     watch := { commissioned := true, seq := 7, req := some (.wardenLink 3, 9) }
     slices := [(0, .of sliceS0), (4, .of { st := .running, bound := true, link := 3, window := 0, pasid := 5 }), (5, .of { st := .running, bound := true, link := 0, window := 1, pasid := 5 })] }
   let seq : W32 := 9
   let d : Byte := 3
   let w := s.watch
   w.req = some (.wardenLink d, seq) ∧ d.toNat ≠ s.comWarden ∧ s.moveRefused d.toNat = true) ∧
  (let s : State := { wBase with watch := { commissioned := true, seq := 7, req := some (.wardenLink 3, 9) } }
   let c : WmCmd := .wardenLink 3
   let seq : W32 := 9
   let d : Byte := 3
   let w := s.watch
   w.req = some (.wardenLink d, seq) ∧ d.toNat ≠ s.comWarden ∧ s.moveRefused d.toNat = false ∧ c = .wardenLink d) ∧
  (let s : State := { wBase with watch := { commissioned := true, key := wKek, seq := 7, req := some (.rekey (wWrapped), 9) } }
   let c : WmCmd := .rekey (wWrapped)
   let seq : W32 := 9
   let key : List Byte := wWrapped
   let w := s.watch
   w.req = some (.rekey key, seq) ∧ w.unwrap key ≠ none ∧ c = .rekey key) ∧
  (let s : State := { wBase with watch := { commissioned := true, key := wKek, seq := 7, req := some (.rekey (List.replicate 8 0), 9) } }
   let seq : W32 := 9
   let key : List Byte := List.replicate 8 0
   let w := s.watch
   w.req = some (.rekey key, seq) ∧ w.unwrap key = none) ∧
  (let s : State := { wBase with watch := { commissioned := true, seq := 7, req := some (.commission (List.replicate 32 1) 3, 9) } }
   let seq : W32 := 9
   let d : Byte := 3
   let key : List Byte := List.replicate 32 1
   let w := s.watch
   w.req = some (.commission key d, seq) ∧ w.commissioned = true) ∧
  (let s : State := { wBase with watch := { commissioned := false, seq := 7, req := some (.commission (List.replicate 32 1) 3, 9) } }
   let seq : W32 := 9
   let d : Byte := 3
   let key : List Byte := List.replicate 32 1
   let w := s.watch
   w.req = some (.commission key d, seq) ∧ w.commissioned = false ∧ s.now < 14400000 ∧ s.moveRefused d.toNat = false) ∧
  (let s : State := { wBase with watch := { commissioned := true, cycles := [(15, 100)] } }
   let port : Port := 15
   let a : BitVec 48 := 100
   let w := s.watch
   w.cycles = [(port.toNat, a)] ∧ a.toNat ≤ s.now) ∧
  (let s : State := { wBase with
     watch := { commissioned := true, seq := 7, wait := some (.powerCycle 15 60, 9), cycles := [(15, 7), (3, 200)] } }
   let seq : W32 := 9
   let p : Byte := 15
   let n : Byte := 60
   let k : Nat := 0
   let w := s.watch
   w.restore = [] ∧ w.wait = some (.powerCycle p n, seq) ∧ k ≠ p.toNat) ∧
  (let s : State := { wBase with watch := { commissioned := true, key := wKek, seq := 7, wait := some (.rekey (wWrapped), 9) } }
   let seq : W32 := 9
   let key : List Byte := wWrapped
   let new : List Byte := wKey
   let w := s.watch
   w.restore = [] ∧ w.wait = some (.rekey key, seq) ∧ w.unwrap key = some new) := by
  refine ⟨?_, ?_, ?_, ?_, ?_, ?_, ?_, ?_, ?_, ?_, ?_, ?_, ?_, ?_, ?_, ?_, ?_, ?_, ?_, ?_, ?_, ?_, ?_, ?_, ?_⟩
  · (dsimp only [Ready, Inside, OnIdleShuttle, PolicyRuns, TickInv]; decide +kernel)
  · (dsimp only [Ready, Inside, OnIdleShuttle, PolicyRuns, TickInv]; decide +kernel)
  · (dsimp only [Ready, Inside, OnIdleShuttle, PolicyRuns, TickInv]; decide +kernel)
  · (dsimp only [Ready, Inside, OnIdleShuttle, PolicyRuns, TickInv]; decide +kernel)
  · (dsimp only [Ready, Inside, OnIdleShuttle, PolicyRuns, TickInv]; decide +kernel)
  · (dsimp only [Ready, Inside, OnIdleShuttle, PolicyRuns, TickInv]; decide +kernel)
  · (dsimp only [Ready, Inside, OnIdleShuttle, PolicyRuns, TickInv]; decide +kernel)
  · (dsimp only [Ready, Inside, OnIdleShuttle, PolicyRuns, TickInv]; decide +kernel)
  · (dsimp only [Ready, Inside, OnIdleShuttle, PolicyRuns, TickInv]; decide +kernel)
  · decide
  · decide
  · decide
  · decide
  · decide
  · decide
  · decide
  · decide
  · decide
  · exact ⟨rfl, by dsimp only; rw [unwrap_wWrapped _ rfl rfl]; decide, rfl⟩
  · decide
  · decide
  · decide
  · decide
  · decide
  · exact ⟨rfl, rfl, unwrap_wWrapped _ rfl rfl⟩

/-- States and operands that meet the hypotheses of TickInvIsKept. -/
theorem witness_TickInvIsKept :
  (let s : State := { wBase with
     tick := { wBase.tick with consec := 63, stopped := true, reports := [{ det := 3, unit := 2, injected := false }] }
     pending := [.selvage false []] }
   let t : State := match step { wBase with tick := { wBase.tick with consec := 63, stopped := true, reports := [{ det := 3, unit := 2, injected := false }] }, pending := [.selvage false []] } with | .next t => t | _ => wBase
   TickInv s ∧ step s = .next t) := by
  exact ⟨by dsimp only [TickInv]; decide, rfl⟩
end

section
/-! SUPPORT. The tick number (02, R24). TICK_BEGIN alone counts it: a report, the decision of a selvage and the journal change other
fields of the tick's record (`_tick_n`: the number stays), and every other operation leaves the whole record as it is (`_tick`). One lemma
an operation, in the order of the model's files. The lemmas about a single update are proved `by rfl`: written as the bare term they would
be definitional for `simp`, which then does not take them for the premise of `forAll_tick`. -/
namespace Sys2Proof.Machine

open Sys2Proof

/-! ## Choices and sequences -/

@[simp] theorem State.tick_ite (c : Prop) [Decidable c] (s t : State) : (if c then s else t).tick = if c then s.tick else t.tick :=
  apply_ite State.tick c s t

@[simp] theorem TickS.n_ite (c : Prop) [Decidable c] (x y : TickS) : (if c then x else y).n = if c then x.n else y.n :=
  apply_ite TickS.n c x y

@[simp] theorem State.forAll_tick {α : Type} (f : State → α → State) (h : ∀ s a, (f s a).tick = s.tick) (s : State) (l : List α) :
    (s.forAll f l).tick = s.tick :=
  State.forAll_keeps (fun t => t.tick = s.tick) f l (fun t a ht => (h t a).trans ht) s rfl

@[simp] theorem State.forAll_tick_n {α : Type} (f : State → α → State) (h : ∀ s a, (f s a).tick.n = s.tick.n) (s : State)
    (l : List α) : (s.forAll f l).tick.n = s.tick.n :=
  State.forAll_keeps (fun t => t.tick.n = s.tick.n) f l (fun t a ht => (h t a).trans ht) s rfl

variable (s : State)

/-! ## Updates of one item -/

@[simp] theorem State.updSlice_tick (k : Nat) (f : SliceS → SliceS) : (s.updSlice k f).tick = s.tick := by rfl
@[simp] theorem State.updAttach_tick (k : Nat) (f : Option (Sys2Proof.Slice × Bool) → Option (Sys2Proof.Slice × Bool)) :
    (s.updAttach k f).tick = s.tick := by rfl
@[simp] theorem State.updPlan_tick (k : Nat) (f : Option DevId → Option DevId) : (s.updPlan k f).tick = s.tick := by rfl
@[simp] theorem State.updSrcCfg_tick (k : Nat) (f : SrcCfg → SrcCfg) : (s.updSrcCfg k f).tick = s.tick := by rfl
@[simp] theorem State.updCtx_tick (k : Nat) (f : Ctx → Ctx) : (s.updCtx k f).tick = s.tick := by rfl
@[simp] theorem State.updDev_tick (k : Nat) (f : Dev → Dev) : (s.updDev k f).tick = s.tick := by rfl
@[simp] theorem State.updDevX_tick (k : Nat) (f : DevX → DevX) : (s.updDevX k f).tick = s.tick := by rfl
@[simp] theorem State.updPin_tick (k : Nat) (f : Option Sys2Proof.Slice → Option Sys2Proof.Slice) : (s.updPin k f).tick = s.tick := by rfl
@[simp] theorem State.updEnum_tick (k : Nat) (f : EnumS → EnumS) : (s.updEnum k f).tick = s.tick := by rfl
@[simp] theorem State.updTree_tick (k : Nat) (f : TreeS → TreeS) : (s.updTree k f).tick = s.tick := by rfl
@[simp] theorem State.updSched_tick (k : Nat) (f : SchedS → SchedS) : (s.updSched k f).tick = s.tick := by rfl
@[simp] theorem State.updQueue_tick (k : Nat) (f : QueueS → QueueS) : (s.updQueue k f).tick = s.tick := by rfl
@[simp] theorem State.updChan_tick (k : Nat) (f : ChS → ChS) : (s.updChan k f).tick = s.tick := by rfl
@[simp] theorem State.updTask_tick (k : Nat) (f : TaskS → TaskS) : (s.updTask k f).tick = s.tick := by rfl
@[simp] theorem State.updFlow_tick (k : Nat) (f : FlowS → FlowS) : (s.updFlow k f).tick = s.tick := by rfl
@[simp] theorem State.updGraph_tick (k : Nat) (f : GraphS → GraphS) : (s.updGraph k f).tick = s.tick := by rfl
@[simp] theorem State.updCore_tick (k : Nat) (f : CoreS → CoreS) : (s.updCore k f).tick = s.tick := by rfl
@[simp] theorem State.updBound_tick (k : Nat) (f : Option (W32 × W32) → Option (W32 × W32)) : (s.updBound k f).tick = s.tick := by rfl
@[simp] theorem State.updActBound_tick (k : Nat) (f : Option (W32 × W32) → Option (W32 × W32)) :
    (s.updActBound k f).tick = s.tick := by rfl
@[simp] theorem State.updBridge_tick (k : Nat) (f : Bridge → Bridge) : (s.updBridge k f).tick = s.tick := by rfl
@[simp] theorem State.updStream_tick (k : Nat) (f : Stream → Stream) : (s.updStream k f).tick = s.tick := by rfl
@[simp] theorem State.updPSet_tick (k : Nat) (f : PortSet → PortSet) : (s.updPSet k f).tick = s.tick := by rfl
@[simp] theorem State.updLink_tick (k : Nat) (f : LinkS → LinkS) : (s.updLink k f).tick = s.tick := by rfl
@[simp] theorem State.updSliceX_tick (k : Nat) (f : SliceX → SliceX) : (s.updSliceX k f).tick = s.tick := by rfl
@[simp] theorem State.updSrc_tick (k : Nat) (f : Src → Src) : (s.updSrc k f).tick = s.tick := by rfl
@[simp] theorem State.updEq_tick (k : Nat) (f : EqS → EqS) : (s.updEq k f).tick = s.tick := by rfl
@[simp] theorem State.updPort_tick (k : Nat) (f : PortL → PortL) : (s.updPort k f).tick = s.tick := by rfl
@[simp] theorem State.updThread_tick (k : Nat) (f : Thread → Thread) : (s.updThread k f).tick = s.tick := by rfl
@[simp] theorem State.updShuttle_tick (k : Nat) (f : Shuttle → Shuttle) : (s.updShuttle k f).tick = s.tick := by rfl
@[simp] theorem State.updChanX_tick (k : Nat) (f : ChX → ChX) : (s.updChanX k f).tick = s.tick := by rfl
@[simp] theorem State.updFuse_tick (k : Nat) (f : PortP → PortP) : (s.updFuse k f).tick = s.tick := by rfl
@[simp] theorem State.updDom_tick (k : Nat) (f : DomS → DomS) : (s.updDom k f).tick = s.tick := by rfl
@[simp] theorem State.updRaw_tick (k : Nat) (f : RawS → RawS) : (s.updRaw k f).tick = s.tick := by rfl
@[simp] theorem State.updDet_tick (k : Nat) (f : DetS → DetS) : (s.updDet k f).tick = s.tick := by rfl
@[simp] theorem State.updWarden_tick (f : Link → Link) : (s.updWarden f).tick = s.tick := by rfl
@[simp] theorem State.updAdmission_tick (f : List AdmReq → List AdmReq) : (s.updAdmission f).tick = s.tick := by rfl
@[simp] theorem State.updGChanges_tick (f : List (BitVec 48 × GChange) → List (BitVec 48 × GChange)) :
    (s.updGChanges f).tick = s.tick := by rfl
@[simp] theorem State.updPolicy_tick (f : PolicyS → PolicyS) : (s.updPolicy f).tick = s.tick := by rfl
@[simp] theorem State.updMetPub_tick (f : MetPub → MetPub) : (s.updMetPub f).tick = s.tick := by rfl
@[simp] theorem State.updSliceActs_tick (f : List SliceAct → List SliceAct) : (s.updSliceActs f).tick = s.tick := by rfl
@[simp] theorem State.updKept_tick (f : List (Nat × W32 × W64) → List (Nat × W32 × W64)) : (s.updKept f).tick = s.tick := by rfl
@[simp] theorem State.mapVer_tick (f : {α : Type} → Ver α → Ver α) : (s.mapVer f).tick = s.tick := by rfl

/-! ## Reports, occurrences and domains -/

@[simp] theorem State.report_tick_n (d : Nat) (unit : Byte) (injected : Bool) : (s.report d unit injected).tick.n = s.tick.n := by
  simp only [State.report]; repeat' split <;> simp
@[simp] theorem State.enumEvent_tick (sl p code rest : Nat) : (s.enumEvent sl p code rest).tick = s.tick := by rfl
@[simp] theorem State.policyEvent_tick (sl id code handle value : Nat) : (s.policyEvent sl id code handle value).tick = s.tick := by rfl
@[simp] theorem State.wake_tick (d cause clk : Nat) : (s.wake d cause clk).tick = s.tick :=
  (congrArg State.tick (s.wake_frame d cause clk) :)
@[simp] theorem State.wakeRet_tick (d cause clk : Nat) : (s.wakeRet d cause clk).tick = s.tick := by unfold State.wakeRet; split <;> simp
@[simp] theorem State.updPage_tick (pg : Nat) (f : Page → Page) : (s.updPage pg f).tick = s.tick := by rfl

/-! ## Ports -/

@[simp] theorem State.linkEvent_tick (p i : Nat) : (s.linkEvent p i).tick = s.tick := by rfl
@[simp] theorem State.pwrEvent_tick (p i : Nat) : (s.pwrEvent p i).tick = s.tick := by rfl
@[simp] theorem State.portTo_tick (p : Nat) (st : PState) : (s.portTo p st).tick = s.tick := by rfl
@[simp] theorem State.portDetached_tick (p : Nat) : (s.portDetached p).tick = s.tick := by rfl
@[simp] theorem State.switchOff_tick (p : Nat) (c : Cause) (clk : Nat) : (s.switchOff p c clk).tick = s.tick := by simp [State.switchOff]
@[simp] theorem State.startReset_tick (p : Nat) : (s.startReset p).tick = s.tick := by rfl
@[simp] theorem State.startRsm_tick (p : Nat) : (s.startRsm p).tick = s.tick := by rfl

/-! ## Event sources and their records -/

@[simp] theorem State.signal_tick (l v : Nat) : (s.signal l v).tick = s.tick := by simp [State.signal]
@[simp] theorem State.wakeFor_tick (sl : Nat) : (s.wakeFor sl).tick = s.tick := by simp only [State.wakeFor]; repeat' split <;> simp
@[simp] theorem State.oweRecord_tick (sl : Nat) (r : EvRec) : (s.oweRecord sl r).tick = s.tick := by simp [State.oweRecord]

@[simp] theorem State.fastRecord_tick (frz : List Nat) (l key sl : Nat) (spill : Option Nat) (pay : W64) :
    (s.fastRecord frz l key sl spill pay).tick = s.tick := by
  unfold State.fastRecord; repeat' split
  all_goals simp

@[simp] theorem State.pmeFor_tick (l : Nat) : (s.pmeFor l).tick = s.tick := by simp [State.pmeFor]
@[simp] theorem State.generate_tick (frz : List Nat) (key : Nat) : (s.generate frz key).tick = s.tick := by
  unfold State.generate; repeat' split
  all_goals simp
@[simp] theorem State.generateAll_tick (frz : List Nat) : (s.generateAll frz).tick = s.tick := by simp [State.generateAll]
@[simp] theorem State.takeOccurrence_tick (o : Occ) : (s.takeOccurrence o).tick = s.tick := by
  simp only [State.takeOccurrence]; repeat' split <;> simp
@[simp] theorem State.ackSource_tick (key : Nat) : (s.ackSource key).tick = s.tick := by rfl
@[simp] theorem State.unOut_tick (key : Nat) : (s.unOut key).tick = s.tick := by rfl
@[simp] theorem State.applyEqCons_tick (sl : Nat) (v : BitVec 17) : (s.applyEqCons sl v).tick = s.tick := by simp [State.applyEqCons]
@[simp] theorem State.applyFbAck_tick (l : Nat) : (s.applyFbAck l).tick = s.tick := by simp [State.applyFbAck]
@[simp] theorem State.fastVector_tick (l : Nat) : (s.fastVector l).tick = s.tick := by simp [State.fastVector]
@[simp] theorem State.holdoffs_tick : s.holdoffs.tick = s.tick := by rfl
@[simp] theorem State.keepEv_tick (f : EvRec → Bool) : (s.keepEv f).tick = s.tick := by rfl
@[simp] theorem State.discardRecords_tick (sl : Nat) : (s.discardRecords sl).tick = s.tick := by simp [State.discardRecords]

/-! ## Work queues -/

@[simp] theorem State.complete_tick (sl q : Nat) (e : Entry) (status moved : Nat) (c2 c3 : W64) :
    (s.complete sl q e status moved c2 c3).tick = s.tick := by
  simp [State.complete]
@[simp] theorem State.flushBlock_tick (sl q : Nat) (pos : BitVec 17) (moved port : Nat) :
    (s.flushBlock sl q pos moved port).tick = s.tick := by
  unfold State.flushBlock; split <;> simp
@[simp] theorem State.endTransfer_tick (sl q : Nat) (e : Entry) (status : Nat) (reason : Nat) :
    (s.endTransfer sl q e status reason).tick = s.tick := by
  unfold State.endTransfer; split <;> simp
@[simp] theorem State.endAll_tick (sl q : Nat) (f : Entry → Option Nat) : (s.endAll sl q f).tick = s.tick :=
  State.forAll_tick _ (fun t e => by split <;> simp) s _
@[simp] theorem State.adminDone_tick (sl : Nat) (e : Entry) (status : Nat) (c2 c3 : W64) :
    (s.adminDone sl e status c2 c3).tick = s.tick := by
  simp [State.adminDone]

/-! ## Devices and contexts -/

@[simp] theorem State.endWork_tick (d : Nat) (drawn : Nat) (queued : Option Nat) : (s.endWork d drawn queued).tick = s.tick := by
  unfold State.endWork; split <;> simp
@[simp] theorem State.dropHub_tick (d : Nat) : (s.dropHub d).tick = s.tick := by rfl
@[simp] theorem State.resetDevice_tick (d : Nat) : (s.resetDevice d).tick = s.tick := by simp [State.resetDevice]
@[simp] theorem State.detachDevice_tick (d : Nat) : (s.detachDevice d).tick = s.tick := by simp [State.detachDevice]
@[simp] theorem State.dropEnum_tick (p : Nat) (hops : List (BitVec 5)) : (s.dropEnum p hops).tick = s.tick := by rfl
@[simp] theorem State.detachTree_tick (p : Nat) (hops : List (BitVec 5)) : (s.detachTree p hops).tick = s.tick := by simp [State.detachTree]
@[simp] theorem State.resetTree_tick (p : Nat) (hops : List (BitVec 5)) : (s.resetTree p hops).tick = s.tick := by simp [State.resetTree]
@[simp] theorem State.markReset_tick (p : Nat) (hops : List (BitVec 5)) : (s.markReset p hops).tick = s.tick := by rfl
@[simp] theorem State.commitResets_tick (p : Nat) : (s.commitResets p).tick = s.tick := by unfold State.commitResets; split <;> simp
@[simp] theorem State.withdrawDevice_tick (d : Nat) : (s.withdrawDevice d).tick = s.tick := by simp [State.withdrawDevice]
@[simp] theorem State.releaseDevice_tick (d : Nat) : (s.releaseDevice d).tick = s.tick := by simp [State.releaseDevice]
@[simp] theorem State.loseCtx_tick (i : Nat) : (s.loseCtx i).tick = s.tick := by simp [State.loseCtx]
@[simp] theorem State.sweepLeaving_tick : s.sweepLeaving.tick = s.tick := by simp [State.sweepLeaving]

/-! ## Detectors, DRAM and the context cache -/

@[simp] theorem State.abortShuttle_tick (cyc : Nat) (p : Nat) : (s.abortShuttle cyc p).tick = s.tick := by simp [State.abortShuttle]
@[simp] theorem State.detect_tick_n (d : Nat) (unit : Byte) (injected : Bool) (cyc : Nat) :
    (s.detect d unit injected cyc).tick.n = s.tick.n := by
  simp [State.detect]
@[simp] theorem State.dramAccess_tick_n (sl : Nat) (ps : List Nat) (go : State → State) (h : (go s).tick.n = s.tick.n) :
    (s.dramAccess sl ps go).tick.n = s.tick.n := by
  unfold State.dramAccess; split <;> simp [h]
@[simp] theorem State.updWay_tick (k : Nat) (f : CWay → CWay) : (s.updWay k f).tick = s.tick := by unfold State.updWay; split <;> simp
@[simp] theorem State.evict_tick_n (set k : Nat) : (s.evict set k).tick.n = s.tick.n := by simp only [State.evict]; repeat' split <;> simp
@[simp] theorem State.moveClaims_tick : s.moveClaims.tick = s.tick := by rfl
theorem State.takeWay_tick_n {u : State} {set : Nat} {y : CWay} (h : s.takeWay set y = some u) : u.tick.n = s.tick.n := by
  obtain ⟨k, -, rfl⟩ := Option.map_eq_some_iff.mp h
  exact s.evict_tick_n set k

@[simp] theorem State.markLine_tick_n (d : Nat) : (s.markLine d).tick.n = s.tick.n := by
  unfold State.markLine; split
  · simp
  · split
    · cases h : s.takeWay (lineSet d) _ with
      | none => rfl
      | some u => exact s.takeWay_tick_n h
    · rfl

@[simp] theorem State.markDirty_tick_n (wrote devs : List Nat) : (s.markDirty wrote devs).tick.n = s.tick.n :=
  (State.forAll_tick_n _ State.markLine_tick_n _ _).trans (State.forAll_tick_n _ (fun t i => by split <;> simp) s _)

/-! ## Channels -/

@[simp] theorem State.chanEvent_tick (c i : Nat) : (s.chanEvent c i).tick = s.tick := by rfl
@[simp] theorem State.bothChan_tick (c : Nat) (f : ChS → ChS) : (s.bothChan c f).tick = s.tick := by rfl
@[simp] theorem State.chanStopped_tick (c : Nat) : (s.chanStopped c).tick = s.tick := by rfl
@[simp] theorem State.startShadow_tick (c : Nat) : (s.startShadow c).tick = s.tick := by simp [State.startShadow]
@[simp] theorem State.startDue_tick (c : Nat) : (s.startDue c).tick = s.tick := by simp [State.startDue]
@[simp] theorem State.boundary_tick (c : Nat) (next : W64) : (s.boundary c next).tick = s.tick := by simp [State.boundary]
@[simp] theorem State.applyGo_tick (c : Nat) (chain : Bool) : (s.applyGo c chain).tick = s.tick := by
  simp only [State.applyGo]; repeat' split <;> simp
@[simp] theorem State.applyStop_tick (c : Nat) : (s.applyStop c).tick = s.tick := by
  simp only [State.applyStop]; repeat' split
  all_goals simp
@[simp] theorem State.applyChCtl_tick (c : Nat) (v : W32) : (s.applyChCtl c v).tick = s.tick := by simp [State.applyChCtl]
@[simp] theorem State.applyShadow_tick (c k : Nat) (v : W32) : (s.applyShadow c k v).tick = s.tick := by simp [State.applyShadow]
@[simp] theorem State.stopQueuesOf_tick (c : Nat) : (s.stopQueuesOf c).tick = s.tick := by simp [State.stopQueuesOf]
@[simp] theorem State.withdrawUnread_tick (c : Nat) : (s.withdrawUnread c).tick = s.tick := by simp [State.withdrawUnread]
@[simp] theorem State.keepPay_tick (f : Pay → Bool) : (s.keepPay f).tick = s.tick := by rfl
@[simp] theorem State.withdrawAt_tick (x : Sys2Proof.Slice × QNum × BitVec 17) : (s.withdrawAt x).tick = s.tick := by rfl
@[simp] theorem State.endLost_tick (x : Sys2Proof.Slice × QNum × BitVec 17) : (s.endLost x).tick = s.tick := by
  unfold State.endLost; split <;> simp
@[simp] theorem State.withdrawPayload_tick (more : List (Sys2Proof.Slice × QNum × BitVec 17)) (f : Pay → Bool) :
    (s.withdrawPayload more f).tick = s.tick := by
  simp [State.withdrawPayload]
@[simp] theorem State.commitKill_tick (c : Nat) : (s.commitKill c).tick = s.tick := by simp [State.commitKill]

/-! ## Queue registers and admin queues at the commit -/

@[simp] theorem State.applyAdminCfg_tick (sl : Nat) (v : W32) : (s.applyAdminCfg sl v).tick = s.tick := by rfl
@[simp] theorem State.applyAdminBase_tick (sl : Nat) (hi : Bool) (v : W32) : (s.applyAdminBase sl hi v).tick = s.tick := by rfl
@[simp] theorem State.applyQprod_tick (sl q : Nat) (v : W32) : (s.applyQprod sl q v).tick = s.tick := by rfl
@[simp] theorem State.destroyCommit_tick (k : Nat) : (s.destroyCommit k).tick = s.tick := by
  simp only [State.destroyCommit]; repeat' split <;> simp
@[simp] theorem State.destroyEnd_tick (k : Nat) : (s.destroyEnd k).tick = s.tick := by unfold State.destroyEnd; split <;> simp
@[simp] theorem State.modeSwitch_tick (k : Nat) : (s.modeSwitch k).tick = s.tick := by simp only [State.modeSwitch]; repeat' split <;> simp

/-! ## Channels at the commit and the abandon -/

@[simp] theorem State.descEnd_tick (c : Nat) : (s.descEnd c).tick = s.tick := by simp only [State.descEnd]; repeat' split <;> simp
@[simp] theorem State.commitChan_tick (c : Nat) : (s.commitChan c).tick = s.tick := by simp [State.commitChan]
@[simp] theorem State.abandonChan_tick (c : Nat) : (s.abandonChan c).tick = s.tick := by simp [State.abandonChan]
@[simp] theorem State.abandonEntries_tick (k : Nat) : (s.abandonEntries k).tick = s.tick := by rfl

/-! ## Port commands -/

@[simp] theorem State.commitGone_tick (k : Nat) : (s.commitGone k).tick = s.tick := by rfl
@[simp] theorem State.beginPort_tick (k : Nat) : (s.beginPort k).tick = s.tick := by simp only [State.beginPort]; repeat' split <;> simp
@[simp] theorem State.disablePort_tick (k : Nat) (c : Cause) : (s.disablePort k c).tick = s.tick := by simp [State.disablePort]
@[simp] theorem State.commitResume_tick (k : Nat) (cause : WakeCause) : (s.commitResume k cause).tick = s.tick := by rfl

@[simp] theorem State.commitPort_tick (k : Nat) : (s.commitPort k).tick = s.tick := by
  unfold State.commitPort
  extract_lets x all ok win dropped s1 s2 s3 y s4 s5
  have h1 : s1.tick = s.tick := by simp [s1]
  have h2 : s2.tick = s1.tick := by
    unfold s2; generalize win = w
    split <;> simp
  simp [s5, s4, s3, h2, h1]

@[simp] theorem State.abandonPort_tick (k : Nat) : (s.abandonPort k).tick = s.tick := by rfl
@[simp] theorem State.applyLinkCtl_tick (k : Nat) (v : W32) : (s.applyLinkCtl k v).tick = s.tick := by rfl

/-! ## Port power -/

@[simp] theorem State.ownerSets_tick (a : Nat) : (s.ownerSets a).tick = s.tick := by rfl
@[simp] theorem State.rearmPort_tick (k : Nat) : (s.rearmPort k).tick = s.tick := by simp [State.rearmPort]
@[simp] theorem State.passClearPort_tick (k : Nat) : (s.passClearPort k).tick = s.tick := by simp [State.passClearPort]
@[simp] theorem State.trackShed_tick (k : Nat) : (s.trackShed k).tick = s.tick := by simp [State.trackShed]

@[simp] theorem State.commitPower_tick (k : Nat) : (s.commitPower k).tick = s.tick := by
  unfold State.commitPower
  extract_lets f shedNow s1 was set s2 s3 s4 s5
  have h3 : s3.tick = s.tick := by simp [s3, s2, s1]
  have h4 : s4.tick = s3.tick := by
    unfold s4; repeat' split
    all_goals simp
  simp [s5, h4, h3]

/-! ## Power domains -/

@[simp] theorem State.domEvent_tick (d i : Nat) : (s.domEvent d i).tick = s.tick := by rfl
@[simp] theorem State.losePort_tick (p : Nat) : (s.losePort p).tick = s.tick := by rfl
@[simp] theorem State.domOff_tick (d : Nat) : (s.domOff d).tick = s.tick := by simp [State.domOff]
@[simp] theorem State.domRetain_tick (d : Nat) : (s.domRetain d).tick = s.tick := by simp [State.domRetain]
@[simp] theorem State.domTurnsOn_tick (d : Nat) : (s.domTurnsOn d).tick = s.tick := by
  unfold State.domTurnsOn
  exact (State.forAll_tick _ (fun t p => by split <;> simp) _ _).trans (by simp)
@[simp] theorem State.applyPdCtl_tick (d : Nat) (v : W32) : (s.applyPdCtl d v).tick = s.tick := by rfl
@[simp] theorem State.refuse_tick (d code : Nat) : (s.refuse d code).tick = s.tick := by rfl
@[simp] theorem State.resetDom_tick (d : Nat) : (s.resetDom d).tick = s.tick := by simp [State.resetDom]
@[simp] theorem State.clearQuarantine_tick (d : Nat) : (s.clearQuarantine d).tick = s.tick := by simp [State.clearQuarantine]
@[simp] theorem State.requestOn_tick (d : Nat) : (s.requestOn d).tick = s.tick := by simp only [State.requestOn]; repeat' split <;> simp
@[simp] theorem State.commitDomains_tick : s.commitDomains.tick = s.tick := by simp [State.commitDomains]

/-! ## The supply -/

@[simp] theorem State.updSupply_tick (f : SupplyS → SupplyS) : (s.updSupply f).tick = s.tick := by rfl

@[simp] theorem State.commitSupply_tick : s.commitSupply.tick = s.tick := by
  unfold State.commitSupply; split
  · refine (State.forAll_tick _ (fun t d => ?_) _ _).trans (by simp)
    split
    · extract_lets u
      split <;> simp [u]
    · rfl
  · simp

@[simp] theorem State.downTick_tick : s.downTick.tick = s.tick := by unfold State.downTick; split <;> simp

/-! ## Trace and ready queues -/

@[simp] theorem State.stwEventSet_tick (sl i : Nat) : (s.stwEventSet sl i).tick = s.tick := by rfl
@[simp] theorem State.traceRec_tick (r : TraceRec) : (s.traceRec r).tick = s.tick := by simp [State.traceRec]
@[simp] theorem State.tr_tick (core cyc kind task sl arg : Nat) (val : W32) (cause : Nat) :
    (s.tr core cyc kind task sl arg val cause).tick = s.tick := by
  simp [State.tr]
@[simp] theorem State.makeEntry_tick (t cyc : Nat) : (s.makeEntry t cyc).2.tick = s.tick := by
  simp only [State.makeEntry]; split <;> simp
@[simp] theorem State.queueTask_tick_n (t cyc : Nat) (raiser : Option Nat) : (s.queueTask t cyc raiser).tick.n = s.tick.n := by
  simp only [State.queueTask]; repeat' split
  all_goals simp
@[simp] theorem State.evalTask_tick_n (t cyc : Nat) (raiser : Option Nat) : (s.evalTask t cyc raiser).tick.n = s.tick.n := by
  simp only [State.evalTask]; repeat' split
  all_goals simp
@[simp] theorem State.superseded_tick (d : Decision) (cyc cause : Nat) : (s.superseded d cyc cause).tick = s.tick := by
  simp [State.superseded]

/-! ## Traffic and the end of transfers -/

@[simp] theorem State.count_tick (item n : Nat) : (s.count item n).tick = s.tick := by rfl
@[simp] theorem State.ctlEffect_tick (i : Nat) (q3 : W64) : (s.ctlEffect i q3).tick = s.tick := by unfold State.ctlEffect; split <;> simp
@[simp] theorem State.endProgress_tick (i status : Nat) : (s.endProgress i status).tick = s.tick := by
  unfold State.endProgress; split <;> simp

/-! ## Slices -/

@[simp] theorem State.resetSegment_tick (p : Nat) (hops : List (BitVec 5)) : (s.resetSegment p hops).tick = s.tick := by
  simp only [State.resetSegment]; repeat' split <;> simp
@[simp] theorem State.fillFor_tick (sl : Nat) (ps : List Nat) : (s.fillFor sl ps).tick = s.tick := by simp [State.fillFor]
@[simp] theorem State.sliceEvent_tick (sl i : Nat) : (s.sliceEvent sl i).tick = s.tick := by rfl
@[simp] theorem State.extend_tick (sl n : Nat) : (s.extend sl n).tick = s.tick := by simp [State.extend]
@[simp] theorem State.stopWork_tick (sl : Nat) : (s.stopWork sl).tick = s.tick := by simp [State.stopWork]
@[simp] theorem State.resumeWork_tick (sl : Nat) : (s.resumeWork sl).tick = s.tick := by unfold State.resumeWork; split <;> simp
@[simp] theorem State.settleWork_tick (before : List Nat) : (s.settleWork before).tick = s.tick := by simp [State.settleWork]
@[simp] theorem State.discardHost_tick (sl : Nat) : (s.discardHost sl).tick = s.tick := by simp [State.discardHost]
@[simp] theorem State.dropPrograms_tick (sl p : Nat) : (s.dropPrograms sl p).tick = s.tick := by rfl
@[simp] theorem State.dropGraph_tick (g : Nat) : (s.dropGraph g).tick = s.tick := by simp [State.dropGraph]
@[simp] theorem State.releaseSlice_tick (sl : Nat) : (s.releaseSlice sl).tick = s.tick := by simp [State.releaseSlice]
@[simp] theorem State.trimPins_tick (sl ways : Nat) : (s.trimPins sl ways).tick = s.tick := by simp [State.trimPins]
@[simp] theorem State.withdrawChan_tick (sl c : Nat) : (s.withdrawChan sl c).tick = s.tick := by simp [State.withdrawChan]
@[simp] theorem State.expelDevice_tick (d : Nat) : (s.expelDevice d).tick = s.tick := by simp [State.expelDevice]
@[simp] theorem State.resizeSlice_tick (sl : Nat) (r : SlRec) : (s.resizeSlice sl r).tick = s.tick := by simp [State.resizeSlice]
@[simp] theorem State.defineSlice_tick (sl : Nat) (r : SlRec) : (s.defineSlice sl r).tick = s.tick := by simp [State.defineSlice]
@[simp] theorem State.bindSlice_tick (sl : Nat) (l : Link) (w : BitVec 4) (p : BitVec 20) (auto : Bool) :
    (s.bindSlice sl l w p auto).tick = s.tick := by
  simp [State.bindSlice]
@[simp] theorem State.unbindSlice_tick (sl : Nat) : (s.unbindSlice sl).tick = s.tick := by simp [State.unbindSlice]
@[simp] theorem State.freezeSlice_tick (sl : Nat) (down : Bool) : (s.freezeSlice sl down).tick = s.tick := by simp [State.freezeSlice]
@[simp] theorem State.thawSlice_tick (sl : Nat) : (s.thawSlice sl).tick = s.tick := by simp [State.thawSlice]
@[simp] theorem State.setAttach_tick (p : Nat) (hops : List (BitVec 5)) (e : Option (Sys2Proof.Slice × Bool)) :
    (s.setAttach p hops e).tick = s.tick := by
  simp [State.setAttach]
@[simp] theorem State.dropPayload_tick (sl : Nat) : (s.dropPayload sl).tick = s.tick := by simp [State.dropPayload]
@[simp] theorem State.commitLinks_tick : s.commitLinks.tick = s.tick := by simp [State.commitLinks]
@[simp] theorem State.commitHolds_tick : s.commitHolds.tick = s.tick := by simp [State.commitHolds]

/-! ## Tickets -/

@[simp] theorem State.ticketTimeout_tick (i : Nat) : (s.ticketTimeout i).tick = s.tick := by
  simp only [State.ticketTimeout]; split
  · split <;> simp
  · rfl

/-! ## Event queue registers -/

@[simp] theorem State.applyEqCfg_tick (sl : Nat) (v : W32) : (s.applyEqCfg sl v).tick = s.tick := by simp [State.applyEqCfg]
@[simp] theorem State.applyEqBase_tick (sl : Nat) (hi : Bool) (v : W32) : (s.applyEqBase sl hi v).tick = s.tick := by rfl
@[simp] theorem State.applyEqCtl_tick (sl : Nat) (v : W32) : (s.applyEqCtl sl v).tick = s.tick := by rfl
@[simp] theorem State.applyHoldoff_tick (sl i : Nat) (v : W32) : (s.applyHoldoff sl i v).tick = s.tick := by rfl

/-! ## The watchman -/

@[simp] theorem State.updWatch_tick (f : WatchS → WatchS) : (s.updWatch f).tick = s.tick := by rfl
@[simp] theorem State.wmEvent_tick (i : Nat) : (s.wmEvent i).tick = s.tick := by rfl
@[simp] theorem State.answer_tick (typ : Nat) (seq : W32) (status : Nat) (data : List Byte) (accepted : Bool) :
    (s.answer typ seq status data accepted).tick = s.tick := by rfl
@[simp] theorem State.moveWarden_tick (l : Nat) : (s.moveWarden l).tick = s.tick := by unfold State.moveWarden; split <;> simp
@[simp] theorem State.commitWatch_tick : s.commitWatch.tick = s.tick := by simp only [State.commitWatch]; repeat' split <;> simp

/-! ## The gleaner -/

@[simp] theorem State.gleanAt0_tick : s.gleanAt0.tick = s.tick := by simp [State.gleanAt0]

/-! ## Enumeration -/

@[simp] theorem State.enumNext_tick (p : Nat) : (s.enumNext p).tick = s.tick := by simp only [State.enumNext]; repeat' split <;> simp

theorem State.allocate_tick {u : State} {sl p d : Nat} {hops : List (BitVec 5)} {ident : List Byte}
    (h : s.allocate sl p hops ident = .ok (d, u)) : u.tick = s.tick := by
  simp only [State.allocate] at h
  split at h
  · cases h
  · split at h
    · cases h
    · cases h; simp

@[simp] theorem State.enumDone_tick (p : Nat) (res : EResult) : (s.enumDone p res).tick = s.tick := by rfl
@[simp] theorem State.enumRelease_tick (d : Nat) : (s.enumRelease d).tick = s.tick := by simp [State.enumRelease]
@[simp] theorem State.enumFail_tick (p needed : Nat) : (s.enumFail p needed).tick = s.tick := by
  simp only [State.enumFail]; repeat' split <;> simp
@[simp] theorem State.enumRetry_tick (p : Nat) : (s.enumRetry p).tick = s.tick := by simp [State.enumRetry]
@[simp] theorem State.enumTo_tick (p : Nat) (st : EStep) : (s.enumTo p st).tick = s.tick := by rfl

@[simp] theorem State.serveHub_tick (p d : Nat) : (s.serveHub p d).tick = s.tick := by
  unfold State.serveHub
  extract_lets x due ps s1
  split
  · split <;> simp [s1]
  · simp [s1]

@[simp] theorem State.activate_tick (i : Nat) : (s.activate i).tick = s.tick := by simp only [State.activate]; repeat' split <;> simp
@[simp] theorem State.enumAttach_tick (p d : Nat) : (s.enumAttach p d).tick = s.tick := by simp [State.enumAttach]
@[simp] theorem State.enumWake_tick (p d : Nat) : (s.enumWake p d).tick = s.tick := by simp [State.enumWake]
@[simp] theorem State.setEndpoints_tick (d : Nat) (tbl : List Byte) : (s.setEndpoints d tbl).tick = s.tick := by simp [State.setEndpoints]
@[simp] theorem State.enumChanged_tick (p d : Nat) : (s.enumChanged p d).tick = s.tick := by simp [State.enumChanged]

@[simp] theorem State.enumIdent_tick (p : Nat) (b : List Byte) : (s.enumIdent p b).tick = s.tick := by
  unfold State.enumIdent
  extract_lets s1 x
  have h1 : s1.tick = s.tick := by
    unfold s1; split <;> simp
  clear_value s1
  split
  · simp [h1]
  · split
    next h => simp [s1.allocate_tick h, h1]
    next => simp [h1]

@[simp] theorem State.enumTable_tick (p d : Nat) (b : List Byte) : (s.enumTable p d b).tick = s.tick := by simp [State.enumTable]
@[simp] theorem State.enumOk_tick (p : Nat) (b : List Byte) : (s.enumOk p b).tick = s.tick := by
  simp only [State.enumOk]; repeat' split <;> simp
@[simp] theorem State.enumEnd_tick (p : Nat) (res : Option (List Byte)) : (s.enumEnd p res).tick = s.tick := by
  unfold State.enumEnd; split <;> simp

@[simp] theorem State.enumP16_tick : s.enumP16.tick = s.tick := by
  simp only [State.enumP16]; split
  · simp
  · split <;> simp

/-! ## Slice images -/

@[simp] theorem State.restoreQueue_tick (sl : Nat) (w : W64 × W64) : (s.restoreQueue sl w).tick = s.tick := by rfl
@[simp] theorem State.restoreChan_tick (sl : Nat) (w : W64 × W64) : (s.restoreChan sl w).tick = s.tick := by simp [State.restoreChan]
@[simp] theorem State.restorePeriodic_tick (sl : Nat) (w : W64) : (s.restorePeriodic sl w).tick = s.tick := by simp [State.restorePeriodic]
@[simp] theorem State.restoreBound_tick (sl : Nat) (w : W64 × W64) : (s.restoreBound sl w).tick = s.tick := by simp [State.restoreBound]
@[simp] theorem State.restoreSlice_tick (sl : Nat) (body : List W64) (e : Entry) : (s.restoreSlice sl body e).tick = s.tick := by
  simp [State.restoreSlice]
@[simp] theorem State.applyAct_tick (a : SliceAct) : (s.applyAct a).tick = s.tick := by cases a <;> simp [State.applyAct]
@[simp] theorem State.commitActs_tick : s.commitActs.tick = s.tick := by simp [State.commitActs]

/-! ## Policies and decisions -/

@[simp] theorem State.policyReady_tick (k : Nat) : (s.policyReady k).tick = s.tick := by unfold State.policyReady; split <;> simp
@[simp] theorem State.endPolicy_tick (c : Nat) : (s.endPolicy c).tick = s.tick := by unfold State.endPolicy; split <;> simp
@[simp] theorem State.policyActed_tick (task : Task) (sl : Nat) : (s.policyActed task sl).tick = s.tick := by simp [State.policyActed]
@[simp] theorem State.shedDecided_tick (p : Nat) (on : Bool) : (s.shedDecided p on).tick = s.tick := by simp [State.shedDecided]
@[simp] theorem State.applyDecision_tick (d : Decision) : (s.applyDecision d).tick = s.tick := by
  simp only [State.applyDecision]; repeat' split <;> simp
@[simp] theorem State.commitDecision_tick (d : Decision) : (s.commitDecision d).tick = s.tick := by simp [State.commitDecision]
@[simp] theorem State.commitSteward_tick : s.commitSteward.tick = s.tick := by simp [State.commitSteward]

/-! ## The journal -/

@[simp] theorem State.setJournalEpoch_tick_n : s.setJournalEpoch.tick.n = s.tick.n := by rfl
@[simp] theorem State.commitJournal_tick_n : s.commitJournal.tick.n = s.tick.n := by simp only [State.commitJournal]; repeat' split <;> simp

/-! ## Metrology -/

@[simp] theorem State.updMet_tick (f : MetS → MetS) : (s.updMet f).tick = s.tick := by rfl
@[simp] theorem State.addSet_tick (tick : BitVec 48) (set : Option (List Byte)) (freeRun : Bool) :
    (s.addSet tick set freeRun).tick = s.tick := by rfl
@[simp] theorem State.applyRawCtl_tick (sl : Nat) (v : W32) : (s.applyRawCtl sl v).tick = s.tick := by simp [State.applyRawCtl]
@[simp] theorem State.applyRawBase_tick (sl : Nat) (hi : Bool) (v : W32) : (s.applyRawBase sl hi v).tick = s.tick := by rfl
@[simp] theorem State.metTick_tick : s.metTick.tick = s.tick := by simp [State.metTick]
@[simp] theorem State.commitMet_tick : s.commitMet.tick = s.tick := by unfold State.commitMet; split <;> simp

/-! ## Posted writes -/

@[simp] theorem State.applyWindow_tick (sl : Nat) (r : BarReg) (v : W32) : (s.applyWindow sl r v).tick = s.tick := by
  unfold State.applyWindow; split <;> simp
@[simp] theorem State.applyInd_tick (r : IndReg) (v : W32) : (s.applyInd r v).tick = s.tick := by unfold State.applyInd; split <;> simp
@[simp] theorem State.applyWrite_tick (w : HWrite) : (s.applyWrite w).tick = s.tick := by
  simp only [State.applyWrite]; repeat' split
  all_goals simp
@[simp] theorem State.commitWrites_tick : s.commitWrites.tick = s.tick := by simp [State.commitWrites]

/-! ## Measurements and the snapshot -/

@[simp] theorem State.measurePort_tick (meas : List Meas) (p : Nat) : (s.measurePort meas p).tick = s.tick := by simp [State.measurePort]
@[simp] theorem State.takeMeas_tick (meas : List Meas) : (s.takeMeas meas).tick = s.tick := by simp [State.takeMeas]
@[simp] theorem State.latchSnapshot_tick (meas : List Meas) : (s.latchSnapshot meas).tick = s.tick := by rfl
@[simp] theorem State.holdSnapshot_tick (meas : List Meas) : (s.holdSnapshot meas).tick = s.tick := by rfl

/-! ## The selvage -/

@[simp] theorem State.watchOwns_tick : s.watchOwns.tick = s.tick := by simp [State.watchOwns]
@[simp] theorem State.commitPortCmd_tick (p : Nat) : (s.commitPortCmd p).tick = s.tick := by simp [State.commitPortCmd]
@[simp] theorem State.detachTaken_tick (p : Nat) : (s.detachTaken p).tick = s.tick := by simp [State.detachTaken]
@[simp] theorem State.settlePort_tick (p : Nat) : (s.settlePort p).tick = s.tick := by simp [State.settlePort]
@[simp] theorem State.loseOne_tick (i : Nat) : (s.loseOne i).tick = s.tick := by unfold State.loseOne; split <;> simp
@[simp] theorem State.loseLine_tick (line : Nat) : (s.loseLine line).tick = s.tick := by simp [State.loseLine]
@[simp] theorem State.commitLost_tick_n : s.commitLost.tick.n = s.tick.n := by
  unfold State.commitLost
  exact State.forAll_tick_n _ (fun t x => by split <;> simp) s _
@[simp] theorem State.commitRecs_tick (c : Nat) : (s.commitRecs c).tick = s.tick := by simp [State.commitRecs]
@[simp] theorem State.keepSpeed_tick (p : Nat) : (s.keepSpeed p).tick = s.tick := by simp [State.keepSpeed]
@[simp] theorem State.commitChanges_tick_n : s.commitChanges.tick.n = s.tick.n := by simp [State.commitChanges]
@[simp] theorem State.oweWork_tick (cpls : List Cpl) : (s.oweWork cpls).tick = s.tick := by rfl
@[simp] theorem State.commitEvents_tick (frz : List Nat) : (s.commitEvents frz).tick = s.tick := by simp [State.commitEvents]
@[simp] theorem State.rotateHalves_tick : s.rotateHalves.tick = s.tick := by rfl
@[simp] theorem State.decided_tick_n : s.decided.tick.n = s.tick.n := by rfl
@[simp] theorem State.countEpoch_tick_n : s.countEpoch.tick.n = s.tick.n := by rfl
@[simp] theorem State.commitTick_tick_n (meas : List Meas) : (s.commitTick meas).tick.n = s.tick.n := by simp [State.commitTick]
@[simp] theorem State.dropPending_tick : s.dropPending.tick = s.tick := by rfl
@[simp] theorem State.pollAgain_tick (ks : List Nat) : (s.pollAgain ks).tick = s.tick := by rfl
@[simp] theorem State.commitStats_tick (bits : List Nat) : (s.commitStats bits).tick = s.tick := by rfl
@[simp] theorem State.countAbandon_tick_n (split : Bool) : (s.countAbandon split).tick.n = s.tick.n := by simp [State.countAbandon]

@[simp] theorem State.abandonTick_tick_n (split : Bool) (meas : List Meas) : (s.abandonTick split meas).tick.n = s.tick.n := by
  unfold State.abandonTick
  extract_lets polled e s1 s2 s3 s4 s5 s6
  have h2 : s2.tick = s.tick := by simp [s2, s1]
  have h5 : s5.tick.n = s2.tick.n := by simp [s5, s4, s3]
  have h6 : s6.tick = s5.tick := s5.tr_tick ..
  rw [State.holdSnapshot_tick, State.moveClaims_tick, State.occur_tick, h6, h5, h2]

@[simp] theorem State.splitReport_tick_n (split : Bool) : (s.splitReport split).tick.n = s.tick.n := by
  unfold State.splitReport; split <;> simp
@[simp] theorem State.keepAlive_tick (p : Nat) : (s.keepAlive p).tick = s.tick := by simp [State.keepAlive]

/-! ## The beginning of a tick -/

@[simp] theorem State.shuttleAt0_tick (p : Nat) : (s.shuttleAt0 p).tick = s.tick := by rfl
@[simp] theorem State.tickFlag_tick (t : Nat) : (s.tickFlag t).tick = s.tick := by simp [State.tickFlag]

@[simp] theorem State.stewardAt0_tick_n : s.stewardAt0.tick.n = s.tick.n := by
  unfold State.stewardAt0; split
  · simp
  · rfl

@[simp] theorem State.nextTick_tick_n : s.nextTick.tick.n = s.tick.n + 1 := by rfl
@[simp] theorem State.takeDue_tick : s.takeDue.tick = s.tick := by rfl
@[simp] theorem State.entriesAt0_tick : s.entriesAt0.tick = s.tick := by rfl

end Sys2Proof.Machine
end

section
/-! The tick number starts at 0, counts every tick and is never rolled back (02, R24). -/
namespace Sys2Proof.Machine

open Sys2Proof

/-- A cold start begins with the tick's record at its reset value. -/
theorem execColdStart_tick {s : State} {cause : Nat} (h : s.supply.release = some cause) (hf : s.supply.bankFault = false) :
    ∃ t, execColdStart s = .next t ∧ t.tick = {} := by
  have hf' : s.supply.coldStart.bankFault = false := hf
  refine ⟨_, rfl, ?_⟩
  rw [h]
  simp [State.logAon, hf', State.coldBase, State.reset]

/-- TICK_BEGIN counts the tick that the selvage ended, whatever was decided of it; without a selvage it is no new tick. -/
theorem execTickBegin_tick_n (s : State) :
    ∃ t, execTickBegin s = .next t ∧ t.tick.n = if s.tick.selvage then s.tick.n + 1 else s.tick.n := by
  refine ⟨_, rfl, ?_⟩
  split <;> simp

/-- Neither the commit nor the abandon of a tick moves its number. -/
theorem execSelvage_tick_n (split : Bool) (meas : List Meas) (s : State) :
    ∃ t, execSelvage split meas s = .next t ∧ t.tick.n = s.tick.n := by
  refine ⟨_, rfl, ?_⟩
  split <;> simp

/-- Settles O3: a cold start resets the tick's record, and of what TICK_BEGIN and SELVAGE do only `State.nextTick` moves the number. -/
theorem tickNumberCounts : Obligations.TickNumberCounts := by
  refine ⟨fun cause s h hf => ?_, execTickBegin_tick_n, fun s split meas => execSelvage_tick_n split meas s⟩
  obtain ⟨t, ht, hn⟩ := execColdStart_tick h hf
  exact ⟨t, ht, by simp [hn]⟩

end Sys2Proof.Machine
end

section
/-! SUPPORT. What a Coresh instruction does at its unit (06 R190, R193, R226): when its guard holds and when it fails, and what going on
does to a thread of which no loop body is open. -/
namespace Sys2Proof.Machine

open Sys2Proof Sys2Proof.Safety

/-! ## Threads and their table -/

/-- The second of two writes of an entry is what stays. -/
@[simp] theorem Tab.set_set {α : Type} (t : Tab α) (k : Nat) (x y : α) : (t.set k x).set k y = t.set k y := by
  induction t with
  | nil => simp [Tab.set]
  | cons a t ih =>
    obtain ⟨j, z⟩ := a
    rcases Nat.lt_trichotomy k j with h | rfl | h
    · simp [Tab.set, h]
    · simp [Tab.set]
    · have hlt : ¬k < j := Nat.not_lt.2 (Nat.le_of_lt h)
      have hne : k ≠ j := Nat.ne_of_gt h
      simp only [Tab.set, if_neg hlt, if_neg hne, ih]

theorem State.updThread_congr (s : State) (k : Nat) {f g : Thread → Thread} (h : f (s.thread k) = g (s.thread k)) :
    s.updThread k f = s.updThread k g := by
  unfold State.thread at h
  simp only [State.updThread, Tab.upd, h]

@[simp] theorem State.updThread_updThread (s : State) (k : Nat) (f g : Thread → Thread) :
    (s.updThread k f).updThread k g = s.updThread k (g ∘ f) := by
  simp [State.updThread, Tab.upd]

theorem onlyThread_updThread (s : State) (u : CUnit) (f : Thread → Thread) :
    OnlyThread s (s.updThread (unitKey u) f) u (f (s.thread (unitKey u))) :=
  ⟨s.updThread_thread _ f, fun k hk => s.updThread_thread_ne _ k f hk, s.updThread_frame _ f⟩

/-! ## Going on -/

/-- A change that leaves the unit's thread as it is does not show once the thread goes on. -/
theorem State.goOn_updThread_same (s : State) (u : CUnit) (pc cyc : Nat) {f : Thread → Thread}
    (h : f (s.thread (unitKey u)) = s.thread (unitKey u)) : (s.updThread (unitKey u) f).goOn u pc cyc = s.goOn u pc cyc := by
  have hput : ∀ x : Thread, (s.updThread (unitKey u) f).updThread (unitKey u) (fun _ => x) = s.updThread (unitKey u) (fun _ => x) :=
    fun x => s.updThread_updThread _ f _
  simp only [State.goOn, State.updThread_thread, h, hput]

/-- With no loop body open, a thread that goes on within its program changes its place and cycle alone (R192). -/
theorem State.goOn_inside (s : State) (u : CUnit) (pc cyc : Nat) (h : Inside (s.thread (unitKey u)) pc) :
    s.goOn u pc cyc = s.updThread (unitKey u) (fun x => { x with pc := pc, cycle := cyc }) := by
  obtain ⟨hloops, hpc⟩ := h
  have hsettle : settle (s.thread (unitKey u)).loops pc { s.thread (unitKey u) with cycle := cyc } =
      { s.thread (unitKey u) with pc := pc, cycle := cyc } := by
    rw [hloops, settle, ← hloops]
  simp only [State.goOn, hsettle, Nat.not_le.2 hpc, if_false]
  exact s.updThread_congr _ rfl

/-- With no loop body open, a branch within the program is a jump (R198). -/
theorem State.branch_inside (s : State) (u : CUnit) (pc cyc : Nat) (h : Inside (s.thread (unitKey u)) pc) :
    s.branch u pc cyc = s.updThread (unitKey u) (fun x => { x with pc := pc, cycle := cyc }) := by
  rw [State.branch, State.goOn_updThread_same s u pc cyc (by rw [h.1]), s.goOn_inside u pc cyc h]

/-! ## The frame of an instruction -/

section
variable {s : State} {u : CUnit} {i : Instr} {gd : Guard}

theorem State.coresh_of_not_wf (h : i.coreshWf = false) (wait : Bool) (f skip : Nat → State → State) :
    s.coresh u i gd wait f skip = .fault .notAdmitted := by
  simp [State.coresh, h]

/-- An instruction that is ready has its effect, from the cycle at which it starts. -/
theorem State.coresh_of_ready (h : Ready s u i gd) (f skip : Nat → State → State) :
    s.coresh u i gd false f skip = .next (f (startOf s u i) s) := by
  obtain ⟨hwf, hat, hholds, hregs⟩ := h
  simp [State.coresh, hwf, hat, hholds, hregs, startOf]

/-- An instruction whose guard fails does what it does then, whatever it would wait for. -/
theorem State.coresh_of_guard_failed (hwf : i.coreshWf = true) (hat : s.atInstr u i = true)
    (hholds : (s.thread (unitKey u)).holds gd = false) (wait : Bool) (f skip : Nat → State → State) :
    s.coresh u i gd wait f skip = .next (skip (s.thread (unitKey u)).cycle s) := by
  simp [State.coresh, hwf, hat, hholds]

/-- An instruction that is ready changes its unit as its effect does from the cycle at which it starts. -/
theorem changes_of_coresh {cost : Nat} {f : Thread → Thread} {effect skip : Nat → State → State}
    (hexec : exec i s = s.coresh u i gd false effect skip)
    (heffect : i.coreshWf = true →
      effect (startOf s u i) s = (s.updThread (unitKey u) f).advance u (startOf s u i) cost) : Changes s u gd i cost f := by
  intro h
  rw [hexec, State.coresh_of_ready h, heffect h.1]

theorem computes_of_coreshReg {d : Reg} {cost : Nat} {v : Thread → W32} {w : W32} (hexec : exec i s = s.coreshReg u i gd d cost v)
    (hv : i.coreshWf = true → v (s.thread (unitKey u)) = w) : Computes s u gd i d w cost :=
  changes_of_coresh hexec fun hwf => congrArg (State.advance · u _ cost) (s.updThread_congr _ (by rw [hv hwf]))

theorem changes_of_coreshPred {pd : Pred} {v : Thread → Bool} {b : Bool} (hexec : exec i s = s.coreshPred u i gd pd v)
    (hv : v (s.thread (unitKey u)) = b) : Changes s u gd i 1 (fun x => x.setPred pd b) :=
  changes_of_coresh hexec fun _ => congrArg (State.advance · u _ 1) (s.updThread_congr _ (by rw [hv]))

/-- A write of p0 is ignored (R190). -/
theorem changes_id_of_setPred_zero {cost : Nat} {b : Bool} (h : Changes s u gd i cost (fun x => x.setPred 0 b)) :
    Changes s u gd i cost id := h

end

/-! ## What every instruction has in common -/

/-- What an instruction whose guard fails does: it passes over itself and, a LOOP, its body, at its cost (R193). -/
def State.passOver (u : CUnit) (i : Instr) (c0 : Nat) (s : State) : State :=
  s.goOn u ((s.thread (unitKey u)).pc + 1 + skipped i) (c0 + failedCost i)

/-- The meaning of `i` at `s` is the frame of a Coresh instruction, in which it is passed over where its guard fails. -/
def Framed (s : State) (u : CUnit) (i : Instr) (gd : Guard) : Prop :=
  ∃ wait effect, exec i s = s.coresh u i gd wait effect (State.passOver u i)

section
variable {s : State} {u : CUnit} {p : Port} {i : Instr} {gd : Guard}

theorem framed_of_coreshReg {d : Reg} {cost : Nat} {v : Thread → W32} (hexec : exec i s = s.coreshReg u i gd d cost v)
    (hskip : State.skip1 u = State.passOver u i) : Framed s u i gd :=
  ⟨_, _, by rw [hexec, State.coreshReg, hskip]⟩

theorem framed_of_coreshPred {pd : Pred} {v : Thread → Bool} (hexec : exec i s = s.coreshPred u i gd pd v)
    (hskip : State.skip1 u = State.passOver u i) : Framed s u i gd :=
  ⟨_, _, by rw [hexec, State.coreshPred, hskip]⟩

theorem framed_of_busInstr {k : WKind} {d e : Reg} {cnt rty cost : Nat} (hexec : exec i s = s.busInstr p i gd k d e cnt rty cost)
    (hskip : State.skip1 (.loom p) = State.passOver (.loom p) i) : Framed s (.loom p) i gd :=
  ⟨_, _, by rw [hexec, State.busInstr, hskip]⟩

/-- Every Coresh instruction has the frame: those that write a register or a predicate and the bus instructions through their own forms,
the others at once. -/
theorem framed_of_unitGuard (h : unitGuard i = some (u, gd)) (s : State) : Framed s u i gd := by
  cases i with
  | add | sub | and | or | xor | shl | shr | sar | min | max | mul | addi | andi | ori | xori | shli | shri | movi | movhi
  | snap | bound | ema => cases h; exact framed_of_coreshReg rfl rfl
  | cmp | cmpi | plog => cases h; exact framed_of_coreshPred rfl rfl
  | poll | take | give | setup | ping | defer => cases h; exact framed_of_busInstr rfl rfl
  | nop | endRun | rds | br | loop | await | raise | selc | selcr | stc | suspend | resume | probe | weave | act | timer | flow
  | trace => cases h; exact ⟨_, _, by unfold exec; rfl⟩
  | ldc => cases h; exact ⟨_, _, by unfold exec execLdc; rfl⟩
  | _ => cases h

/-- An instruction in an encoding that no unit runs stops the model by name (R228). -/
theorem exec_of_not_wf (h : unitGuard i = some (u, gd)) (hwf : i.coreshWf = false) (s : State) : exec i s = .fault .notAdmitted := by
  obtain ⟨wait, effect, hexec⟩ := framed_of_unitGuard h s
  rw [hexec, State.coresh_of_not_wf hwf]

theorem exec_of_guard_failed (h : unitGuard i = some (u, gd)) (hwf : i.coreshWf = true) (hat : s.atInstr u i = true)
    (hholds : (s.thread (unitKey u)).holds gd = false) :
    exec i s = .next (State.passOver u i (s.thread (unitKey u)).cycle s) := by
  obtain ⟨wait, effect, hexec⟩ := framed_of_unitGuard h s
  rw [hexec, State.coresh_of_guard_failed hwf hat hholds]

end

end Sys2Proof.Machine
end

section
/-! SUPPORT. The words that the decoder of a unit accepts (06, R193 to R197): their guard, the constructor that their opcode selects, and
that they are well formed. -/
namespace Sys2Proof.Machine

open Sys2Proof Sys2Proof.Safety

/-! ## Bits of a word -/

theorem bitsAt_eq_extractLsb' (w : W32) (lo n : Nat) : bitsAt w lo n = w.extractLsb' lo n := by
  rw [bitsAt, ← Nat.shiftRight_eq_div_pow]; rfl

theorem bitAt_eq_getLsbD (w : W32) (lo : Nat) : Sys2Proof.bitAt w lo = w.getLsbD lo := by
  rw [BitVec.getLsbD, Nat.testBit_eq_decide_div_mod_eq]; rfl

/-- The guard that the word of an instruction holds: N is bit 25, P bits [24:23]. -/
def wordGuard (w : W32) : Guard := { neg := Sys2Proof.bitAt w 25, pr := bitsAt w 23 2 }

/-! ## The fields of a word, those that both units have and those of one -/

/-- The instruction of an opcode that the unit alone runs, or whose operands are the unit's own. -/
def fieldsOwn (u : CUnit) (op : Nat) (w : W32) (gd : Guard) (d a : Reg) : Option Instr :=
  match u with
  | .loom p => fieldsLoom p op w gd d
  | .core c => fieldsCore c op w gd d a

theorem coreshFields_eq_or (u : CUnit) (w : W32) : coreshFields u w =
    (fieldsBoth u (bitsAt w 26 6).toNat w (wordGuard w) (bitsAt w 19 4) (bitsAt w 15 4) (bitsAt w 11 4)).or
      (fieldsOwn u (bitsAt w 26 6).toNat w (wordGuard w) (bitsAt w 19 4) (bitsAt w 15 4)) := by
  unfold coreshFields wordGuard
  dsimp only
  split
  next h => rw [h, Option.some_or]
  next h => rw [h, Option.none_or]; cases u <;> rfl

/-! ## What the decoder accepts -/

/-- A word decodes to the instruction of its fields, whose word it is and which is well formed (R194 to R197). -/
theorem decodeCoresh_some {u : CUnit} {w : W32} {i : Instr} (h : decodeCoresh u w = some i) :
    coreshFields u w = some i ∧ encodeCoresh i = some w ∧ i.coreshWf = true := by
  unfold decodeCoresh at h
  split at h
  next j hfields =>
    split at h
    next hj => cases h; exact ⟨hfields, hj⟩
    next => cases h
  next => cases h

theorem decodeCoresh_ne_of_not_wf {i : Instr} (h : i.coreshWf = false) (u : CUnit) (w : W32) : decodeCoresh u w ≠ some i := by
  intro hdecode
  obtain ⟨-, -, hwf⟩ := decodeCoresh_some hdecode
  exact Bool.false_ne_true (h.symm.trans hwf)

/-! ## The guard that the decoder gives -/

theorem fieldsBoth_unitGuard {u : CUnit} {op : Nat} {w : W32} {gd : Guard} {d a b : Reg} {i : Instr}
    (h : fieldsBoth u op w gd d a b = some i) : unitGuard i = some (u, gd) := by
  unfold fieldsBoth at h
  split at h <;> cases h <;> rfl

/-- SELC alone has no guard. -/
theorem fieldsLoom_unitGuard {p : Port} {op : Nat} {w : W32} {gd : Guard} {d : Reg} {i : Instr}
    (h : fieldsLoom p op w gd d = some i) : unitGuard i = some (.loom p, gd) ∨ ∃ idx, i = .selc p idx := by
  unfold fieldsLoom at h
  split at h <;> cases h
  case h_2 => exact .inr ⟨_, rfl⟩
  all_goals exact .inl rfl

theorem fieldsCore_unitGuard {c : Core} {op : Nat} {w : W32} {gd : Guard} {d a : Reg} {i : Instr}
    (h : fieldsCore c op w gd d a = some i) : unitGuard i = some (.core c, gd) := by
  unfold fieldsCore at h
  split at h <;> cases h <;> rfl

theorem coreshFields_unitGuard {u : CUnit} {w : W32} {i : Instr} (h : coreshFields u w = some i) :
    unitGuard i = some (u, wordGuard w) ∨ ∃ p idx, u = .loom p ∧ i = .selc p idx := by
  rw [coreshFields_eq_or, Option.or_eq_some_iff] at h
  rcases h with hboth | ⟨-, hown⟩
  · exact .inl (fieldsBoth_unitGuard hboth)
  · cases u with
    | loom p => exact (fieldsLoom_unitGuard hown).imp_right fun ⟨idx, hi⟩ => ⟨p, idx, rfl, hi⟩
    | core c => exact .inl (fieldsCore_unitGuard hown)

/-- The word of SELC holds 0 where others hold their guard, and under guard 0b000 an instruction always executes. -/
theorem wordGuard_selc {p : Port} {idx : CtxIdx} {w : W32} (h : encodeCoresh (.selc p idx) = some w) : wordGuard w = noGuard := by
  have hidx := idx.isLt
  have hw : w.toNat = 0x1D * 2 ^ 26 + idx.toNat := by
    rw [← Option.some.inj h, BitVec.toNat_ofNat, Nat.mod_eq_of_lt (by omega)]
  have hneg : Sys2Proof.bitAt w 25 = false := by
    rw [Sys2Proof.bitAt, hw]
    exact beq_false_of_ne (by omega)
  have hpr : bitsAt w 23 2 = 0 := by
    apply BitVec.eq_of_toNat_eq
    rw [bitsAt, hw, BitVec.toNat_ofNat]
    change _ = 0
    omega
  rw [wordGuard, hneg, hpr, noGuard]

theorem decodeCoresh_unitGuard {u : CUnit} {w : W32} {i : Instr} (h : decodeCoresh u w = some i) :
    unitGuard i = some (u, wordGuard w) := by
  obtain ⟨hfields, hword, -⟩ := decodeCoresh_some h
  rcases coreshFields_unitGuard hfields with hguard | ⟨p, idx, rfl, rfl⟩
  · exact hguard
  · rw [wordGuard_selc hword]; rfl

/-! ## The opcode selects the instruction -/

section
variable (op : Nat) (w w' : W32) (gd gd' : Guard) (d d' a a' b b' : Reg)

theorem fieldsBoth_ctorIdx (u u' : CUnit) :
    (fieldsBoth u op w gd d a b).map Instr.ctorIdx = (fieldsBoth u' op w' gd' d' a' b').map Instr.ctorIdx := by
  unfold fieldsBoth
  split <;> rfl

theorem fieldsLoom_ctorIdx (p p' : Port) :
    (fieldsLoom p op w gd d).map Instr.ctorIdx = (fieldsLoom p' op w' gd' d').map Instr.ctorIdx := by
  unfold fieldsLoom
  split <;> rfl

theorem fieldsCore_ctorIdx (c c' : Core) :
    (fieldsCore c op w gd d a).map Instr.ctorIdx = (fieldsCore c' op w' gd' d' a').map Instr.ctorIdx := by
  unfold fieldsCore
  split <;> rfl

theorem fieldsOwn_ctorIdx {u u' : CUnit} (hu : u.isLoom = u'.isLoom) :
    (fieldsOwn u op w gd d a).map Instr.ctorIdx = (fieldsOwn u' op w' gd' d' a').map Instr.ctorIdx := by
  cases u <;> cases u'
  case loom.loom p p' => exact fieldsLoom_ctorIdx op w w' gd gd' d d' p p'
  case core.core c c' => exact fieldsCore_ctorIdx op w w' gd gd' d d' a a' c c'
  all_goals cases hu

end

/-- The constructor of an opcode on a loom or on a core. -/
def ctorOfOp (loom : Bool) (op : Nat) : Option Nat :=
  let u : CUnit := if loom then .loom 0 else .core 0
  ((fieldsBoth u op 0 noGuard 0 0 0).or (fieldsOwn u op 0 noGuard 0 0)).map Instr.ctorIdx

/-- On one kind of unit the opcode alone selects the constructor, whatever the operands. -/
theorem coreshFields_ctorIdx (u : CUnit) (w : W32) :
    (coreshFields u w).map Instr.ctorIdx = ctorOfOp u.isLoom (bitsAt w 26 6).toNat := by
  have hu : u.isLoom = (if u.isLoom then CUnit.loom 0 else .core 0).isLoom := by cases u <;> rfl
  have hown := fieldsOwn_ctorIdx (bitsAt w 26 6).toNat w 0 (wordGuard w) noGuard (bitsAt w 19 4) 0 (bitsAt w 15 4) 0 hu
  rw [coreshFields_eq_or, ctorOfOp, Option.map_or, Option.map_or, hown, fieldsBoth_ctorIdx]

/-- No two opcodes of a unit have one constructor. -/
theorem ctorOfOp_inj :
    ∀ loom, ∀ op < 64, ctorOfOp loom op ≠ none → ∀ op' < 64, ctorOfOp loom op = ctorOfOp loom op' → op = op' := by
  decide

theorem decodeCoresh_ctorOfOp {u : CUnit} {w : W32} {i : Instr} (h : decodeCoresh u w = some i) :
    ctorOfOp u.isLoom (bitsAt w 26 6).toNat = some i.ctorIdx := by
  rw [← coreshFields_ctorIdx, (decodeCoresh_some h).1, Option.map_some]

theorem decodeCoresh_opcode_eq_iff {u : CUnit} {w w' : W32} {i i' : Instr} (h : decodeCoresh u w = some i)
    (h' : decodeCoresh u w' = some i') : bitsAt w 26 6 = bitsAt w' 26 6 ↔ i.ctorIdx = i'.ctorIdx := by
  have hi := decodeCoresh_ctorOfOp h
  have hi' := decodeCoresh_ctorOfOp h'
  constructor
  · intro hop
    exact Option.some.inj (by rw [← hi, ← hi', hop])
  · intro hctor
    have hsome : ctorOfOp u.isLoom (bitsAt w 26 6).toNat ≠ none := by rw [hi]; exact Option.some_ne_none _
    exact BitVec.eq_of_toNat_eq (ctorOfOp_inj _ _ (BitVec.isLt _) hsome _ (BitVec.isLt _) (by rw [hi, hi', hctor]))

end Sys2Proof.Machine
end

section
/-! The word of an instruction, its guard, and its cost where it does not execute (06, R193). -/
namespace Sys2Proof.Machine

open Sys2Proof Sys2Proof.Safety

theorem exec_br (s : State) (u : CUnit) (gd : Guard) (off : W16) :
    exec (.br u gd off) s = s.coresh u (.br u gd off) gd false
      (fun c0 t => t.branch u ((t.thread (unitKey u)).pc + 1 + off.toNat) (c0 + 2)) (fun c0 t => t.advance u c0 2) := rfl

/-- BR names no register, so it starts at its unit's cycle. -/
theorem startOf_br (s : State) (u : CUnit) (gd : Guard) (off : W16) : startOf s u (.br u gd off) = (s.thread (unitKey u)).cycle := rfl

/-- Settles O23: the decoder's guard is the word's, the opcode's constructors are distinct, and every instruction passes over the same way
where its guard fails. -/
theorem guardOfAnInstruction : Obligations.GuardOfAnInstruction := by
  refine ⟨fun u w w' i i' h h' => ⟨?_, ?_⟩, fun x n p => ⟨rfl, rfl, rfl⟩,
    fun i u gd s hgd hwf hat hholds => exec_of_guard_failed hgd hwf hat hholds, fun u gd off s hr hin => ?_⟩
  · rw [decodeCoresh_unitGuard h, wordGuard, bitAt_eq_getLsbD, bitsAt_eq_extractLsb']
  · rw [← bitsAt_eq_extractLsb', ← bitsAt_eq_extractLsb']
    exact decodeCoresh_opcode_eq_iff h h'
  · refine ⟨_, by rw [exec_br, State.coresh_of_ready hr, State.branch_inside _ _ _ _ hin, startOf_br], ?_⟩
    exact onlyThread_updThread s u _

end Sys2Proof.Machine
end

section
/-! The registers of a unit (06, R190), NOP and the instructions of three registers (R195). -/
namespace Sys2Proof.Machine

open Sys2Proof Sys2Proof.Safety

/-! ## Arithmetic on registers as arithmetic on numbers -/

theorem sub_eq_ofInt (x y : W32) : x - y = BitVec.ofInt 32 (x.toInt - y.toInt) := by
  apply BitVec.eq_of_toInt_eq
  rw [BitVec.toInt_sub, BitVec.toInt_ofInt]

theorem mul_eq_ofNat (x y : W32) : x * y = BitVec.ofNat 32 (x.toNat * y.toNat) := by
  rw [BitVec.ofNat_mul, BitVec.ofNat_toNat, BitVec.ofNat_toNat, BitVec.setWidth_eq, BitVec.setWidth_eq]

theorem shiftLeft_eq_ofNat (x : W32) (n : Nat) : x <<< n = BitVec.ofNat 32 (x.toNat * 2 ^ n) := by
  rw [← Nat.shiftLeft_eq]; rfl

theorem ushiftRight_eq_ofNat (x : W32) (n : Nat) : x >>> n = BitVec.ofNat 32 (x.toNat / 2 ^ n) := by
  rw [← Nat.shiftRight_eq_div_pow, ← BitVec.toNat_ushiftRight, BitVec.ofNat_toNat, BitVec.setWidth_eq]

theorem sshiftRight_eq_ofInt (x : W32) (n : Nat) : x.sshiftRight n = BitVec.ofInt 32 (x.toInt / 2 ^ n) := by
  rw [BitVec.sshiftRight, Int.shiftRight_eq_div_pow]; rfl

theorem min_eq_ofInt (x y : W32) : (if x.toInt ≤ y.toInt then x else y) = BitVec.ofInt 32 (min x.toInt y.toInt) := by
  rw [Int.min_def, apply_ite (BitVec.ofInt 32), BitVec.ofInt_toInt, BitVec.ofInt_toInt]

theorem max_eq_ofInt (x y : W32) : (if x.toInt ≤ y.toInt then y else x) = BitVec.ofInt 32 (max x.toInt y.toInt) := by
  rw [Int.max_def, apply_ite (BitVec.ofInt 32), BitVec.ofInt_toInt, BitVec.ofInt_toInt]

/-! ## NOP -/

theorem State.advance_updThread_id (s : State) (u : CUnit) (c0 cost : Nat) :
    (s.updThread (unitKey u) id).advance u c0 cost = s.advance u c0 cost := by
  rw [State.advance, s.updThread_thread, s.goOn_updThread_same u _ _ rfl, id, State.advance]

theorem exec_nop (s : State) (u : CUnit) (gd : Guard) :
    exec (.nop u gd) s = s.coresh u (.nop u gd) gd false (fun c0 t => t.advance u c0 1) (State.skip1 u) := rfl

theorem changes_nop (s : State) (u : CUnit) (gd : Guard) : Changes s u gd (.nop u gd) 1 id :=
  changes_of_coresh (exec_nop s u gd) fun _ => (s.advance_updThread_id u _ 1).symm

/-- Settles O25: NOP and the registers by their rules, each instruction of three registers as the write of its value to gD. -/
theorem registerArithmetic : Obligations.RegisterArithmetic := by
  refine ⟨fun x v b => ⟨x.reg_zero, x.setReg_zero v, rfl, rfl⟩, fun s u gd d a b => ⟨changes_nop s u gd, ?_⟩⟩
  exact ⟨computes_of_coreshReg rfl fun _ => BitVec.add_def _ _,
    computes_of_coreshReg rfl fun _ => sub_eq_ofInt _ _,
    computes_of_coreshReg rfl fun _ => rfl,
    computes_of_coreshReg rfl fun _ => rfl,
    computes_of_coreshReg rfl fun _ => rfl,
    computes_of_coreshReg rfl fun _ => shiftLeft_eq_ofNat _ _,
    computes_of_coreshReg rfl fun _ => ushiftRight_eq_ofNat _ _,
    computes_of_coreshReg rfl fun _ => sshiftRight_eq_ofInt _ _,
    computes_of_coreshReg rfl fun _ => min_eq_ofInt _ _,
    computes_of_coreshReg rfl fun _ => max_eq_ofInt _ _,
    computes_of_coreshReg rfl fun _ => mul_eq_ofNat _ _⟩

end Sys2Proof.Machine
end

section
/-! The instructions with an immediate (06, R195), compares and PLOG (R196). -/
namespace Sys2Proof.Machine

open Sys2Proof Sys2Proof.Safety

/-! ## Immediates -/

theorem add_immS_eq_ofInt (x : W32) (imm : BitVec 15) : x + immS imm = BitVec.ofInt 32 (x.toInt + imm.toInt) := by
  rw [BitVec.ofInt_add, BitVec.ofInt_toInt]; rfl

theorem immZ_eq_ofNat (imm : BitVec 15) : immZ imm = BitVec.ofNat 32 imm.toNat := (BitVec.ofNat_toNat 32 imm).symm

/-- MOVHI's halves do not overlap, so their bitwise sum is their sum. -/
theorem upper_or_lower_eq_ofNat (w : W16) (x : W32) :
    (w.setWidth 32 <<< 16) ||| (x &&& 0xFFFF) = BitVec.ofNat 32 (w.toNat * 65536 + x.toNat % 65536) := by
  have hw := w.isLt
  have hlow : x.toNat % 65536 < 2 ^ 16 := Nat.mod_lt _ (by decide)
  have hupper : (w.setWidth 32 <<< 16).toNat = w.toNat <<< 16 := by
    rw [BitVec.toNat_shiftLeft, BitVec.toNat_setWidth, Nat.shiftLeft_eq, Nat.shiftLeft_eq]; omega
  have hlower : (x &&& 0xFFFF).toNat = x.toNat % 65536 := Nat.and_two_pow_sub_one_eq_mod x.toNat 16
  apply BitVec.eq_of_toNat_eq
  rw [BitVec.toNat_or, hupper, hlower, ← Nat.shiftLeft_add_eq_or_of_lt hlow, Nat.shiftLeft_eq, BitVec.toNat_ofNat]
  omega

/-! ## Compares and PLOG -/

section
variable {s : State} {u : CUnit} {gd : Guard} {pd : Pred} {a : Reg}

theorem changes_cmp {c : BitVec 3} {b : Reg} {v : Bool}
    (h : condHolds c ((s.thread (unitKey u)).reg a) ((s.thread (unitKey u)).reg b) = v) :
    Changes s u gd (.cmp u gd pd c a b) 1 (fun x => x.setPred pd v) :=
  changes_of_coreshPred rfl h

theorem changes_cmpi {c : BitVec 3} {imm : BitVec 14} {v : Bool}
    (h : condHolds c ((s.thread (unitKey u)).reg a) (imm.signExtend 32) = v) :
    Changes s u gd (.cmpi u gd pd c a imm) 1 (fun x => x.setPred pd v) :=
  changes_of_coreshPred rfl h

theorem changes_plog {pa pb : Pred} {fn : BitVec 2} {v : Bool}
    (h : plogFn fn ((s.thread (unitKey u)).pred pa) ((s.thread (unitKey u)).pred pb) = v) :
    Changes s u gd (.plog u gd pd pa pb fn) 1 (fun x => x.setPred pd v) :=
  changes_of_coreshPred rfl h

end

theorem condHolds_zero (x y : W32) : condHolds 0 x y = decide (x = y) := rfl
theorem condHolds_one (x y : W32) : condHolds 1 x y = decide (x ≠ y) := by
  rw [decide_not]; rfl
theorem condHolds_two (x y : W32) : condHolds 2 x y = decide (x.toInt < y.toInt) := rfl
theorem condHolds_three (x y : W32) : condHolds 3 x y = decide (x.toInt ≥ y.toInt) := rfl
theorem condHolds_four (x y : W32) : condHolds 4 x y = decide (x.toNat < y.toNat) := rfl
theorem condHolds_five (x y : W32) : condHolds 5 x y = decide (x.toNat ≥ y.toNat) := rfl

theorem toInt_signExtend_imm14 (imm : BitVec 14) : (imm.signExtend 32).toInt = imm.toInt :=
  BitVec.toInt_signExtend_of_le (by decide)

theorem eq_signExtend_iff (x : W32) (imm : BitVec 14) : x = imm.signExtend 32 ↔ x.toInt = imm.toInt := by
  rw [← BitVec.toInt_inj, toInt_signExtend_imm14]

/-- Settles O26: each immediate as the number that it stands for, each compare by its condition, each function of PLOG by its table; the
conditions 6 and 7 are in no well-formed instruction. -/
theorem immediatesAndPredicates : Obligations.ImmediatesAndPredicates := by
  refine ⟨fun s u gd d a imm w => ?_, fun s u gd pd pa pb a b imm => ?_⟩
  · refine ⟨computes_of_coreshReg rfl fun _ => add_immS_eq_ofInt _ imm,
      computes_of_coreshReg rfl fun _ => congrArg _ (immZ_eq_ofNat imm),
      computes_of_coreshReg rfl fun _ => congrArg _ (immZ_eq_ofNat imm),
      computes_of_coreshReg rfl fun _ => congrArg _ (immZ_eq_ofNat imm),
      computes_of_coreshReg rfl fun hwf => ?_,
      computes_of_coreshReg rfl fun hwf => ?_,
      computes_of_coreshReg rfl fun _ => (BitVec.ofNat_toNat 32 w).symm,
      computes_of_coreshReg rfl fun _ => upper_or_lower_eq_ofNat w _⟩
    · rw [Nat.mod_eq_of_lt (of_decide_eq_true hwf), shiftLeft_eq_ofNat]
    · rw [Nat.mod_eq_of_lt (of_decide_eq_true hwf), ushiftRight_eq_ofNat]
  · refine ⟨changes_cmp (condHolds_zero _ _), changes_cmp (condHolds_one _ _), changes_cmp (condHolds_two _ _),
      changes_cmp (condHolds_three _ _), changes_cmp (condHolds_four _ _), changes_cmp (condHolds_five _ _),
      changes_cmpi ?_, changes_cmpi ?_, changes_cmpi ?_, changes_cmpi ?_,
      changes_cmpi (condHolds_four _ _), changes_cmpi (condHolds_five _ _),
      changes_plog rfl, changes_plog rfl, changes_plog rfl, changes_plog rfl, changes_plog rfl,
      fun c _ => ⟨changes_id_of_setPred_zero (changes_cmp rfl), changes_id_of_setPred_zero (changes_cmpi rfl)⟩,
      fun fn => changes_id_of_setPred_zero (changes_plog rfl),
      fun c hc => ?_⟩
    · simp only [condHolds_zero, eq_signExtend_iff]
    · simp only [condHolds_one, ne_eq, eq_signExtend_iff]
    · simp only [condHolds_two, toInt_signExtend_imm14]
    · simp only [condHolds_three, toInt_signExtend_imm14]
    · have hcmp : (Instr.cmp u gd pd c a b).coreshWf = false := decide_eq_false (Nat.not_lt.2 hc)
      have hcmpi : (Instr.cmpi u gd pd c a imm).coreshWf = false := decide_eq_false (Nat.not_lt.2 hc)
      exact ⟨fun w => ⟨decodeCoresh_ne_of_not_wf hcmp u w, decodeCoresh_ne_of_not_wf hcmpi u w⟩,
        exec_of_not_wf rfl hcmp s, exec_of_not_wf rfl hcmpi s⟩

end Sys2Proof.Machine
end

section
/-! The special values of RDS (06, R197) and the operators of a steward core on its registers: SNAP, BOUND, EMA, LDC and STC (R203, R219,
R220). -/
namespace Sys2Proof.Machine

open Sys2Proof Sys2Proof.Safety

/-! ## RDS -/

theorem computes_rds {s : State} {u : CUnit} {gd : Guard} {d : Reg} {sel : BitVec 4} {v : W32}
    (hv : s.special u sel (startOf s u (.rds u gd d sel)) = v) : Computes s u gd (.rds u gd d sel) d v 1 :=
  changes_of_coresh (effect := fun c0 t => (t.updThread (unitKey u) (fun x => x.setReg d (t.special u sel c0))).advance u c0 1) rfl
    fun _ => by rw [hv]

theorem ofNat_speed_code (v : Speed) : BitVec.ofNat 32 v.code = speedCode v := by
  cases v <;> rfl

/-- The special values end at 7 (R197). -/
theorem selOk_of_le {sel : BitVec 4} (h : 8 ≤ sel.toNat) (u : CUnit) : selOk u sel = false := by
  unfold selOk
  split
  case h_9 => rfl
  all_goals omega

/-! ## BOUND and EMA -/

/-- A clamp is signed, and its upper bound is applied last. -/
theorem toInt_clamp (lo hi v : W32) : (clamp lo hi v).toInt = min hi.toInt (max lo.toInt v.toInt) := by
  dsimp only [clamp]
  split <;> split <;> omega

theorem clamp_eq_ofInt (lo hi v : W32) : clamp lo hi v = BitVec.ofInt 32 (min hi.toInt (max lo.toInt v.toInt)) := by
  rw [← toInt_clamp, BitVec.ofInt_toInt]

theorem add_sshiftRight_eq_ofInt (x y : W32) (n : Nat) : x + y.sshiftRight n = BitVec.ofInt 32 (x.toInt + y.toInt / 2 ^ n) := by
  rw [BitVec.ofInt_add, BitVec.ofInt_toInt, sshiftRight_eq_ofInt]

/-! ## The state words of a task -/

/-- A state word of a steward core's running task (R203). -/
def State.runWord (s : State) (c : Core) (w : Nat) : W32 := (s.task (s.thread (16 + c.toNat)).task.toNat).words.get 0 w

/-- The running task of a steward core with a state word replaced (R203). -/
def State.setRunWord (s : State) (c : Core) (w : Nat) (v : W32) : State :=
  s.updTask (s.thread (16 + c.toNat)).task.toNat (fun y => { y with words := y.words.set w v })

section
variable (s : State) (c : Core) (w : Nat) (v : W32)

@[simp] theorem State.setRunWord_thread (k : Nat) : (s.setRunWord c w v).thread k = s.thread k := rfl

@[simp] theorem State.setRunWord_runWord : (s.setRunWord c w v).runWord c w = v := by
  rw [State.runWord, State.setRunWord_thread, State.setRunWord, State.updTask_task, Tab.get_set]

theorem State.setRunWord_runWord_ne {j : Nat} (h : j ≠ w) : (s.setRunWord c w v).runWord c j = s.runWord c j := by
  rw [State.runWord, State.setRunWord_thread, State.setRunWord, State.updTask_task, Tab.get_set_ne _ _ _ _ _ h, State.runWord]

theorem State.setRunWord_task_ne {j : Nat} (h : j ≠ (s.thread (16 + c.toNat)).task.toNat) :
    (s.setRunWord c w v).task j = s.task j :=
  s.updTask_task_ne _ j _ h

theorem State.setRunWord_comTask (j : Nat) : (s.setRunWord c w v).comTask j = s.comTask j :=
  s.updTask_comTask _ j _

end

section
variable {s : State} {c : Core} {gd : Guard}

theorem computes_ldc_core (d : Reg) (w : BitVec 4) :
    Computes s (.core c) gd (.ldc (.core c) gd d w false) d (s.runWord c w.toNat) 2 :=
  changes_of_coresh (effect := fun c0 t => (t.updThread (16 + c.toNat) (fun y => y.setReg d (t.runWord c w.toNat))).advance (.core c) c0 2)
    rfl fun _ => rfl

/-- STC of a steward core replaces the word, and passes. -/
theorem exec_stc_core {a : Reg} {w : BitVec 4} (h : Ready s (.core c) (.stc (.core c) gd a w false) gd)
    (hin : Inside (s.thread (16 + c.toNat)) ((s.thread (16 + c.toNat)).pc + 1)) :
    exec (.stc (.core c) gd a w false) s =
      .next ((s.setRunWord c w.toNat ((s.thread (16 + c.toNat)).reg a)).updThread (16 + c.toNat) (fun x =>
        { x with pc := (s.thread (16 + c.toNat)).pc + 1, cycle := startOf s (.core c) (.stc (.core c) gd a w false) + 2 })) := by
  have hexec : exec (.stc (.core c) gd a w false) s = s.coresh (.core c) (.stc (.core c) gd a w false) gd false
      (fun c0 t => (t.setRunWord c w.toNat ((t.thread (16 + c.toNat)).reg a)).advance (.core c) c0 2) (State.skip1 (.core c)) := rfl
  rw [hexec, State.coresh_of_ready h, State.advance, State.goOn_inside _ _ _ _ hin]
  rfl

end

/-- Settles O27: each special value of its unit, the others in no well-formed instruction; BOUND and EMA as arithmetic on numbers, LDC and
STC through the state words of the running task. -/
theorem specialAndStewardValues : Obligations.SpecialAndStewardValues := by
  refine ⟨fun s u p c gd d => ?_, fun s c gd d a item b k w lo hi => ?_⟩
  · refine ⟨computes_rds rfl,
      computes_rds (BitVec.ofNat_toNat 32 s.tick.n).symm,
      computes_rds rfl,
      computes_rds (ofNat_speed_code _),
      computes_rds (BitVec.ofNat_toNat 32 _).symm,
      computes_rds rfl,
      computes_rds rfl,
      computes_rds (BitVec.ofNat_toNat 32 c).symm,
      fun sel hsel w => decodeCoresh_ne_of_not_wf (i := .rds u gd d sel) (selOk_of_le hsel u) u w,
      fun sel w => ⟨?_, ?_⟩⟩
    · rintro (rfl | rfl) <;> exact decodeCoresh_ne_of_not_wf rfl _ w
    · rintro (rfl | rfl) <;> exact decodeCoresh_ne_of_not_wf rfl _ w
  · refine ⟨computes_of_coreshReg rfl fun _ => rfl,
      fun hbound _ => computes_of_coreshReg rfl fun _ => ?_,
      computes_of_coreshReg rfl fun _ => add_sshiftRight_eq_ofInt _ _ _,
      computes_ldc_core d w,
      fun hready hinside => ⟨_, exec_stc_core hready hinside, ?_⟩⟩
    · have hpair : s.boundOf (s.thread (unitKey (.core c))).slice.toNat b.toNat = (lo, hi) := hbound
      simp only [hpair]
      exact clamp_eq_ofInt lo hi _
    · refine ⟨?_, ?_, ?_, ?_, ?_⟩
      · exact s.setRunWord_runWord c w.toNat _
      · exact fun j hj => s.setRunWord_runWord_ne c w.toNat _ hj
      · exact fun j hj => s.setRunWord_task_ne c w.toNat _ hj
      · exact s.setRunWord_comTask c w.toNat _
      · rfl

end Sys2Proof.Machine
end
